-- ==== Sys2Proof/Word.lean ====
section
/-! DEFINITION. Words of the Yoxis 2 block: the bit-vector widths its registers, billets and elements use. -/

namespace Sys2Proof

/-- A byte. -/
abbrev Byte := BitVec 8
/-- A 32-bit word: a register of the map (R384), an FP32 encoding (R89), an INT32 element. -/
abbrev W32 := BitVec 32
/-- A 64-bit word: an address, a descriptor word (R167). -/
abbrev W64 := BitVec 64
/-- A billet payload of 64 bytes, byte 0 in the low bits (R199). -/
abbrev Payload := BitVec 512

end Sys2Proof
end

