-- ==== Sys2Proof/Syntax.lean ====
section
/-! DEFINITION. The commands of the Yoxis 2 block: one constructor of `Instr` per row of spec/opcode_table.json,
and the operands that travel with them (billets R199, frames R204, marker groups R232, answers of the surroundings). -/

namespace Sys2Proof

/-- A port of the engine: 0 to 31 link ports, 32 to 39 sibling ports 0 to 7 (R205). -/
abbrev PortId := Fin 40

/-- A billet: the header fields of R199 and the 64-byte payload. -/
structure Billet where
  dest : BitVec 16
  key  : BitVec 12
  kind : BitVec 4
  vc   : BitVec 3
  gen  : BitVec 4
  tag  : BitVec 12
  seq  : BitVec 13
  data : Payload
deriving DecidableEq, Repr

/-- A received link frame (R204): four billet positions, the trailer fields, and whether a word of it came from an
uncorrectable codeword (R234). -/
structure Frame where
  pos    : List Billet
  fseq   : BitVec 12
  ack    : BitVec 12
  credit : BitVec 16
  crc    : BitVec 24
  fecBad : Bool
deriving DecidableEq, Repr

/-- One lane's alignment period as the PHY gives it (R229, R231): the PHY lane of the port, its 1,360 PMA words, and how much later
than the earliest lane its marker group lies, in ps (R233). -/
structure LanePeriod where
  phy   : BitVec 3
  words : List (BitVec 256)
  skew  : Nat
deriving DecidableEq, Repr

/-- What a port receives with a period boundary (R231, R255): the period of each lane that the PHY gives, or, at a sibling port, the
marker beat. -/
inductive PeriodIn where
  | lanes (ls : List LanePeriod)
  | beat (b : BitVec 2048)
deriving DecidableEq, Repr

/-- The islands of the engine (01, "Islands and units"). -/
inductive Island where
  | link (n : Fin 8)
  | anvil (n : Fin 5)
  | hearth (n : Fin 8)
  | tongs
  | weld
  | sibling
  | trace
  | control
deriving DecidableEq, Repr

/-- The states and indications that an adapter's FDI shows the block (R372). -/
inductive FdiState where
  | active | retrain | linkError | reset | disabled
deriving DecidableEq, Repr

/-- The streams of a heat (R181), in the order of the STREAM codes of R281. -/
inductive StreamId where
  | src | dst | xdst | stat | cntVec | rcvCnt | plan | other
deriving DecidableEq, Repr

/-- The three ring registers of a queue page (R155). -/
inductive RingReg where
  | lo | hi | cfg
deriving DecidableEq, Repr

/-- A register write of the YMB (R384) or a pick-port write (R365). -/
inductive RegWrite where
  | ymb (addr : BitVec 24) (v : W32)
  | pick (addr : BitVec 17) (be : Byte) (rid : BitVec 16) (wdata : W64)
deriving DecidableEq, Repr

/-- Bits of one Hearth word that flip (R111, R131): the word's bank, stripe and index within the stripe, and a mask of 64 data bits, 2 tag
bits and 8 check bits, data lowest. -/
structure Flip where
  bank   : BitVec 3
  stripe : BitVec 15
  word   : BitVec 6
  bits   : BitVec 74
deriving DecidableEq, Repr

/-- What the device gives to SFDP discovery (R321, R322): whether it responds, the signature, the DWORDs of the Basic Flash
Parameter Table and those of the 4-Byte Address Instruction Table, if present. -/
structure Sfdp where
  responds  : Bool
  signature : W32
  bfpt      : List W32
  addr4     : Option (List W32)
deriving DecidableEq, Repr

/-- A value of the boundary register: one cell for each wrapped signal (R375): the outputs of the YMB, of the SPI NOR, of the management
group and of the seal loop, and the inputs of the YMB, of the SPI NOR, of presence, straps and throttle. -/
structure Boundary where
  reqReady  : Bool
  rspValid  : Bool
  rspCode   : BitVec 2
  rspData   : W32
  nvmSck    : Bool
  nvmCsN    : Bool
  nvmOut    : BitVec 4
  nvmOe     : BitVec 4
  irq       : Bool
  trip      : Bool
  ready     : Bool
  sealDrive : Bool
  reqValid  : Bool := false
  reqWrite  : Bool := false
  reqAddr   : BitVec 24 := 0
  reqData   : W32 := 0
  nvmIn     : BitVec 4 := 0
  provEn    : Bool := false
  presentN  : Bool := false
  sealLoop  : Bool := false
  zeroizeN  : Bool := false
  strapInst : BitVec 3 := 0
  strapMfr  : BitVec 11 := 0
  throttle  : BitVec 2 := 0
deriving DecidableEq, Repr

/-- Every cell 0. -/
def Boundary.zero : Boundary :=
  { reqReady := false, rspValid := false, rspCode := 0, rspData := 0, nvmSck := false, nvmCsN := false, nvmOut := 0, nvmOe := 0
    irq := false, trip := false, ready := false, sealDrive := false }

/-- What a boot step that waited has obtained (R332): SFDP values and the slot's header bytes (step 2), the bytes of
each component in table order (step 3), or nothing (steps 1, 4, 5, 6). -/
inductive BootInput where
  | none
  | header (sfdp : Sfdp) (bytes : List Byte)
  | components (bytes : List (List Byte))
deriving DecidableEq, Repr

/-- The commands of the block, in the order of spec/opcode_table.json. -/
inductive Instr where
  /-- ALLREDUCE (R34). Dispatch of an ALLREDUCE heat: every rank receives the reduction of all contributions. -/
  | allreduce (q : BitVec 12)
  /-- REDUCE_SCATTER (R34). Dispatch of a REDUCE_SCATTER heat: rank r receives the reduced chunk r. -/
  | reduceScatter (q : BitVec 12)
  /-- ALLGATHER (R34). Dispatch of an ALLGATHER heat: every rank receives all contributions in rank order. -/
  | allgather (q : BitVec 12)
  /-- REDUCE (R34). Dispatch of a REDUCE heat: the root rank receives the reduction. -/
  | reduce (q : BitVec 12)
  /-- BROADCAST (R38). Dispatch of a BROADCAST heat: the root's data is sent outward along the fixed tree. -/
  | broadcast (q : BitVec 12)
  /-- ALLTOALL (R39). Dispatch of an ALLTOALL heat: counts are exchanged, then counted segments are placed by offset. -/
  | alltoall (q : BitVec 12)
  /-- ROTATE (R41). Dispatch of a ROTATE heat: shards move one rank along a ring per step into alternating buffers. -/
  | rotate (q : BitVec 12)
  /-- TOPK (R148). Dispatch of a TOPK heat: per row, the K best records are merged over the tree. -/
  | topk (q : BitVec 12)
  /-- SOFTMAX_MERGE (R143). Dispatch of a SOFTMAX_MERGE heat: per-row (m, l, O) triples are merged over the tree. -/
  | softmaxMerge (q : BitVec 12)
  /-- BARRIER (R263). Dispatch of a BARRIER heat: arrivals go up the tree and the release comes down it. -/
  | barrier (q : BitVec 12)
  /-- SEND (R44). Dispatch of a SEND heat: elements go to the matched RECV on the peer rank. -/
  | send (q : BitVec 12)
  /-- RECV (R44). Dispatch of a RECV heat: elements of the matched SEND fill DST up to CAPACITY. -/
  | recv (q : BitVec 12)
  /-- PARTIAL_WRITE (R45). Dispatch of a PARTIAL_WRITE heat: every rank's contribution is written unreduced as FP32 rows. -/
  | partialWrite (q : BitVec 12)
  /-- PLAN_LOAD (R26). Dispatch of PLAN_LOAD: the plan image is validated, installed and its circuits are reserved. -/
  | planLoad (q : BitVec 12)
  /-- PLAN_UNLOAD (R28). Dispatch of PLAN_UNLOAD: the plan ID is freed and its circuits are released. -/
  | planUnload (q : BitVec 12)
  /-- PRELOAD_SLOT (R122). Dispatch of PRELOAD_SLOT: the bias region or a residual fill set of a slot is filled. -/
  | preloadSlot (q : BitVec 12)
  /-- DRAIN_SLOT (R124). Dispatch of DRAIN_SLOT: an open slot is drained to DST, or a non-open slot is released. -/
  | drainSlot (q : BitVec 12)
  /-- NOP (R48). Dispatch of NOP: a completion record is written in queue order. -/
  | nop (q : BitVec 12)
  /-- PARTITION_CREATE (R292). Steward creates a partition with its key, generation, class, ranges and endpoint bitmap. -/
  | partitionCreate
  /-- PARTITION_UPDATE (R292). PARTITION_CREATE with UPDATE = 1 replaces the endpoint bitmap of an existing partition. -/
  | partitionUpdate
  /-- PARTITION_RESET (R298). Steward resets a partition: heats are aborted, plans, slots and tags are released, and GEN is advanced. -/
  | partitionReset
  /-- PARTITION_RELEASE (R299). PARTITION_RESET with RELEASE = 1 frees the partition, its queues, ranges and quotas. -/
  | partitionRelease
  /-- KEY_SET (R293). Steward sets or clears a key bit in the key tables of the named ports. -/
  | keySet
  /-- QUOTA_SET (R295). Steward sets all partition limits at once, and optionally the crash buffer, or the operation is refused. -/
  | quotaSet
  /-- ROUTE_SWAP (R223). Steward swaps the active and standby route banks on a drained engine. -/
  | routeSwap
  /-- ROUTE_SWAP_FORCED (R224). ROUTE_SWAP with FORCE = 1 swaps banks without a drain and discards billets in flight. -/
  | routeSwapForced
  /-- DRAIN_VC (R222). Steward holds injection of the selected VCs toward the selected ports until they are quiet. -/
  | drainVc
  /-- DRAIN_VC_RELEASE (R222). DRAIN_VC with RELEASE = 1 ends the hold at once. -/
  | drainVcRelease
  /-- CABLE_ADOPT (R246). Steward adopts the observed partner of one quarantined port into its live cabling entry. -/
  | cableAdopt
  /-- CABLE_ADOPT_PAIR (R246). CABLE_ADOPT with PAIR = 1 exchanges the live entries of two swapped ports. -/
  | cableAdoptPair
  /-- REIMAGE_STAGE (R340). Steward loads a sequencer microcode from host memory into the standby store. -/
  | reimageStage
  /-- REIMAGE_ACTIVATE (R341). Steward holds sequencer work to switch to the staged microcode at the quiesce boundary. -/
  | reimageActivate
  /-- PLAN_REVOKE (R302). Steward ends the heats of one or all plans of a partition and unloads those plans. -/
  | planRevoke
  /-- DOORBELL (R157). A write to QP_DOORBELL is checked against head and tail and either accepted as the pending tail or treated as a malformed entry. -/
  | doorbell (rid : BitVec 16) (q : BitVec 12) (v : W32)
  /-- PENDING_TAIL_APPLY (R158). Once per tclk, Tongs applies the coalesced pending tail and any pending discard. -/
  | pendingTailApply (q : BitVec 12)
  /-- QUEUE_ENABLE (R161). Writing QP_CTRL.ENABLE = 1 activates a DISABLED or DRAINING queue, or sets CFG_ERR if the configuration is invalid. -/
  | queueEnable (rid : BitVec 16) (q : BitVec 12) (v : W32)
  /-- QUEUE_DISABLE (R161). Writing QP_CTRL.ENABLE = 0 moves an ACTIVE queue to DRAINING and discards its cached entries. -/
  | queueDisable (rid : BitVec 16) (q : BitVec 12) (v : W32)
  /-- QUEUE_HOLD (R165). Writing QP_CTRL.HOLD stops or restarts new chains entering validation. -/
  | queueHold (rid : BitVec 16) (q : BitVec 12) (v : W32)
  /-- QUEUE_INVAL (R165). Writing QP_CTRL.INVAL = 1 discards cached entries that have not been consumed. -/
  | queueInval (rid : BitVec 16) (q : BitVec 12) (v : W32)
  /-- QUEUE_RESET (R161). Writing QP_CTRL.RESET = 1 zeroes head and tail in the states that R161 permits. -/
  | queueReset (rid : BitVec 16) (q : BitVec 12) (v : W32)
  /-- RING_CONFIG_WRITE (R156). A write to QP_RING_LO, QP_RING_HI or QP_RING_CFG in DISABLED sets the ring and zeroes head and tail. -/
  | ringConfigWrite (rid : BitVec 16) (q : BitVec 12) (r : RingReg) (v : W32)
  /-- DESCRIPTOR_FETCH (R163). Tongs issues memory reads to fill a queue's descriptor cache up to 8 entries. -/
  | descriptorFetch (q : BitVec 12)
  /-- CHAIN_VALIDATE (R173). A chain is consumed and checked step by step; it passes or is a malformed entry. -/
  | chainValidate (q : BitVec 12)
  /-- SLOT_OBTAIN (R52). A heat obtains its slot after the previous heat's last addition or drain, allocating ingots and judging the set state. -/
  | slotObtain (ctx : BitVec 12)
  /-- STAGING_PAIR_GRANT (R184). A stream that waited at its partition's staging limit obtains a staging pair. -/
  | stagingPairGrant (ctx : BitVec 12) (st : StreamId)
  /-- SET_DRAIN_DONE (R127). A draining set finishes its drain and becomes EMPTY or is released. -/
  | setDrainDone (ctx : BitVec 12)
  /-- HEAT_COMPLETION (R177). After all writes and commits, the 16-byte completion record is written and the heat context is released. -/
  | heatCompletion (ctx : BitVec 12)
  /-- COMPLETION_EVENT (R369). A pending queue event transfers on the event channel in round-robin order. -/
  | completionEvent
  /-- READY (R32). A READY billet is matched with its counterpart heat, recorded and answered, discarded, or rejected as a mismatch. -/
  | ready (p : PortId) (b : Billet)
  /-- READY_REPLY (R32). A READY reply records the peer's context index, or ends the heat with PLAN_INVALID if MISMATCH is set. -/
  | readyReply (p : PortId) (b : Billet)
  /-- DATA (R191). A DATA billet is applied if next in sequence, held or refused as early, or discarded. -/
  | data (p : PortId) (b : Billet) (flips : List Flip)
  /-- MASK (R203). A MASK billet delivers the presence bits for the next group of a flow. -/
  | mask (p : PortId) (b : Billet)
  /-- COMMIT (R191). A COMMIT billet reports the receiver's last committed sequence to the sender. -/
  | commit (p : PortId) (b : Billet)
  /-- HOLD (R61). A HOLD billet makes the source rewind the flow to the refused sequence and stop sending. -/
  | hold (p : PortId) (b : Billet)
  /-- RESUME (R61). A RESUME billet restarts a held or paused flow from the named sequence. -/
  | resume (p : PortId) (b : Billet)
  /-- BEACON (R194). A pause beacon with a new count re-arms the watchdog and is relayed once. -/
  | beacon (p : PortId) (b : Billet)
  /-- BARRIER_ARRIVE (R263). An ARRIVE billet from a child counts toward a rank's own arrival or the root's release. -/
  | barrierArrive (p : PortId) (b : Billet)
  /-- BARRIER_RELEASE (R263). A RELEASE billet is forwarded to the children and the rank releases. -/
  | barrierRelease (p : PortId) (b : Billet)
  /-- COUNTS (R39). An ALLTOALL count billet is recorded; all counts write RCV_CNT. -/
  | counts (p : PortId) (b : Billet)
  /-- CIRCUIT_SETUP (R217). A SETUP billet reserves an entry and slots and is forwarded, confirmed or refused. -/
  | circuitSetup (p : PortId) (b : Billet)
  /-- CIRCUIT_CONFIRM (R217). A CONFIRM billet reports that a circuit request is reserved along its whole path. -/
  | circuitConfirm (p : PortId) (b : Billet)
  /-- CIRCUIT_REFUSE (R217). A REFUSE billet makes PLAN_LOAD release every circuit and complete with NO_SLOTS. -/
  | circuitRefuse (p : PortId) (b : Billet)
  /-- CIRCUIT_RELEASE (R217). A RELEASE billet frees the matching circuit entry and is forwarded. -/
  | circuitRelease (p : PortId) (b : Billet)
  /-- CIRCUIT_FORWARD (R216). A circuit billet is found by ingress port and label, then delivered locally or forwarded in owned slots. -/
  | circuitForward (p : PortId) (b : Billet)
  /-- BILLET_INGRESS (R206). A routed billet is checked for key and kind, looked up, and delivered, queued or dropped. -/
  | billetIngress (p : PortId) (b : Billet)
  /-- TIME_REQ (R267). An upstream engine answers a REQ with a RESP carrying t1, t2 and t3. -/
  | timeReq (p : PortId) (b : Billet)
  /-- TIME_RESP (R267). A lead records t4 and computes the offset correction θ. -/
  | timeResp (p : PortId) (b : Billet)
  /-- TIME_QUERY (R268). A lead answers a member's QUERY with STATE. -/
  | timeQuery (p : PortId) (b : Billet)
  /-- TIME_STATE (R268). A member takes the lead's pending offset, apply epoch and LOCKED bit. -/
  | timeState (p : PortId) (b : Billet)
  /-- MGMT_NOTICE (R319). A received NOTICE is placed in the mailbox, or dropped if the mailbox is full. -/
  | mgmtNotice (p : PortId) (b : Billet)
  /-- FRAME_RECEIVE (R236). A received frame is checked; its billets, ACK and CREDIT are taken or it is discarded: a frame
  given whole, or the next of those that the port has decoded (log 59). -/
  | frameReceive (p : PortId) (f : Option Frame)
  /-- FRAME_SEND (R215). A frame is filled for the current wheel slot and sent. -/
  | frameSend (p : PortId)
  /-- REPLAY_TIMEOUT (R237). When REPLAY_WAIT expires for the oldest kept frame, every kept frame is resent. -/
  | replayTimeout (p : PortId)
  /-- PERIOD_BOUNDARY (R238). At an alignment-period boundary, marker groups are exchanged and credit audits are applied. -/
  | periodBoundary (p : PortId) (r : PeriodIn)
  /-- TRAINING_WORD (R242). A received training word advances the training or retrain handshake, or causes port loss in service. -/
  | trainingWord (p : PortId) (w : BitVec 256)
  /-- TRAIN_PHASE_TIMEOUT (R240). A training phase times out and the attempt fails. -/
  | trainPhaseTimeout (p : PortId)
  /-- ATTEMPT_GAP_END (R241). The 20 ms silent gap after a failed attempt ends; the next attempt starts or the port enters ABSENT. -/
  | attemptGapEnd (p : PortId)
  /-- REPROBE_TIMER (R241). An ABSENT port makes one attempt every REPROBE_MS. -/
  | reprobeTimer (p : PortId)
  /-- LANE_SIGNAL_CHANGE (R248). The PHY reports signal or lock on a lane, which can cause lane failure, port loss or training progress. -/
  | laneSignalChange (p : PortId) (lane : BitVec 3) (ok : Bool)
  /-- RETRAIN_TIMEOUT (R249). No frame has resumed within 8 µs of the failure, so the retrain fails and the port is lost. -/
  | retrainTimeout (p : PortId)
  /-- ACK_PROGRESS_TIMEOUT (R251). 20 µs pass with frames kept and no ACK progress, and the port is lost. -/
  | ackProgressTimeout (p : PortId)
  /-- RX_SILENCE_TIMEOUT (R251). 20 µs pass without a good frame arriving, and the port is lost. -/
  | rxSilenceTimeout (p : PortId)
  /-- PORT_LOSS_DONE (R252). Port loss actions complete and the port enters DETECT with a new series. -/
  | portLossDone (p : PortId)
  /-- FDI_STATE_CHANGE (R372). A sibling adapter's FDI state change marks DETECT done, starts a retrain or causes port loss. -/
  | fdiStateChange (n : Fin 8) (st : FdiState)
  /-- SIB_X32_CHANGE (R372). A change of yx_sib_x32 starts a fast retrain of the sibling port. -/
  | sibX32Change (n : Fin 8) (x32 : Bool)
  /-- WELD_GRANT (R361). Weld issues a grant for the next elements of an inbound weld stream. -/
  | weldGrant (ctx : BitVec 12)
  /-- WELD_IN_BEAT (R185). An inbound weld beat is matched to its stream by tag and staged, or discarded. -/
  | weldInBeat (port : BitVec 5) (tag : BitVec 16) (data : BitVec 1024) (mask : W32) (last : Bool)
  /-- WELD_OUT_BEAT (R185). An outbound weld beat completes its handshake and its elements are committed. -/
  | weldOutBeat (port : BitVec 5)
  /-- MEMORY_RESPONSE (R364). A memory read or write response is taken, commits data or ends the heat on ERROR or POISON. -/
  | memoryResponse (tag : BitVec 12) (status : BitVec 2) (rdata : Payload)
  /-- PICK_WRITE_RESPONSE (R367). A pick-initiator write response arrives; an ERROR loses the write. -/
  | pickWriteResponse (err : Bool)
  /-- XLATE_REPLY (R188). A translation reply is cached and used, or a fault pauses the unpinned heat. -/
  | xlateReply (id : BitVec 8) (status size : BitVec 2) (paddr : BitVec 40)
  /-- PAGE_REQ_REPLY (R193). A page request reply resumes the paused heat, or ends it with XLATE_FAIL. -/
  | pageReqReply (id : BitVec 8) (status : BitVec 2)
  /-- XLATE_INVALIDATE (R189). A translation invalidation is accepted and acknowledged once matching accesses and pins end. -/
  | xlateInvalidate (scope : BitVec 2) (asid : BitVec 16) (first last : BitVec 52)
  /-- THROTTLE_INPUT_CHANGE (R187). A change of yx_thermal_throttle sets the memory-port issue limit. -/
  | throttleInputChange (code : BitVec 2)
  /-- COMMIT_QUIET_TIMER (R191). 2 µs without a new billet on a flow with unreported commits sends a COMMIT. -/
  | commitQuietTimer (tag : BitVec 12)
  /-- BEACON_PERIOD (R194). A paused heat resends its pause beacon every 50 µs. -/
  | beaconPeriod (ctx : BitVec 12)
  /-- BEACON_COUNT_FORGET (R194). A heat forgets its beacon count for an origin 1 ms after taking a new count. -/
  | beaconCountForget (ctx : BitVec 12) (origin : BitVec 16)
  /-- PAUSE_CAP_REACHED (R195). Cumulative pause reaches PAUSE_CAP; beacons stop and the heat's watchdog runs again. -/
  | pauseCapReached (ctx : BitVec 12)
  /-- WATCHDOG_EXPIRY (R310). A heat's watchdog expires; quench capture and crash sample run, and the heat ends with ABORT_TIMEOUT. -/
  | watchdogExpiry (ctx : BitVec 12)
  /-- TAG_HOLD_EXPIRY (R308). A flow tag freed by an aborted heat becomes available after its hold. -/
  | tagHoldExpiry (tag : BitVec 12)
  /-- CIRCUIT_SETUP_TIMEOUT (R217). No reply within 1 ms makes PLAN_LOAD release its circuits and complete with NO_SLOTS. -/
  | circuitSetupTimeout (ctx : BitVec 12)
  /-- KEY_REUSE_WAIT_END (R292). A PARTITION_CREATE waiting on a recently released key proceeds 160 ms after the release. -/
  | keyReuseWaitEnd (ctx : BitVec 12)
  /-- RESET_SPACING_END (R300). A PARTITION_RESET proceeds 10 ms after the previous reset of the same partition. -/
  | resetSpacingEnd (ctx : BitVec 12)
  /-- DRAIN_VC_QUIET (R222). QUIET_US passes with no traffic on the selected VCs and ports; DRAIN_VC completes OK. -/
  | drainVcQuiet
  /-- DRAIN_VC_TIMEOUT (R222). TIMEOUT_MS expires first; the hold is released and DRAIN_VC ends with ABORT_TIMEOUT. -/
  | drainVcTimeout
  /-- SWAP_EDGE (R223). At the 16th refclk edge after dispatch, the route banks swap and the swap heat completes. -/
  | swapEdge
  /-- FORCED_SWAP_QUIET_END (R224). QUIET_US after a forced swap edge passes and arriving billets are no longer discarded. -/
  | forcedSwapQuietEnd
  /-- INSTEP_RELEASE (R269). At machine time T × 10, a rank releases its in-step BARRIER heat. -/
  | instepRelease (ctx : BitVec 12)
  /-- BARRIER_WAKE (R260). A context waiting on a barrier resumes at the 4th tclk after the releasing arrival. -/
  | barrierWake (ctx : BitVec 12)
  /-- ARRIVE (R257). A host write of ARRIVE to a barrier page counts one arrival and may release the object. -/
  | arrive (rid : BitVec 16) (obj : BitVec 14) (v : W32)
  /-- ARM (R257). A host write of TARGET to a barrier page arms the object or cleans it. -/
  | arm (rid : BitVec 16) (obj : BitVec 14) (v : W32)
  /-- EPOCH_PULSE (R264). An epoch pulse starts or corrects the epoch counter and applies pending time offsets. -/
  | epochPulse
  /-- TIME_EXCHANGE_PERIOD (R267). A lead starts a time exchange with its upstream engine every PERIOD_MS. -/
  | timeExchangePeriod
  /-- TIME_RESP_TIMEOUT (R267). An exchange without RESP within 1 ms is abandoned and LOST is counted. -/
  | timeRespTimeout
  /-- MEMBER_QUERY_PERIOD (R268). A member sends QUERY to its lead every 1 ms. -/
  | memberQueryPeriod
  /-- PATROL_READ (R134). Every 4,096 hclk, patrol scrub reads one line per bank and corrects or poisons. -/
  | patrolRead (flips : List Flip)
  /-- SCRUB_DONE (R133). Queued released ingots finish scrubbing and become free: the `n` at the front of the queue. -/
  | scrubDone (n : Nat := 1)
  /-- TELEMETRY_SAMPLE (R226). Every INTERVAL_US, a sample is sent as 10 TELEMETRY billets. -/
  | telemetrySample
  /-- SENSOR_SAMPLE (R356). Every 10 µs, the temperature sensors are sampled and the thermal level is raised if needed. -/
  | sensorSample (temps : List (BitVec 8))
  /-- THERMAL_HYST_EXPIRY (R356). Sensors below threshold minus hysteresis for 1 ms lower the thermal level. -/
  | thermalHystExpiry
  /-- ISLAND_GATE (R354). An island idle for IDLE_US that meets the gating rules is powered off. -/
  | islandGate (i : Island)
  /-- ISLAND_WAKE (R353). A gated island's supply ramp and initialisation finish and alignment begins. -/
  | islandWake (i : Island)
  /-- ALIGN_FRAME_CHECK (R349). At a frame edge, bridge pointers are set and check patterns mark the island ALIGNED or retried. -/
  | alignFrameCheck (i : Island) (ok : Bool)
  /-- ISLAND_FAULT (R304). An uncorrectable error in an island's state ends the affected heats and resets the island. -/
  | islandFault (i : Island) (unit : BitVec 5) (touched : List (BitVec 12))
  /-- ISLAND_RESET (R303). CTL_ISLAND_RST.GO = 1 starts a drain of the named island. -/
  | islandReset (v : W32)
  /-- ISLAND_RESET_START (R303). When no heat holds a unit, quench runs and the island is reset and realigned. -/
  | islandResetStart
  /-- TNG_ABORT (R297). A write to TNG_ABORT expires the named heat's watchdog with reason FORCED. -/
  | tngAbort (v : W32)
  /-- LINK_ENABLE (R239). Writing LNK_CTL.ENABLE = 1 starts a DISABLED port training, waking its island if gated. -/
  | linkEnable (p : PortId) (v : W32)
  /-- LINK_DISABLE (R239). Writing LNK_CTL.ENABLE = 0 carries out port loss actions and disables the port. -/
  | linkDisable (p : PortId) (v : W32)
  /-- LINK_PROBE (R241). Writing LNK_CTL.PROBE = 1 re-probes an ABSENT port at once. -/
  | linkProbe (p : PortId) (v : W32)
  /-- LINK_RESTORE (R250). Writing LNK_CTL.RESTORE = 1 starts a fast retrain over every locked lane. -/
  | linkRestore (p : PortId) (v : W32)
  /-- CREDIT_ALLOT_WRITE (R210). A write to LNK_CREDIT_DATA sets an allotment for the next training, or is refused. -/
  | creditAllotWrite (p : PortId) (v : W32)
  /-- ROUTE_TABLE_WRITE (R221). A write of RTE_TBL_DATA stores a standby route entry and advances INDEX. -/
  | routeTableWrite (v : W32)
  /-- ROUTE_TABLE_READ (R398). A read of RTE_TBL_DATA returns an entry of the selected bank and advances INDEX. -/
  | routeTableRead
  /-- KEY_TABLE_READ (R398). A read of RTE_KEY_DATA returns 32 key bits of a port and advances WORD. -/
  | keyTableRead
  /-- FLAG_DATA_READ (R85). A read of ANV_FLAG_DATA returns a lane's flag word and advances LANE. -/
  | flagDataRead
  /-- QUENCH_DATA_READ (R317). A read of CTL_QUENCH_DATA returns a record word and advances WORD. -/
  | quenchDataRead
  /-- MBOX_DATA_READ (R401). A read of CTL_MBOX_DATA returns the next mailbox word and removes a message after its 16th word. -/
  | mboxDataRead
  /-- EPOCH_READ (R271). A read of CTL_EPOCH_LO returns the low bits and latches the high bits into CTL_EPOCH_HI. -/
  | epochRead
  /-- PROFILE_READ (R285). A read of a profile LO register latches its high bits into HI. -/
  | profileRead (clock : Bool)
  /-- DIAG_ENABLE (R83). Writing ANV_DIAG_CTL.ENABLE = 1 starts per-lane flag capture when no partition is active. -/
  | diagEnable (v : W32)
  /-- DIAG_CLEAR (R84). Writing ANV_DIAG_CTL.CLEAR = 1 clears every flag word. -/
  | diagClear (v : W32)
  /-- POLICY_WRITE (R392). A write to CTL_POLICY sets the permits and may lock them, or is a lock violation. -/
  | policyWrite (v : W32)
  /-- PLATFORM_TAG_WRITE (R393). The first write to CTL_PLATFORM_TAG takes effect; later writes are violations. -/
  | platformTagWrite (v : W32)
  /-- WDOG_WRITE (R320). A write to TNG_WDOG sets the watchdog period, raising values below 100 to 100. -/
  | wdogWrite (v : W32)
  /-- RECORD_ENABLE (R282). Writing TRC_REC_CTL.ENABLE = 1 translates the trace buffer and starts recording. -/
  | recordEnable (v : W32)
  /-- RECORD_DISABLE (R282). Writing TRC_REC_CTL.ENABLE = 0 ends recording with a STOP entry. -/
  | recordDisable (v : W32)
  /-- REPLAY_START (R283). Writing TRC_REC_CTL.REPLAY = 1 starts replaying the trace buffer for a partition. -/
  | replayStart (v : W32)
  /-- REPLAY_ENTRY_DUE (R283). A recorded doorbell, queue-control or barrier entry takes effect at its replay time. -/
  | replayEntryDue
  /-- REPLAY_DIVERGE_TIMEOUT (R284). An expected run or heat does not appear within 1 ms, so the replay diverges and the partition runs live. -/
  | replayDivergeTimeout
  /-- TELEMETRY_ENABLE (R226). Writing TRC_TELE_CTL.ENABLE starts or stops telemetry sampling, waking Trace if needed. -/
  | telemetryEnable (v : W32)
  /-- REGISTER_WRITE (R384). A YMB or pick-port write to a register with no row of its own is checked and applied whole. -/
  | registerWrite (w : RegWrite)
  /-- PROV_REQUEST (R335). Writing BOOT_PROV_CTL.REQUEST = 1 opens a provisioning request if the jumper and seal permit. -/
  | provRequest (v : W32)
  /-- PROV_CLOSE (R335). Writing BOOT_PROV_CTL.CLOSE = 1 closes the provisioning session. -/
  | provClose (v : W32)
  /-- TAP_UNLOCK (R338). Writing TAP_UNLOCK = 1 in an open session disables ports, scrubs buffers and opens the private TAP chain. -/
  | tapUnlock (v : W32)
  /-- PRESENCE_PRESS (R335). A 20 ms press of yx_present_n after REQUEST opens the session. -/
  | presencePress
  /-- PROV_REQUEST_TIMEOUT (R335). 10 s without a press closes the request with TIMEOUT. -/
  | provRequestTimeout
  /-- PROVISION_EN_CHANGE (R380). yx_provision_en falls low and closes any session. -/
  | provisionEnChange (high : Bool)
  /-- SEAL_BREAK (R336). The seal loop found open for 1 µs latches SEAL_BROKEN and closes any session. -/
  | sealBreak
  /-- NVM_ERASE (R337). BOOT_NVM_CMD = ERASE erases the erase unit containing ADDR. -/
  | nvmErase (v : W32)
  /-- NVM_PROGRAM (R337). BOOT_NVM_CMD = PROGRAM programs the page buffer into the page at ADDR. -/
  | nvmProgram (v : W32)
  /-- NVM_DATA_READ (R337). A read of BOOT_NVM_DATA returns the device word at ADDR and advances ADDR. -/
  | nvmDataRead (devWord : W32)
  /-- NVM_DATA_WRITE (R337). A write of BOOT_NVM_DATA stores a word in the page buffer and advances ADDR. -/
  | nvmDataWrite (v : W32)
  /-- NVM_CMD_DONE (R337). An NVM command finishes, clearing BUSY and setting ERR on failure. -/
  | nvmCmdDone (ok : Bool)
  /-- BOOT_RETRY (R334). Writing BOOT_CTL.RETRY = 1 in the identity-only state reruns boot from step 2. -/
  | bootRetry (v : W32)
  /-- POR_RELEASE (R332). Release of yx_por_n samples the straps and starts boot at step 1. -/
  | porRelease (inst : BitVec 3) (mfr : BitVec 11)
  /-- POWER_ON_RESET (R351). Assertion of yx_por_n loses all state and drives outputs to reset values. -/
  | powerOnReset
  /-- BOOT_STEP_ADVANCE (R332). A boot step that waited on NVM reads, alignment or training finishes, and boot proceeds or tries slot B. -/
  | bootStepAdvance (inp : BootInput)
  /-- BOOT_ALIGN_TIMEOUT (R332). Alignment not complete within 100 ms fails the slot with reason ALIGN. -/
  | bootAlignTimeout
  /-- WARM_RESET (R351). Assertion of yx_warm_n stops ports and scrubs the stores of zeroize. -/
  | warmReset
  /-- WARM_RESET_RELEASE (R351). Release of yx_warm_n boots from step 1 once the scrub has finished. -/
  | warmResetRelease
  /-- ZEROIZE (R305). An accepted zeroize stops all output and scrubs every store. -/
  | zeroize
  /-- ZEROIZE_SCRUB_DONE (R305). The zeroize scrub finishes and the engine is reset as at power-on. -/
  | zeroizeScrubDone
  /-- TEST_SCAN_EN_EDGE (R379). An edge of yx_ctl_test_scan_en acts as a warm reset with scrub. -/
  | testScanEnEdge (rising : Bool)
  /-- SEQ_FAULT (R342). An active sequencer fault is taken over by the standby or triggers a reload from NVM. -/
  | seqFault
  /-- STANDBY_LOAD_DONE (R339). A standby store load finishes its check and becomes READY or STAGED, is retried, or fails. -/
  | standbyLoadDone (ok : Bool)
  /-- NVM_RELOAD_DONE (R342). The reload of the faulted sequencer store from NVM finishes, or sets FATAL: the header and the
  SEQ_UCODE that the device gives. -/
  | nvmReloadDone (b : List Byte × List Byte)
  /-- REIMAGE_QUIESCE (R341). At the first cclk with no sequencer work, the standby takes over the staged microcode. -/
  | reimageQuiesce
  /-- REIMAGE_ACTIVATE_TIMEOUT (R341). TIMEOUT_MS passes before the boundary; the hold ends with ABORT_TIMEOUT. -/
  | reimageActivateTimeout
  /-- IDCODE (R375). TAP instruction IDCODE selects the IDCODE register. -/
  | idcode
  /-- SAMPLE_PRELOAD (R375). TAP instruction SAMPLE/PRELOAD selects the boundary register without affecting the ports; `b` is
  shifted in. -/
  | samplePreload (b : Boundary := .zero)
  /-- EXTEST (R375). TAP instruction EXTEST drives the wrapped outputs while TAP_OPEN = 1; `b` is shifted in. -/
  | extest (b : Boundary := .zero)
  /-- PRIV_SCAN (R375). TAP instruction PRIV_SCAN gives manufacturing scan access while TAP_OPEN = 1. -/
  | privScan
  /-- HRT_BIST (R130). TAP instruction HRT_BIST runs Hearth memory BIST while TAP_OPEN = 1 and reports pass or fail per bank. -/
  | hrtBist (pass : BitVec 8)
  /-- SRAM_BIST (R375). TAP instruction SRAM_BIST runs memory BIST of the other arrays while TAP_OPEN = 1. -/
  | sramBist (pass : Bool)
  /-- BYPASS (R375). TAP instruction BYPASS selects the 1-bit bypass register; `tdi` is shifted in. -/
  | bypass (tdi : Bool := false)
  /-- PICK_PORT_READ (R154). A pick-port read of a queue or barrier page returns the page, or is rejected, reads 0 and increments TNG_DB_REJECT and TNG_DB_LAST. -/
  | pickPortRead (addr : BitVec 17) (be : Byte) (rid : BitVec 16)
  /-- LANE_OCCUPANCY_WAKE (R354). With AUTO_ANVIL = 1, lane occupancy of the powered Anvil units above 75% over the last 1 µs makes Tongs request the wake of the lowest-numbered gated Anvil island. -/
  | laneOccupancyWake
  /-- TEST_LOGIC_RESET (R375). A test-logic reset of the TAP, by yx_ctl_tap_trst_n or TMS, selects IDCODE as the current instruction. -/
  | testLogicReset
deriving DecidableEq, Repr

end Sys2Proof
end

