-- ==== Sys2Proof/Config.lean ====
section
/-! DEFINITION. What an implementation fixes and the values the spec leaves open. Every constant here has no body, so no
proof can rest on a value of it (notes/assumptions/6.md). -/

namespace Sys2Proof

/-- The build number of the netlist, CTL_VERSION[7:0] (R390: "Build number, fixed in the netlist"). -/
opaque Config.build : Byte

/-- The steward's address-space ID on the memory and translation ports (R151, R368): the spec gives it no place. -/
opaque Config.stewardAsid : BitVec 16

/-- Which lane of the 3,072 computes an operation that raises a flag (R57 leaves the placement to Tongs): a fresh draw. -/
opaque Config.flagLane : Nat → BitVec 12

/-- The bytes of a beat that never comes, for what a kind that does not add takes from it (R185): a fresh draw. -/
opaque Config.freeByte : Nat → Byte

/-- The bit that the seal loop's generator drives in each period of 16 cclk (R380: "a pseudo-random bit from an internal generator", which the
spec does not give). -/
opaque Config.sealBit : Nat → Bool

/-- The 8 check bits of a Hearth word over its 66 data and tag bits (R111: a SECDED code, which the spec does not give). -/
opaque Config.checkBits : BitVec 66 → Byte

end Sys2Proof
end

