-- ==== Sys2Proof/Machine/Bits.lean ====
section
/-! DEFINITION. Bit fields, byte strings, check codes (R204, R324) and the profile digest (R276). -/

namespace Sys2Proof.Machine

/-- Bits [lo + w - 1 : lo] of a word, as a number. -/
def fieldN {n : Nat} (x : BitVec n) (lo w : Nat) : Nat := x.toNat / 2 ^ lo % 2 ^ w

/-- Bits [lo + w - 1 : lo] of a word, as a word of `w` bits. -/
def field {n : Nat} (x : BitVec n) (lo w : Nat) : BitVec w := x.extractLsb' lo w

/-- Bit `k` of a word. -/
def bit {n : Nat} (x : BitVec n) (k : Nat) : Bool := x.getLsbD k

/-- 1 or 0. -/
def b2n (b : Bool) : Nat := if b then 1 else 0

/-- A word of `n` bits assembled from fields (value, lowest bit); fields are given so that they do not overlap. -/
def assemble (n : Nat) (fs : List (Nat × Nat)) : BitVec n :=
  BitVec.ofNat n (fs.foldl (fun a f => a + f.1 * 2 ^ f.2) 0)

/-- Byte `k` of a word, byte 0 in the low bits (little-endian, R96). -/
def byteAt {n : Nat} (x : BitVec n) (k : Nat) : Byte := field x (8 * k) 8

/-- The `k` bytes of a word, lowest first. -/
def toBytes {n : Nat} (x : BitVec n) (k : Nat) : List Byte := (List.range k).map (byteAt x)

/-- The number that little-endian bytes spell. -/
def leNat : List Byte → Nat
  | [] => 0
  | b :: t => b.toNat + 256 * leNat t

/-- The word of `n` bits that little-endian bytes spell. -/
def leWord (n : Nat) (bs : List Byte) : BitVec n := BitVec.ofNat n (leNat bs)

/-- `len` bytes from offset `off`; bytes beyond the end read as 0. -/
def slice (bs : List Byte) (off len : Nat) : List Byte :=
  let t := (bs.drop off).take len
  t ++ List.replicate (len - t.length) 0

/-- The little-endian number of `len` bytes at offset `off`. -/
def leAt (bs : List Byte) (off len : Nat) : Nat := leNat (slice bs off len)

/-- The bytes of `v` as `k` little-endian bytes. -/
def natBytes (v k : Nat) : List Byte := (List.range k).map fun i => BitVec.ofNat 8 (v / 256 ^ i)

/-- A 64-byte payload from bytes; missing bytes are 0 (R96). -/
def payloadOf (bs : List Byte) : Payload := leWord 512 (bs.take 64)

/-- A payload with little-endian values placed at byte offsets (value, offset). -/
def payloadAt (fs : List (Nat × Nat)) : Payload :=
  BitVec.ofNat 512 (fs.foldl (fun a f => a + f.1 * 256 ^ f.2) 0)

/-- Bytes [off, off + len) of a payload, as a number. -/
def pAt (d : Payload) (off len : Nat) : Nat := d.toNat / 256 ^ off % 256 ^ len

/-- Add to a counter of `w` bits that saturates at its maximum (R386). -/
def satAdd {w : Nat} (c : BitVec w) (k : Nat) : BitVec w :=
  BitVec.ofNat w (min (c.toNat + k) (2 ^ w - 1))

/-- Count one event on a saturating counter (R386). -/
def satInc {w : Nat} (c : BitVec w) : BitVec w := satAdd c 1

/-- A function of a number, applied once the number has been computed. -/
def strictly {α : Type} (n : Nat) (k : Nat → α) : α :=
  match n with
  | 0 => k 0
  | n + 1 => k (n + 1)

/-- A check code taken over a byte string, a byte at a time. -/
def crcOver (step : Nat → Byte → Nat) : Nat → List Byte → Nat
  | c, [] => c
  | c, b :: bs => strictly (step c b) fun c => crcOver step c bs

/-- One bit of CRC-24 with polynomial 0x864CFB (R204). -/
def crc24Bit (c : Nat) : Nat :=
  let d := c * 2
  if d ≥ 2 ^ 24 then (d % 2 ^ 24).xor 0x864CFB else d

/-- CRC-24 over a byte, most significant bit first. -/
def crc24Byte (c : Nat) (b : Byte) : Nat :=
  let x := c.xor (b.toNat * 2 ^ 16)
  crc24Bit (crc24Bit (crc24Bit (crc24Bit (crc24Bit (crc24Bit (crc24Bit (crc24Bit x)))))))

/-- CRC-24 of a byte string, initial value 0xB704CE, no final inversion (R204). -/
def crc24 (bs : List Byte) : BitVec 24 := BitVec.ofNat 24 (crcOver crc24Byte 0xB704CE bs)

/-- One bit of the reflected CRC-32 of IEEE 802.3 (R324). -/
def crc32Bit (c : Nat) : Nat := if c % 2 = 1 then (c / 2).xor 0xEDB88320 else c / 2

/-- CRC-32 over a byte. -/
def crc32Byte (c : Nat) (b : Byte) : Nat :=
  crc32Bit (crc32Bit (crc32Bit (crc32Bit (crc32Bit (crc32Bit (crc32Bit (crc32Bit (c.xor b.toNat))))))))

/-- CRC-32 of a byte string, initial value 0xFFFFFFFF, final inversion (R324). -/
def crc32 (bs : List Byte) : W32 :=
  BitVec.ofNat 32 ((crcOver crc32Byte 0xFFFFFFFF bs).xor 0xFFFFFFFF)

/-- One word of profile_digest (R276). -/
def digestStep (h : W64) (w : W32) : W64 :=
  let h := h ^^^ w.setWidth 64
  let h := h * 0xD1B54A32D192ED03
  h ^^^ (h >>> 32)

/-- profile_digest (R276). -/
def profileDigest (ws : List W32) : W64 := ws.foldl digestStep 0x6A3DE57192C40B8F

/-- Clear the bits that `m` has set. -/
def clearBits {w : Nat} (x m : BitVec w) : BitVec w := x &&& ~~~m

/-- Set or clear bit `k`. -/
def putBit {w : Nat} (x : BitVec w) (k : Nat) (b : Bool) : BitVec w :=
  if b then x ||| BitVec.ofNat w (2 ^ k) else clearBits x (BitVec.ofNat w (2 ^ k))

/-- The positions of the set bits of a word, ascending. -/
def setBits {w : Nat} (x : BitVec w) : List Nat := (List.range w).filter (bit x)

/-- How many bits of a word are set. -/
def popcount {w : Nat} (x : BitVec w) : Nat := (setBits x).length

/-- Round up to a multiple of `m`. -/
def roundUp (n m : Nat) : Nat := (n + m - 1) / m * m

/-- Ceiling of a quotient. -/
def ceilDiv (n m : Nat) : Nat := (n + m - 1) / m

end Sys2Proof.Machine
end

