-- ==== Sys2Proof/Machine/Flags.lean ====
section
/-! DEFINITION. The arithmetic flags of R81: how operations of Anvil and of the converters raise them. -/

namespace Sys2Proof.Machine

/-- The four arithmetic flags (R81): INVALID, OVERFLOW, INEXACT, SATURATED. -/
structure Flags where
  invalid   : Bool := false
  overflow  : Bool := false
  inexact   : Bool := false
  saturated : Bool := false
deriving DecidableEq, Repr

/-- No flag raised. -/
def Flags.none : Flags := {}

/-- The flags raised by either of two operations (R82: flags are ORed). -/
def Flags.or (a b : Flags) : Flags :=
  { invalid := a.invalid || b.invalid, overflow := a.overflow || b.overflow,
    inexact := a.inexact || b.inexact, saturated := a.saturated || b.saturated }

/-- INVALID alone, if `c`. -/
def Flags.inv (c : Bool) : Flags := { invalid := c }

/-- INEXACT alone, if `c`. -/
def Flags.inex (c : Bool) : Flags := { inexact := c }

/-- An overflow to infinity (R69, R102). -/
def Flags.ovf : Flags := { overflow := true, inexact := true }

/-- A saturated conversion (R102). -/
def Flags.sat : Flags := { saturated := true, inexact := true }

/-- Bits 3 to 0 of a FLAGS byte, bit n being code n (R81, R176). -/
def Flags.toBits (f : Flags) : BitVec 4 :=
  BitVec.ofBool f.saturated ++ BitVec.ofBool f.inexact ++ BitVec.ofBool f.overflow ++ BitVec.ofBool f.invalid

end Sys2Proof.Machine
end

