-- ==== Sys2Proof/Machine/Arith.lean ====
section
/-! DEFINITION. Anvil arithmetic (03): the running FP32 sum with its rounding modes (R67 to R71), Sparks (R72 to R74),
maximum and minimum (R75), exact accumulation (R76 to R80), the merges' multiply-add, exp and division (R140 to R142,
R145). Every function answers a value and the flags it raises (R81). -/

namespace Sys2Proof.Machine

/-- Rounding modes (R67). -/
inductive Rnd where
  | rne | rtz | sr
deriving DecidableEq, Repr

/-- Reduction operations (R22). -/
inductive Op where
  | sum | max | min
deriving DecidableEq, Repr

def nanW : W32 := 0x7FC00000
def posInf : W32 := 0x7F800000
def negInf : W32 := 0xFF800000
def negZero : W32 := 0x80000000

/-- The exponent field of an FP32 encoding. -/
def expOf (x : W32) : Nat := fieldN x 23 8
/-- The fraction field of an FP32 encoding. -/
def fracOf (x : W32) : Nat := fieldN x 0 23
/-- The sign bit of an FP32 encoding. -/
def signOf (x : W32) : Bool := bit x 31

def isNan (x : W32) : Bool := expOf x = 255 && fracOf x ≠ 0
/-- A signalling NaN: fraction bit 22 clear (R70). -/
def isSnan (x : W32) : Bool := isNan x && !bit x 22
def isInf (x : W32) : Bool := expOf x = 255 && fracOf x = 0
def isZero (x : W32) : Bool := x &&& 0x7FFFFFFF = 0
/-- Flip the sign bit. -/
def negW (x : W32) : W32 := x ^^^ negZero

/-- The magnitude of a finite FP32 value in units of 2^-149 (R68). -/
def magOf (x : W32) : Nat :=
  if expOf x = 0 then fracOf x else (2 ^ 23 + fracOf x) * 2 ^ (expOf x - 1)

/-- The value of a finite FP32 encoding in units of 2^-149 (`fixed`, R68). -/
def fixed (x : W32) : Int := if signOf x then -(magOf x : Int) else magOf x

/-- The sign bit in place. -/
def signBit (neg : Bool) : W32 := if neg then negZero else 0

/-- The largest finite FP32 value plus half its ulp, in units of 2^-149 (R68). -/
def fp32Threshold : Nat := (2 ^ 25 - 1) * 2 ^ 252

/-- The rounding decision shared by every rounding (R68, R74): whether the kept part is increased. `sh` > 0. -/
def roundUpBit (q rem sh : Nat) (mode : Rnd) (u : BitVec 16) : Bool :=
  match mode with
  | .rne => let half := 2 ^ (sh - 1); rem > half || (rem = half && q % 2 = 1)
  | .rtz => false
  | .sr =>
    let r16 := if sh ≥ 16 then rem / 2 ^ (sh - 16) else rem * 2 ^ (16 - sh)
    r16 + u.toNat ≥ 0x10000

/-- round_fp32 (R68): `mag` > 0 in units of 2^-149. -/
def roundFp32 (neg : Bool) (mag : Nat) (mode : Rnd) (u : BitVec 16) : W32 × Flags :=
  if mag ≥ fp32Threshold then (signBit neg ||| posInf, Flags.ovf)
  else
    let m := mag.log2
    if m ≤ 23 then (signBit neg ||| BitVec.ofNat 32 mag, {})
    else
      let sh := m - 23
      let q := mag / 2 ^ sh
      let rem := mag % 2 ^ sh
      let q' := if roundUpBit q rem sh mode u then q + 1 else q
      let (q'', sh') := if q' = 2 ^ 24 then (2 ^ 23, sh + 1) else (q', sh)
      let e := sh' + 1
      if e ≥ 255 then (signBit neg ||| posInf, Flags.ovf)
      else (signBit neg ||| BitVec.ofNat 32 (e * 2 ^ 23 + (q'' - 2 ^ 23)), Flags.inex (rem ≠ 0))

/-- Round a signed exact value in units of 2^-149; zero gives `z`. -/
def roundInt (s : Int) (z : W32) (mode : Rnd) (u : BitVec 16) : W32 × Flags :=
  if s = 0 then (z, {}) else roundFp32 (s < 0) s.natAbs mode u

/-- anvil_add (R68 to R70). -/
def anvilAdd (a b : W32) (mode : Rnd) (u : BitVec 16) : W32 × Flags :=
  let snan := isSnan a || isSnan b
  if isNan a || isNan b then (nanW, Flags.inv snan)
  else if isInf a && isInf b && a ^^^ b = negZero then (nanW, Flags.inv true)
  else if isInf a then (a, {})
  else if isInf b then (b, {})
  else roundInt (fixed a + fixed b) (if a = negZero && b = negZero then negZero else 0) mode u

/-! ### Sparks -/

def sparksRound (h w k : W64) (sh : Nat) : W64 :=
  let h := (h ^^^ w) * k
  h ^^^ (h >>> sh)

/-- Sparks (R72): 16 bits from seed, element, tree-node index and step. -/
def sparks (seed : W64) (elem node : W32) (j : BitVec 5) : BitVec 16 :=
  let s := seed ^^^ (j.setWidth 64 <<< 59)
  let h0 : W64 := 0x4D19C7E02B86F35A
  let h1 := sparksRound h0 (s &&& 0xFFFFFFFF) 0x9C5D27F3B84E61A5 31
  let h2 := sparksRound h1 (s >>> 32) 0xE3A16C0B47D9F215 29
  let h3 := sparksRound h2 (elem.setWidth 64) 0x5B2FD8E493C70A6D 32
  let h4 := sparksRound h3 (node.setWidth 64) 0xA7C41F5E6B38D29B 27
  (h4 >>> 48).setWidth 16

/-! ### Maximum and minimum -/

/-- A total key for non-NaN values: the order of R75, -0 below +0. -/
def orderKey (x : W32) : Int := if signOf x then -(((x &&& 0x7FFFFFFF).toNat : Int)) - 1 else x.toNat

/-- OP = MAX (R75). -/
def anvilMax (a b : W32) : W32 × Flags :=
  if isNan a || isNan b then (nanW, Flags.inv (isSnan a || isSnan b))
  else (if orderKey a < orderKey b then b else a, {})

/-- OP = MIN (R75). -/
def anvilMin (a b : W32) : W32 × Flags :=
  if isNan a || isNan b then (nanW, Flags.inv (isSnan a || isSnan b))
  else (if orderKey b < orderKey a then b else a, {})

/-- One step of the running value (R60). -/
def anvilOp (op : Op) (a b : W32) (mode : Rnd) (u : BitVec 16) : W32 × Flags :=
  match op with
  | .sum => anvilAdd a b mode u
  | .max => anvilMax a b
  | .min => anvilMin a b

/-- The neutral value of OP with which START = ZERO begins (R118). -/
def neutral (op : Op) : W32 :=
  match op with
  | .sum => 0
  | .max => negInf
  | .min => posInf

/-! ### Assay accumulation -/

/-- Status of an assay accumulator (ST of R76). -/
inductive ASt where
  | finite | pinf | ninf | nan
deriving DecidableEq, Repr

def ASt.code : ASt → Nat
  | .finite => 0 | .pinf => 1 | .ninf => 2 | .nan => 3

def ASt.ofCode (n : Nat) : ASt := if n = 0 then .finite else if n = 1 then .pinf else if n = 2 then .ninf else .nan

/-- An assay accumulator (R76): ACC in units of 2^-149, ST and NEGZ. -/
structure Assay where
  acc  : Int
  st   : ASt
  negz : Bool
deriving DecidableEq, Repr

/-- join (R77): a finite status changes nothing; different statuses give NaN. -/
def ASt.join (st v : ASt) : ASt :=
  match st, v with
  | s, .finite => s
  | .finite, v => v
  | .pinf, .pinf => .pinf
  | .ninf, .ninf => .ninf
  | _, _ => .nan

/-- One operand of an assay lane (R58, R77): an FP32 value, or an exact value in units of 2^-149. -/
inductive AOp where
  | fp (x : W32)
  | exact (v : Int)
deriving DecidableEq, Repr

/-- The exact value an operand adds to ACC. -/
def AOp.value : AOp → Int
  | .fp x => if expOf x = 255 then 0 else fixed x
  | .exact v => v

/-- The status an operand joins into ST. -/
def AOp.status : AOp → ASt
  | .fp x => if isNan x then .nan else if x = posInf then .pinf else if x = negInf then .ninf else .finite
  | .exact _ => .finite

/-- Whether an operand is -0. -/
def AOp.isNegz : AOp → Bool
  | .fp x => x = negZero
  | .exact _ => false

/-- An operand as an accumulator of its own: what assay_merge adds. -/
def AOp.toAssay (o : AOp) : Assay := { acc := o.value, st := o.status, negz := o.isNegz }

/-- assay_merge (R77). -/
def Assay.merge (a p : Assay) : Assay :=
  { acc := a.acc + p.acc, st := a.st.join p.st, negz := a.negz && p.negz }

/-- assay_apply (R77): one operand is merged as the accumulator it stands for. -/
def Assay.apply (a : Assay) (o : AOp) : Assay := a.merge o.toAssay

/-- The start of an element at a node without a start value (R76). -/
def Assay.start : Assay := { acc := 0, st := .finite, negz := true }

/-- ACC holds 320 bits, two's complement. -/
def assayInRange (v : Int) : Bool := -(2 ^ 319 : Int) ≤ v && v < 2 ^ 319

/-- Wrap to 320 bits, two's complement. -/
def assayWrap (v : Int) : Int := (v + 2 ^ 319) % 2 ^ 320 - 2 ^ 319

/-- A merge with the range check of R78: signed overflow makes ST NaN and raises OVERFLOW. -/
def Assay.mergeF (a p : Assay) : Assay × Flags :=
  let r := a.merge p
  if assayInRange r.acc then (r, {})
  else ({ r with acc := assayWrap r.acc, st := .nan }, { overflow := true })

/-- assay_drain (R79), with the flags of the one rounding. -/
def Assay.drain (a : Assay) (mode : Rnd) : W32 × Flags :=
  match a.st with
  | .nan => (nanW, {})
  | .pinf => (posInf, {})
  | .ninf => (negInf, {})
  | .finite => roundInt a.acc (signBit a.negz) mode 0

/-- assay_drain_pair (R80): hi and lo, and the flags of the pair as a whole. -/
def Assay.drainPair (a : Assay) (mode : Rnd) : (W32 × W32) × Flags :=
  let (hi, fh) := a.drain mode
  if isNan hi then ((hi, nanW), {})
  else if isInf hi then ((hi, 0), if a.st = .finite then fh else {})
  else
    let (lo, fl) := Assay.drain { acc := a.acc - fixed hi, st := .finite, negz := false } mode
    ((hi, lo), fl)

/-- The 48 bytes of an assay element (R76). -/
def Assay.toBytes (a : Assay) : List Byte :=
  natBytes ((a.acc % 2 ^ 320).toNat + a.st.code * 2 ^ 320 + b2n a.negz * 2 ^ 322) 48

/-- Read the 48 bytes of an assay element (R76). -/
def Assay.ofBytes (bs : List Byte) : Assay :=
  let n := leAt bs 0 48
  let v : Int := (n % 2 ^ 320 : Nat)
  { acc := if v ≥ 2 ^ 319 then v - 2 ^ 320 else v, st := ASt.ofCode (n / 2 ^ 320 % 4), negz := n / 2 ^ 322 % 2 = 1 }

/-! ### Multiply-add, exp and division of the merges -/

/-- Round an exact magnitude `mag × 2^lsb` (mag > 0) to FP32 under RNE: round_narrow with the FP32 constants of 06. -/
def roundFp32At (neg : Bool) (mag : Nat) (lsb : Int) : W32 × Flags :=
  -- exact comparison with the threshold 2^128 - 2^103
  let tooBig : Bool :=
    if lsb ≥ -149 then mag * 2 ^ (lsb + 149).toNat ≥ fp32Threshold
    else mag ≥ fp32Threshold * 2 ^ (-149 - lsb).toNat
  if tooBig then (signBit neg ||| posInf, Flags.ovf)
  else
    let m := mag.log2
    let ue : Int := max ((m : Int) + lsb - 23) (-149)
    let sh := ue - lsb
    let (q, rem) := if sh ≤ 0 then (mag * 2 ^ (-sh).toNat, 0) else (mag / 2 ^ sh.toNat, mag % 2 ^ sh.toNat)
    let q := if sh > 0 && roundUpBit q rem sh.toNat .rne 0 then q + 1 else q
    let v := q * 2 ^ (ue + 149).toNat
    if v = 0 then (signBit neg, Flags.inex (rem ≠ 0))
    else
      let (w, f) := roundFp32 neg v .rtz 0
      (w, f.or (Flags.inex (rem ≠ 0)))

/-- anvil_fma (R140). -/
def anvilFma (x y z : W32) : W32 × Flags :=
  let pneg := signOf x != signOf y
  let snan := isSnan x || isSnan y || isSnan z
  if isNan x || isNan y || isNan z then (nanW, Flags.inv snan)
  else if (isInf x && isZero y) || (isZero x && isInf y) then (nanW, Flags.inv true)
  else if isInf x || isInf y then
    if isInf z && signOf z != pneg then (nanW, Flags.inv true) else (signBit pneg ||| posInf, {})
  else if isInf z then (z, {})
  else
    let s := fixed x * fixed y + fixed z * 2 ^ 149
    if s = 0 then
      if (isZero x || isZero y) && pneg && z = negZero then (negZero, {}) else (0, {})
    else roundFp32At (s < 0) s.natAbs (-298)

/-- anvil_mul (R140). -/
def anvilMul (x y : W32) : W32 × Flags := anvilFma x y negZero

/-- Integer nearest to 2^64 log2(e) (R141). -/
def l2e : Int := 0x171547652B82FE177
/-- Integer nearest to 2^64 ln 2 (R141). -/
def ln2c : Int := 0xB17217F7D1CF79AC

/-- Integer nearest to 2^62 × 2^(j/64): the largest v whose 64th power of v - 1/2 does not exceed 2^(62·64 + j), found
bit by bit from the top (R141 makes the definition normative). -/
def expTblGo (j : Nat) : Nat → Nat → Nat
  | 0, v => v
  | k + 1, v =>
    let w := v + 2 ^ k
    expTblGo j k (if (2 * w - 1) ^ 64 ≤ 2 ^ (63 * 64 + j) then w else v)

/-- tbl[j] of R141. -/
def expTbl (j : Nat) : Nat := expTblGo j 63 0

/-- anvil_exp (R141, R142). -/
def anvilExp (x : W32) : W32 × Flags :=
  if isNan x then (nanW, Flags.inv (isSnan x))
  else if x = posInf then (posInf, {})
  else if x = negInf then (0, {})
  else
    let cap : Int := 160 * 2 ^ 149
    let xx := max (min (fixed x) cap) (-cap)
    let n := (xx * l2e * 64 + 2 ^ 212) / 2 ^ 213
    let k := n / 64
    let j := (n % 64).toNat
    let r := (xx * 2 ^ 64 - (n * ln2c) * 2 ^ 143) / 2 ^ 151
    let r2 := (r * r) / 2 ^ 62
    let r3 := (r2 * r) / 2 ^ 62
    let q := 2 ^ 62 + r + r2 / 2 + r3 / 6
    let p := (expTbl j : Int) * q
    let (w, f) := roundFp32At false p.toNat (k - 124)
    (w, if fixed x = 0 then {} else f.or (Flags.inex true))

/-- Division of the normalisation (R145): the exact quotient rounded once under RNE. -/
def anvilDiv (x y : W32) : W32 × Flags :=
  let neg := signOf x != signOf y
  if isNan x || isNan y then (nanW, Flags.inv (isSnan x || isSnan y))
  else if (isZero x && isZero y) || (isInf x && isInf y) then (nanW, Flags.inv true)
  else if isInf x then (signBit neg ||| posInf, {})
  else if isInf y || isZero x then (signBit neg, {})
  else if isZero y then (signBit neg ||| posInf, { overflow := true })
  else
    -- 2^330 guard bits and a sticky bit keep the rounding exact
    let a := magOf x * 2 ^ 330
    let q := a / magOf y
    let st := if a % magOf y = 0 then 0 else 1
    roundFp32At neg (2 * q + st) (-331)

end Sys2Proof.Machine
end

