-- ==== Sys2Proof/Machine/Formats.lean ====
section
/-! DEFINITION. Number formats and conversion on the wire (04): format codes (R88), encodings (R89 to R91), shared
scales (R100), rounding into narrow formats (R101 to R103), expansion (R105), INT4 expansion (R107 to R109). -/

namespace Sys2Proof.Machine

/-- Format codes (R88). -/
inductive Fmt where
  | fp32 | bf16 | fp16 | pair32 | int32
  | e4m3 | e5m2 | e3m2 | e2m3 | e2m1 | mxint8
  | int4tbl | int4szp
deriving DecidableEq, Repr

/-- The format of a 4-bit code; codes 0x5 to 0x7 are reserved (R88). -/
def Fmt.ofCode (n : Nat) : Option Fmt :=
  match n with
  | 0 => some .fp32 | 1 => some .bf16 | 2 => some .fp16 | 3 => some .pair32 | 4 => some .int32
  | 8 => some .e4m3 | 9 => some .e5m2 | 10 => some .e3m2 | 11 => some .e2m3 | 12 => some .e2m1
  | 13 => some .mxint8 | 14 => some .int4tbl | 15 => some .int4szp
  | _ => none

def Fmt.code : Fmt → Nat
  | .fp32 => 0 | .bf16 => 1 | .fp16 => 2 | .pair32 => 3 | .int32 => 4
  | .e4m3 => 8 | .e5m2 => 9 | .e3m2 => 10 | .e2m3 => 11 | .e2m1 => 12
  | .mxint8 => 13 | .int4tbl => 14 | .int4szp => 15

/-- The MX formats: codes 0x8 to 0xD (R88). -/
def Fmt.isMx (f : Fmt) : Bool := 8 ≤ f.code && f.code ≤ 13
/-- The INT4 formats. -/
def Fmt.isInt4 (f : Fmt) : Bool := f.code ≥ 14
/-- Formats carried as a packed byte stream (R96). -/
def Fmt.isPacked (f : Fmt) : Bool := f.code ≥ 8

/-- Bits of one element (R88). -/
def Fmt.bits : Fmt → Nat
  | .fp32 => 32 | .bf16 => 16 | .fp16 => 16 | .pair32 => 64 | .int32 => 32
  | .e4m3 => 8 | .e5m2 => 8 | .e3m2 => 6 | .e2m3 => 6 | .e2m1 => 4 | .mxint8 => 8
  | .int4tbl => 4 | .int4szp => 4

/-- Bytes of one element of an unpacked format. -/
def Fmt.bytes (f : Fmt) : Nat := f.bits / 8

/-- The alignment that R182 asks of bases and strides: the element size, 4 for PAIR32. -/
def Fmt.align : Fmt → Nat
  | .pair32 => 4
  | f => if f.isPacked then 1 else f.bytes

/-- Formats that may carry contributions of adding heats (R18). -/
def Fmt.addable (f : Fmt) : Bool :=
  match f with
  | .fp32 | .bf16 | .fp16 | .pair32 | .int32 | .e4m3 | .e5m2 | .mxint8 => true
  | _ => false

/-- FP32, BF16, FP16, PAIR32, INT32 (R93). -/
def Fmt.plain (f : Fmt) : Bool := f.code ≤ 4

/-- Overflow modes (R102). -/
inductive Ovf where
  | sat | ieee
deriving DecidableEq, Repr

/-- Bytes of `k` elements in a packed or unpacked format with block size `n` (R96, R99, R107). -/
def Fmt.size (f : Fmt) (n k : Nat) : Nat :=
  if f.isMx then k / n * (1 + n * f.bits / 8) else if f.isInt4 then k / 2 else k * f.bytes

/-- Bytes that hold the first `k` elements of a stream, a last packed unit in part (R40, R96). -/
def Fmt.sizeUp (f : Fmt) (n k : Nat) : Nat :=
  if f.isMx then k / n * (1 + n * f.bits / 8) + (if k % n = 0 then 0 else 1 + ceilDiv (k % n * f.bits) 8)
  else if f.isInt4 then ceilDiv k 2 else k * f.bytes

/-! ### Parameters of R89, R90, R101 -/

/-- Fraction bits. -/
def Fmt.mb : Fmt → Nat
  | .fp32 => 23 | .bf16 => 7 | .fp16 => 10 | .e4m3 => 3 | .e5m2 => 2 | .e3m2 => 2 | .e2m3 => 3 | .e2m1 => 1
  | .mxint8 => 7 | .int32 => 31 | _ => 23

/-- Exponent bits. -/
def Fmt.eb : Fmt → Nat
  | .fp32 => 8 | .bf16 => 8 | .fp16 => 5 | .e4m3 => 4 | .e5m2 => 5 | .e3m2 => 3 | .e2m3 => 2 | .e2m1 => 2
  | _ => 0

/-- The exponent of the smallest subnormal, 1 - bias - mb (R101). -/
def Fmt.qe : Fmt → Int
  | .fp32 => -149 | .bf16 => -133 | .fp16 => -24 | .e4m3 => -9 | .e5m2 => -16 | .e3m2 => -4 | .e2m3 => -3
  | .e2m1 => -1 | .mxint8 => -6 | .int32 => 0 | _ => -149

/-- The overflow threshold in units of 2^(qe-1) (R89, R90). -/
def Fmt.ovt2 (f : Fmt) (neg : Bool) : Nat :=
  match f with
  | .bf16 => (2 ^ 128 - 2 ^ 119) * 2 ^ 134
  | .fp16 => 65520 * 2 ^ 25
  | .e4m3 => 464 * 2 ^ 10
  | .e5m2 => 61440 * 2 ^ 17
  | .e3m2 => 30 * 2 ^ 5
  | .e2m3 => 124
  | .e2m1 => 28
  | .mxint8 => 255
  | .int32 => if neg then 2 ^ 32 + 1 else 2 ^ 32 - 1
  | _ => (2 ^ 128 - 2 ^ 103) * 2 ^ 150

/-- The largest finite magnitude in units of 2^qe (R89, R101). -/
def Fmt.maxv (f : Fmt) (neg : Bool) : Nat :=
  match f with
  | .bf16 => 255 * 2 ^ 253
  | .fp16 => 65504 * 2 ^ 24
  | .e4m3 => 448 * 2 ^ 9
  | .e5m2 => 57344 * 2 ^ 16
  | .e3m2 => 28 * 2 ^ 4
  | .e2m3 => 60
  | .e2m1 => 12
  | .mxint8 => 127
  | .int32 => if neg then 2 ^ 31 else 2 ^ 31 - 1
  | _ => (2 ^ 24 - 1) * 2 ^ 253

/-- emax of the scale rule (R89, R90). -/
def Fmt.emax : Fmt → Int
  | .fp32 => 127 | .e4m3 => 8 | .e5m2 => 15 | .e3m2 => 4 | .e2m3 => 2 | .e2m1 => 2 | _ => 0

/-- encode (R101): the code of magnitude `v` in units of 2^qe. -/
def Fmt.encode (f : Fmt) (neg : Bool) (v : Nat) : Nat :=
  if f = .mxint8 || f = .int32 then (if neg then (2 ^ f.bits - v) % 2 ^ f.bits else v)
  else
    let s := b2n neg * 2 ^ (f.eb + f.mb)
    if v < 2 ^ f.mb then s + v
    else
      let e := v.log2 - f.mb + 1
      s + e * 2 ^ f.mb + (v / 2 ^ (e - 1) - 2 ^ f.mb)

/-- The largest finite code with its sign. -/
def Fmt.largest (f : Fmt) (neg : Bool) : Nat := f.encode neg (f.maxv neg)

/-- overflow_code (R102). -/
def Fmt.overflowCode (f : Fmt) (neg : Bool) (ovf : Ovf) : Nat × Flags :=
  match f, ovf with
  | .fp32, _ => (b2n neg * 2 ^ 31 + 0x7F800000, Flags.ovf)
  | .bf16, .ieee => (b2n neg * 2 ^ 15 + 0x7F80, Flags.ovf)
  | .fp16, .ieee => (b2n neg * 2 ^ 15 + 0x7C00, Flags.ovf)
  | .e5m2, .ieee => (b2n neg * 2 ^ 7 + 0x7C, Flags.ovf)
  | .e4m3, .ieee => (0x7F, Flags.ovf.or (Flags.inv true))
  | g, _ => (g.largest neg, Flags.sat)

/-- round_narrow (R101): `mag` > 0, the exact value is mag × 2^lsb. -/
def roundNarrow (f : Fmt) (neg : Bool) (mag : Nat) (lsb : Int) (mode : Rnd) (ovf : Ovf) (u : BitVec 16) :
    Nat × Flags :=
  if mag * 2 ^ (lsb - f.qe + 1).toNat ≥ f.ovt2 neg * 2 ^ (f.qe - 1 - lsb).toNat then f.overflowCode neg ovf
  else
    let ue : Int := if f = .mxint8 || f = .int32 then f.qe else max ((mag.log2 : Int) + lsb - f.mb) f.qe
    let sh := ue - lsb
    let rem := if sh ≤ 0 then 0 else mag % 2 ^ sh.toNat
    let q := if sh ≤ 0 then mag * 2 ^ (-sh).toNat
      else mag / 2 ^ sh.toNat + b2n (roundUpBit (mag / 2 ^ sh.toNat) rem sh.toNat mode u)
    let v := q * 2 ^ (ue - f.qe).toNat
    if v > f.maxv neg then f.overflowCode neg ovf else (f.encode neg v, Flags.inex (rem ≠ 0))

/-- Convert an FP32 value into BF16, FP16, INT32 or an MX element with scale code `s` (0x7F for no scale): R101 to R103
for one element. -/
def narrowElem (f : Fmt) (s : Nat) (x : W32) (mode : Rnd) (ovf : Ovf) (u : BitVec 16) : Nat × Flags :=
  let neg := signOf x
  if isNan x then
    match f with
    | .bf16 => (0x7FC0, Flags.inv (isSnan x))
    | .fp16 => (0x7E00, Flags.inv (isSnan x))
    | .int32 => (0, Flags.inv true)
    | _ => (0, Flags.inv (isSnan x))
  else if isInf x then
    match f, ovf with
    | .bf16, _ => (b2n neg * 2 ^ 15 + 0x7F80, {})
    | .fp16, _ => (b2n neg * 2 ^ 15 + 0x7C00, {})
    | .e5m2, _ => (b2n neg * 2 ^ 7 + 0x7C, {})
    | .e4m3, .ieee => (0x7F, Flags.inv true)
    | g, _ => (g.largest neg, Flags.sat)
  else if isZero x then
    (if f = .mxint8 || f = .int32 then 0 else b2n neg * 2 ^ (f.eb + f.mb), {})
  else roundNarrow f neg (magOf x) (-149 - ((s : Int) - 127)) mode ovf u

/-- Canonical NaN of FP32 on conversion into its own format (R94, R103). -/
def canonFp32 (x : W32) : W32 × Flags := if isNan x then (nanW, Flags.inv (isSnan x)) else (x, {})

def isNan16 (f : Fmt) (c : Nat) : Bool :=
  if f = .bf16 then c / 2 ^ 7 % 2 ^ 8 = 255 && c % 2 ^ 7 ≠ 0 else c / 2 ^ 10 % 2 ^ 5 = 31 && c % 2 ^ 10 ≠ 0

def isSnan16 (f : Fmt) (c : Nat) : Bool :=
  isNan16 f c && (if f = .bf16 then c / 2 ^ 6 % 2 = 0 else c / 2 ^ 9 % 2 = 0)

/-- The exact value mag × 2^qe of a finite code of a floating format, and its sign (R89). -/
def Fmt.decode (f : Fmt) (c : Nat) : Bool × Nat :=
  if f = .mxint8 then
    if c ≥ 128 then (true, 256 - c) else (false, c)
  else
    let e := c / 2 ^ f.mb % 2 ^ f.eb
    let fr := c % 2 ^ f.mb
    (c / 2 ^ (f.mb + f.eb) % 2 = 1, if e = 0 then fr else (2 ^ f.mb + fr) * 2 ^ (e - 1))

/-- Expand one 16-bit code to FP32 (R105). -/
def expand16 (f : Fmt) (c : Nat) : W32 × Flags :=
  if isNan16 f c then (nanW, Flags.inv (isSnan16 f c))
  else if f = .bf16 then (BitVec.ofNat 32 (c * 2 ^ 16), {})
  else if c / 2 ^ 10 % 2 ^ 5 = 31 then (signBit (c ≥ 2 ^ 15) ||| posInf, {})
  else
    let (neg, m) := Fmt.decode .fp16 c
    if m = 0 then (signBit neg, {}) else roundFp32At neg m (-24)

/-- Whether a code of an MX element format is NaN (R89). -/
def mxNan (f : Fmt) (c : Nat) : Bool :=
  match f with
  | .e4m3 => c % 128 = 0x7F
  | .e5m2 => c / 4 % 32 = 31 && c % 4 ≠ 0
  | _ => false

/-- Expand one MX element with scale code `s` to FP32 (R58, R105). -/
def expandMx (f : Fmt) (s c : Nat) : W32 × Flags :=
  if s = 0xFF || mxNan f c then (nanW, {})
  else if f = .e5m2 && c / 4 % 32 = 31 then (signBit (c ≥ 128) ||| posInf, {})
  else
    let (neg, m) := f.decode c
    if m = 0 then (if f = .mxint8 then 0 else signBit neg, {}) else roundFp32At neg m (f.qe + ((s : Int) - 127))

/-- The signed value of an INT32 code. -/
def int32Val (c : Nat) : Int := (BitVec.ofNat 32 c).toInt

/-- INT32 to FP32, always under RNE (R58, R95). -/
def int32ToFp (v : Int) : W32 × Flags := if v = 0 then (0, {}) else roundFp32At (v < 0) v.natAbs 0

/-- Expand an unpacked element to FP32 (R105); PAIR32 gives hi here (its users treat lo apart). -/
def expandPlain (f : Fmt) (c : Nat) : W32 × Flags :=
  match f with
  | .bf16 => expand16 .bf16 c
  | .fp16 => expand16 .fp16 c
  | .int32 => int32ToFp (int32Val c)
  | _ => (BitVec.ofNat 32 c, {})

/-! ### Blocks -/

/-- shared_scale (R100): `v` are the FP32 encodings of the present elements. -/
def sharedScale (f : Fmt) (v : List W32) : Nat :=
  if v.any isNan then 0xFF
  else
    let amax := v.foldl (fun a x => if isInf x then a else max a (magOf x)) 0
    if amax = 0 then 0x7F
    else
      let se : Int := (amax.log2 : Int) - 149 - f.emax
      (min (max se (-127)) 127 + 127).toNat

/-- Pack codes of `w` bits, element k at stream bits k·w (R99, R107). -/
def packCodes (w : Nat) (cs : List Nat) : List Byte :=
  let n := cs.foldr (fun c a => c % 2 ^ w + a * 2 ^ w) 0
  natBytes n (cs.length * w / 8)

/-- Unpack `n` codes of `w` bits. -/
def unpackCodes (w n : Nat) (bs : List Byte) : List Nat :=
  let v := leNat bs
  (List.range n).map fun k => v / 2 ^ (k * w) % 2 ^ w

/-- Quantise one block (R100, R101, R104): values (`none` absent) with their draws. -/
def quantBlock (f : Fmt) (vs : List (Option W32 × BitVec 16)) (mode : Rnd) (ovf : Ovf) : List Byte × Flags :=
  let pres := vs.filterMap Prod.fst
  let s := sharedScale f pres
  if s = 0xFF then
    (0xFF :: packCodes f.bits (vs.map fun _ => 0), Flags.inv (pres.any isSnan))
  else
    let r := vs.map fun e => match e.1 with
      | none => (0, Flags.none)
      | some x => narrowElem f s x mode ovf e.2
    (BitVec.ofNat 8 s :: packCodes f.bits (r.map Prod.fst), r.foldl (fun a e => a.or e.2) {})

/-- Expand the bytes of one block of `n` elements. -/
def expandBlock (f : Fmt) (n : Nat) (bs : List Byte) : List (W32 × Flags) :=
  let s := leAt bs 0 1
  (unpackCodes f.bits n (bs.drop 1)).map (expandMx f s)

/-! ### Element conversions between unpacked forms -/

/-- An element's value on its way between formats: FP32, a PAIR32 pair, or an exact INT32 integer. -/
inductive Elem where
  | fp (x : W32)
  | pair (hi lo : W32)
  | int (v : Int)
deriving DecidableEq, Repr

/-- Read one unpacked element from its code (R105); a 16-bit NaN raises INVALID if signalling. -/
def readPlain (f : Fmt) (c : Nat) : Elem × Flags :=
  match f with
  | .pair32 => (.pair (BitVec.ofNat 32 c) (BitVec.ofNat 32 (c / 2 ^ 32)), {})
  | .int32 => (.int (int32Val c), {})
  | .fp32 => (.fp (BitVec.ofNat 32 c), {})
  | g => let r := expand16 g c; (.fp r.1, r.2)

/-- A PAIR32 element after conversion into its own format (R103). -/
def canonPair (hi lo : W32) : (W32 × W32) × Flags :=
  if isNan hi || isNan lo then ((nanW, nanW), Flags.inv (isSnan hi || isSnan lo)) else ((hi, lo), {})

/-- A PAIR32 pair whose halves are infinities of opposite sign: their sum is NaN (R70, R81). -/
def pairClash (hi lo : W32) : Bool := isInf hi && isInf lo && signOf hi != signOf lo

/-- The flags of a PAIR32 pair that is read as one value: a signalling half, or infinities of opposite sign (R70, R81). -/
def pairFlags (hi lo : W32) : Flags := Flags.inv (isSnan hi || isSnan lo || pairClash hi lo)

/-- The exact value of a PAIR32 pair for its conversion to another format, or its FP32 stand-in where a half is not
finite: the sum of the halves under R77. -/
def pairAssay (hi lo : W32) : Assay :=
  ((Assay.start.apply (.fp hi)).apply (.fp lo))

/-- Convert an exact accumulator to an unpacked format (R79, R80, R101 to R103). -/
def assayTo (f : Fmt) (a : Assay) (mode : Rnd) (ovf : Ovf) : Nat × Flags :=
  match f with
  | .fp32 => let r := a.drain mode; (r.1.toNat, r.2)
  | .pair32 =>
    let r := a.drainPair mode
    (r.1.1.toNat + r.1.2.toNat * 2 ^ 32, r.2)
  | g =>
    match a.st with
    | .finite =>
      if a.acc = 0 then narrowElem g 0x7F (signBit a.negz) mode ovf 0
      else roundNarrow g (a.acc < 0) a.acc.natAbs (-149) mode ovf 0
    | .nan => narrowElem g 0x7F nanW mode ovf 0
    | .pinf => narrowElem g 0x7F posInf mode ovf 0
    | .ninf => narrowElem g 0x7F negInf mode ovf 0

/-- Convert one element into an unpacked format: its code and flags (R101 to R103, R106). DESIGN CHOICE (log 61), as R105 and R106 have
no row for them: a PAIR32 element becomes another format by one rounding of the exact sum hi + lo, (-0, +0) giving +0; an INT32 element
becomes PAIR32 as (its FP32 value under RNE, +0), the remainder dropped. -/
def writePlain (f : Fmt) (e : Elem) (mode : Rnd) (ovf : Ovf) (u : BitVec 16) : Nat × Flags :=
  match f, e with
  | .fp32, .fp x => let r := canonFp32 x; (r.1.toNat, r.2)
  | .fp32, .int v => let r := int32ToFp v; (r.1.toNat, r.2)
  | .pair32, .fp x =>
    if isNan x then (nanW.toNat + nanW.toNat * 2 ^ 32, Flags.inv (isSnan x)) else (x.toNat, {})
  | .pair32, .pair hi lo => let r := canonPair hi lo; (r.1.1.toNat + r.1.2.toNat * 2 ^ 32, r.2)
  | .pair32, .int v => let r := int32ToFp v; (r.1.toNat, r.2)
  | .int32, .int v => ((BitVec.ofInt 32 v).toNat, {})
  | g, .fp x => narrowElem g 0x7F x mode ovf u
  | g, .int v => if v = 0 then (0, {}) else roundNarrow g (v < 0) v.natAbs 0 .rne ovf 0
  | g, .pair hi lo =>
    let r := assayTo g (pairAssay hi lo) mode ovf
    (r.1, r.2.or (pairFlags hi lo))

/-- The FP32 form of an element for quantisation into an MX block (INT32 under RNE, R95). -/
def Elem.toFp (e : Elem) : W32 × Flags :=
  match e with
  | .fp x => (x, {})
  | .int v => int32ToFp v
  | .pair hi lo => (pairAssay hi lo).drain .rne

/-! ### INT4 (R107 to R109) -/

/-- Expand one INT4_SZP element to an E4M3 code (R109). -/
def int4Szp (scale : W32) (zp q : Nat) (ovf : Ovf) : Nat × Flags :=
  if isNan scale then (0x7F, Flags.inv (isSnan scale))
  else if isInf scale then
    if q = zp then (0x7F, Flags.inv true)
    else narrowElem .e4m3 0x7F (if (q < zp) != signOf scale then negInf else posInf) .rne ovf 0
  else
    let v : Int := ((q : Int) - zp) * fixed scale
    if v = 0 then (0, {}) else roundNarrow .e4m3 (v < 0) v.natAbs (-149) .rne ovf 0

end Sys2Proof.Machine
end

