-- ==== Sys2Proof/Machine/Tbl.lean ====
section
/-! DEFINITION. Sparse tables: lists of (index, value) in ONE canonical form, indices strictly rising and no entry
equal to what an unlisted index reads as. Every large table of the block is one. -/

namespace Sys2Proof.Machine

/-- A sparse table. What an unlisted index reads as is given by each use. -/
abbrev Tbl (α : Type) := List (Nat × α)

/-- The value at index `k`; `d` where none is listed. -/
def Tbl.get {α : Type} (d : α) : Tbl α → Nat → α
  | [], _ => d
  | (j, w) :: t, k => if j = k then w else Tbl.get d t k

/-- Insert an entry before the first larger index. -/
def Tbl.insert {α : Type} (k : Nat) (v : α) : Tbl α → Tbl α
  | [] => [(k, v)]
  | (j, w) :: t => if k < j then (k, v) :: (j, w) :: t else (j, w) :: Tbl.insert k v t

/-- Remove every entry of index `k`. -/
def Tbl.erase {α : Type} (k : Nat) (t : Tbl α) : Tbl α := t.filter fun e => e.1 ≠ k

/-- Store `v` at index `k`; storing `d` removes the entry. -/
def Tbl.set {α : Type} [DecidableEq α] (d : α) (t : Tbl α) (k : Nat) (v : α) : Tbl α :=
  if v = d then Tbl.erase k t else Tbl.insert k v (Tbl.erase k t)

/-- Replace the value at index `k` by a function of it. -/
def Tbl.mod {α : Type} [DecidableEq α] (d : α) (t : Tbl α) (k : Nat) (f : α → α) : Tbl α :=
  Tbl.set d t k (f (Tbl.get d t k))

/-- The listed indices. -/
def Tbl.keys {α : Type} (t : Tbl α) : List Nat := t.map Prod.fst

/-- The canonical form holds. -/
def Tbl.wf {α : Type} [DecidableEq α] (d : α) (t : Tbl α) : Bool :=
  decide ((t.map Prod.fst).Pairwise (· < ·)) && t.all fun e => decide (e.2 ≠ d)

/-- The lowest index below `n` that is not listed (`none` if all are). -/
def Tbl.free {α : Type} (t : Tbl α) (n : Nat) : Option Nat :=
  let k := (t.map Prod.fst).foldl (fun c j => if j = c then c + 1 else c) 0
  if k < n then some k else none

end Sys2Proof.Machine
end

