-- ==== Sys2Proof/Machine/Types.lean ====
section
/-! DEFINITION. The kinds of things that the state of the block holds: descriptors, values in accumulation, streams,
flows, the program of a heat, outstanding requests. -/

namespace Sys2Proof.Machine

/-- The address space of a request (R188): the steward's, or a partition's by its ID. -/
inductive Space where
  | steward
  | asid (a : BitVec 16)
deriving DecidableEq, Repr

/-- Heat kinds (R19). -/
inductive Kind where
  | allreduce | reduceScatter | allgather | reduce | broadcast | alltoall | rotate | topk | softmax | barrier
  | send | recv | partialWrite | planLoad | planUnload | preload | drainSlot | nop
  | partCreate | partReset | keySet | quotaSet | routeSwap | drainVc | cableAdopt | reimageStage | reimageActivate
  | planRevoke
deriving DecidableEq, Repr

/-- SRC_MODE and DST_MODE (R169). -/
inductive Mode where
  | none | linear | strided | weld
deriving DecidableEq, Repr

/-- Slot start policies (R118). -/
inductive StartPol where
  | zero | bias | residual | continue
deriving DecidableEq, Repr

/-- Slot end policies (R119). -/
inductive EndPol where
  | hold | drain | drainFree | shadow
deriving DecidableEq, Repr

/-- A validated descriptor chain (R168 to R172): the fields of the head entry and of the extensions. -/
structure Desc where
  kind : Kind
  plan : Nat := 0
  dstMode : Mode := .none
  srcMode : Mode := .none
  expand : Bool := false
  normalise : Bool := false
  deliverAll : Bool := false
  maskZero : Bool := false
  endp : EndPol := .hold
  start : StartPol := .zero
  blockCol : Bool := false
  blockSize : Nat := 1
  outFmt : Fmt := .fp32
  wireFmt : Fmt := .fp32
  ovf : Ovf := .sat
  rnd : Rnd := .rne
  op : Op := .sum
  rowstat : Bool := false
  notify : Bool := false
  assay : Bool := false
  pin : Bool := false
  fence : Bool := false
deriving DecidableEq, Repr

/-- The words of a chain beside the coded fields (R168, R170, R171). -/
structure Words where
  count : Nat := 0
  slot : Nat := 0
  heatSeq : BitVec 16 := 0
  src : W64 := 0
  dst : W64 := 0
  seed : W64 := 0
  cmpl : W64 := 0
  w6 : W64 := 0
  w7 : W64 := 0
  srcDims : List (Nat × Int) := []
  dstDims : List (Nat × Int) := []
  aux : W64 := 0
  xdst : W64 := 0
  int4Table : List Byte := []
  int4Scale : W32 := 0
  int4Zp : Nat := 0
  ext1 : W64 := 0
  ext2 : W64 := 0
deriving DecidableEq, Repr

/-- Heat completion statuses (R178). -/
inductive Status where
  | ok | abortTimeout | portLost | xlateFail | hearthEcc | quotaExceeded | partitionReset | planInvalid | noSlots
  | malformed
deriving DecidableEq, Repr

/-- The code of a status (R178). -/
def Status.code : Status → Nat
  | .ok => 0x00 | .abortTimeout => 0x10 | .portLost => 0x11 | .xlateFail => 0x12 | .hearthEcc => 0x13
  | .quotaExceeded => 0x14 | .partitionReset => 0x15 | .planInvalid => 0x16 | .noSlots => 0x17 | .malformed => 0x20

/-- Code of a heat kind (R19). -/
def Kind.code : Kind → Nat
  | .allreduce => 0x01 | .reduceScatter => 0x02 | .allgather => 0x03 | .reduce => 0x04 | .broadcast => 0x05
  | .alltoall => 0x06 | .rotate => 0x07 | .topk => 0x08 | .softmax => 0x09 | .barrier => 0x0A | .send => 0x0B
  | .recv => 0x0C | .partialWrite => 0x0D | .planLoad => 0x10 | .planUnload => 0x11 | .preload => 0x12
  | .drainSlot => 0x13 | .nop => 0x1F | .partCreate => 0x20 | .partReset => 0x21 | .keySet => 0x22
  | .quotaSet => 0x23 | .routeSwap => 0x24 | .drainVc => 0x25 | .cableAdopt => 0x26 | .reimageStage => 0x27
  | .reimageActivate => 0x28 | .planRevoke => 0x29

/-- The heat kind of a code (R19); `none` for a reserved code. -/
def Kind.ofCode (n : Nat) : Option Kind :=
  [Kind.allreduce, .reduceScatter, .allgather, .reduce, .broadcast, .alltoall, .rotate, .topk, .softmax, .barrier,
   .send, .recv, .partialWrite, .planLoad, .planUnload, .preload, .drainSlot, .nop, .partCreate, .partReset, .keySet,
   .quotaSet, .routeSwap, .drainVc, .cableAdopt, .reimageStage, .reimageActivate, .planRevoke].find? (·.code = n)

/-- Steward kinds, 0x20 to 0x29 (R20). -/
def Kind.steward (k : Kind) : Bool := 0x20 ≤ k.code

/-- The kinds that run over a plan: 0x01 to 0x0D (R19). -/
def Kind.group (k : Kind) : Bool := k.code ≤ 0x0D

/-- The adding kinds (R20). -/
def Kind.adding : Kind → Bool
  | .allreduce | .reduceScatter | .reduce | .topk | .softmax => true
  | _ => false

/-- What an accumulation holds (R113): an FP32 value, an assay element, a top-k row best first, a softmax row. -/
inductive Val where
  | fp (x : W32)
  | asy (a : Assay)
  | topk (recs : List (W32 × W32))
  | soft (m l : W32) (o : List W32)
deriving DecidableEq, Repr

/-- An element or row in accumulation: its value, its PRESENT bit (R128), how many contributions it has taken, and which infinities an
assay element has met (R70, R81, R272). -/
structure Cell where
  val : Val := .fp 0
  present : Bool := false
  cnt : Nat := 0
  pinf : Bool := false
  ninf : Bool := false
deriving DecidableEq, Repr

/-- Where a stream lies (R181, R185): an affine walk over memory, a list of addresses of its elements, or a weld port
and tag. -/
inductive Place where
  | mem (base : Nat) (dims : List (Nat × Int))
  | at (addrs : List Nat)
  | weld (port : BitVec 5) (tag : BitVec 16)
deriving DecidableEq, Repr

/-- What a stream waits for. -/
inductive Wait where
  | idle
  | staging
  | xlate (id : Nat)
  | page (id : Nat)
  | mem (tag : Nat)
  | grant
  | done
deriving DecidableEq, Repr

/-- Code of a stream (R281). -/
def streamCode : StreamId → Nat
  | .src => 0 | .dst => 1 | .xdst => 2 | .stat => 3 | .cntVec => 4 | .rcvCnt => 5 | .plan => 6 | .other => 7

/-- A stream of a heat (R181): a byte walk in element order. `buf` holds bytes of a read stream received, or bytes of a
write stream not yet accepted (`none`: not written, R197). `esize` is the size of an element, row or wire unit; `unit` the
size of what a weld port counts (R185). While `staged`, it holds staging pair `pairNo` (R184), which it took at position `base`. Bytes of a
destination go to its stream as they come to be there (R405): `pos` counts them in that order, and `spans` tells where they lie in the
region, as offset and length; empty, they lie in ascending order. -/
structure Stream where
  id : StreamId
  write : Bool
  place : Place
  esize : Nat
  unit : Nat := 4
  total : Nat
  pos : Nat := 0
  base : Nat := 0
  spans : List (Nat × Nat) := []
  buf : List (Option Byte) := []
  wait : Wait := .idle
  staged : Bool := false
  pairNo : Nat := 0
  granted : Nat := 0
  beats : List Nat := []
  excess : Bool := false
  written : Nat := 0
deriving DecidableEq, Repr

/-- A source of contributions at a node (R59): this rank's own data, an earlier segment's result, a flow. -/
inductive Src where
  | own
  | seg (i : Nat)
  | flow (f : Nat)
deriving DecidableEq, Repr

/-- A part of the reduction at this node (R29, R414): the elements [lo, lo + n), combined from `ins` in contribution
order; `node` is the index of R30; `start` where the start value enters (R59); `carry` where it has entered at a rank before, on the
way of input 0; `fin` where the result is held; `took` counts units of its local input already applied. -/
structure Seg where
  lo : Nat
  n : Nat
  ins : List Src
  node : W32
  start : Bool
  fin : Bool
  carry : Bool := false
  took : Nat := 0
deriving DecidableEq, Repr

/-- A run carried by a flow (R96, R203): partials of a segment (`wire`: in WIRE_FMT, R65, R66), results, data of a kind
that does not add, or held values (R120): elements [lo, lo + n). -/
inductive Run where
  | part (seg : Nat) (lo n : Nat) (wire : Bool)
  | res (lo n : Nat)
  | data (lo n : Nat)
  | held (lo n : Nat)
deriving DecidableEq, Repr

/-- The payload of a DATA or MASK billet of a flow. -/
structure Item where
  mask : Bool
  data : Payload
deriving DecidableEq, Repr

/-- A flow that a heat sends (R191, R201): to one peer, or to every rank that a stage of BROADCAST reaches (R219). `circuits` holds the
circuit that it travels on, or for a board stage one for each peer; none where it is routed.
`tags` holds a tag for each peer, by
which its COMMITs are told apart (log 10); `peerTags` and `committed` hold each peer's own tag and its committed count. -/
structure FlowOut where
  peers : List Nat
  tags : List Nat := []
  peerTags : List (Nat × Nat) := []
  circuits : List Nat := []
  runs : List Run := []
  cur : Nat := 0
  off : Nat := 0
  tail : List Byte := []
  gdone : Nat := 0
  items : List Item := []
  next : Nat := 0
  committed : List (Nat × Nat) := []
  stopped : Bool := false
deriving DecidableEq, Repr

/-- How far the bytes of a received flow have been read: the run, the unit, how many elements of that unit have been applied (R99), the
bytes of it that have come, the MASK bits of the run's groups (R203). -/
structure Parse where
  cur : Nat := 0
  off : Nat := 0
  sub : Nat := 0
  tail : List Byte := []
  masks : List (Nat × Payload) := []
deriving DecidableEq, Repr

/-- A flow that a heat receives (R191, R201). `next` counts the billets taken; `applied`, the e of R191, those committed; `marks` holds, for
each billet taken and not yet committed, the units of DST that must have been accepted first, and how far the bytes had been read with it; `base` is how
far they had been read with the last one committed. -/
structure FlowIn where
  peer : Nat
  index : Nat := 0
  tag : Nat := 0
  peerTag : Option Nat := none
  circuit : Option Nat := none
  runs : List Run := []
  cur : Nat := 0
  off : Nat := 0
  sub : Nat := 0
  tail : List Byte := []
  masks : List (Nat × Payload) := []
  marks : List (List Nat × Parse) := []
  base : Parse := {}
  next : Nat := 0
  applied : Nat := 0
  reported : Nat := 0
  held : List Item := []
  refused : Option Nat := none
  /-- Resumed after a refusal, with an entry of the reorder stage kept for its next billet (R61). -/
  resumed : Bool := false
  lastAt : Nat := 0
deriving DecidableEq, Repr

/-- Whom an outstanding memory or translation request serves (R364). -/
inductive ReqFor where
  | fetch (q : Nat) (idx : Nat)
  | stream (ctx : Nat) (st : StreamId)
  | cmpl (q : Nat)
  | bad (q : Nat)
  | pin (ctx : Nat) (st : StreamId)
  | trace (n : Nat)
  | replay (n : Nat)
  | crash (ctx : Nat)
deriving DecidableEq, Repr

/-- The place of a requester in the round robin of an engine-wide bound (R186, R410): a heat's streams, its pins and its crash
sample by context, then a queue's fetch, its CMPL_ADDR and its malformed chains, then the trace buffer. -/
def ReqFor.turn : ReqFor → Nat
  | .stream c st => c * 16 + streamCode st
  | .pin c _ => c * 16 + 8
  | .crash c => c * 16 + 9
  | .fetch q _ => 65536 + q * 4
  | .cmpl q => 65536 + q * 4 + 1
  | .bad q => 65536 + q * 4 + 2
  | .trace _ => 81920
  | .replay _ => 81921

/-- A memory request outstanding on a port (R362). -/
structure MemReq where
  write : Bool
  line : Nat
  space : Space
  vpage : Nat := 0
  /-- Size code of the page whose translation the request was issued with (R189). -/
  size : Nat := 0
  data : Payload := 0
  be : W64 := 0
  owner : ReqFor
  slag : Bool := false
  /-- Its data is discarded: its heat paused while it was outstanding (R193). With `slag`: its queue halted (R175). -/
  drop : Bool := false
  /-- Invalidations accepted before it was issued (R189). -/
  asOf : Nat := 0
deriving DecidableEq, Repr

/-- A translation or page request outstanding (R368). -/
structure XReq where
  page : Bool
  space : Space
  vpage : Nat
  write : Bool
  owner : ReqFor
  slag : Bool := false
  /-- With `slag`: its queue halted while it was outstanding (R175). -/
  drop : Bool := false
deriving DecidableEq, Repr

/-- A translation held (R188, R190): page size code, physical page bits [51:12], whether write access was granted. -/
structure XEnt where
  space : Space
  vpage : Nat
  size : Nat
  ppage : Nat
  write : Bool
deriving DecidableEq, Repr

/-- A write of the pick port's initiator side (R367): a half of a completion record, with the queue whose event it
completes, or a STEP_WORD of the heat in context `step` (R42). -/
structure PickWr where
  addr : Nat
  space : Space
  data : W64
  be : Byte
  queue : Nat
  last : Bool
  notify : Bool
  ok : Bool
  step : Option Nat := none
  /-- Page and page size of its translation, and the invalidations accepted before it was issued (R189). -/
  vpage : Nat := 0
  size : Nat := 0
  asOf : Nat := 0
deriving DecidableEq, Repr

/-- States of a port (R239). -/
inductive PState where
  | unused | detect | align | ident | credit | active | retrain | absent | quarantine | swapped | adopted | lost
  | disabled
deriving DecidableEq, Repr

/-- Codes of R239. -/
def PState.code : PState → Nat
  | .unused => 0 | .detect => 1 | .align => 2 | .ident => 3 | .credit => 4 | .active => 5 | .retrain => 6
  | .absent => 7 | .quarantine => 8 | .swapped => 9 | .adopted => 10 | .lost => 11 | .disabled => 12

/-- In service: ACTIVE and RETRAIN only (R239). -/
def PState.inService : PState → Bool
  | .active | .retrain => true
  | _ => false

/-- States of a queue (R160). -/
inductive QState where
  | unassigned | disabled | active | draining | halted
deriving DecidableEq, Repr

/-- Codes of R160. -/
def QState.code : QState → Nat
  | .unassigned => 0 | .disabled => 1 | .active => 2 | .draining => 3 | .halted => 4

/-- States of a partition (R290). -/
inductive PartState where
  | free | active | halted | resetting | releasing
deriving DecidableEq, Repr

/-- Codes of R290. -/
def PartState.code : PartState → Nat
  | .free => 0 | .active => 1 | .halted => 2 | .resetting => 3 | .releasing => 4

/-- States of a set (R125). -/
inductive SetState where
  | empty | preloaded | active | opened | draining | void | poisoned
deriving DecidableEq, Repr

/-- The element kind of a slot (R113). -/
inductive SlotKind where
  | fp32 | assay | topk | softmax
deriving DecidableEq, Repr

/-- States of a heat within the engine, from its dispatch to the release of its context. -/
inductive Phase where
  | queued   -- a steward heat behind another that names its partition (R288)
  | pin      -- pinning its pages (R190)
  | map      -- reading endpoints from the rank map (R27)
  | slot     -- waiting for its slot (R52)
  | run
  | ended (st : Status)  -- its effect is over; its record waits for its outstanding writes (R186, R307)
deriving DecidableEq, Repr

end Sys2Proof.Machine
end

