-- ==== Sys2Proof/Machine/State.lean ====
section
/-! DEFINITION. The state of the block: every register, table, queue and counter that spec/ names, as plain data, and
the state at power-on. Large tables are sparse (Machine/Tbl.lean). INVENTORY.md lists each field with its rule. -/

namespace Sys2Proof.Machine

/-- The model raises no fault: every failure the spec describes is an effect on the state (a status, a counter, an event
bit, a response code), and no access of the block is to memory of its own that does not exist. Safe: there is nothing
here that a claim could hide behind. -/
inductive Fault where
deriving DecidableEq, Repr

/-- Why a command has no meaning. -/
inductive Refusal where
  /-- A command whose arm of `exec` has not been given its meaning: raised by such arms only, and by none of this model.
  Safe: no claim about a next state follows. -/
  | notModelled (mnemonic : String)
deriving DecidableEq, Repr

/-! ### Time (11) -/

/-- A pending correction of the machine time (R268): the offset that will hold, the epoch pulses still to come up to the one that applies it,
and what LOCKED becomes then, if it changes. -/
structure PendOff where
  offset : W32
  left : Nat
  locked : Option Bool
deriving DecidableEq, Repr

/-- The model's time base, the epoch counter and the time registers of R264 to R271. -/
structure TimeSt where
  /-- Picoseconds since power-on: the model's own time base (log 2). -/
  now : Nat
  epochBase : Nat
  epochAt : Nat
  running : Bool
  slip : BitVec 16
  hiLatch : W32
  role : BitVec 2
  periodMs : BitVec 4
  upstream : BitVec 16
  offset : W32
  asym : BitVec 16
  locked : Bool
  lost : BitVec 16
  exch : Option W64
  exchAt : Nat
  /-- Corrections that wait for their pulse, earliest first. -/
  pend : List PendOff
  small : Nat
  /-- A frame edge, once the generators have started at one (R347): frame edges follow every 25 refclk periods. -/
  frame0 : Option Nat
  /-- TIME billets of this engine whose frame has not been sent; machine times taken of those that have come (R267). -/
  unsent : List Billet
  stamps : List (Billet × W64)
deriving DecidableEq, Repr

/-! ### Control (12, 13, 16, 17) -/

/-- What a YMB access waits for before it is answered (R354, R373, R387): Trace, the Anvil island of a lane, the island of a
port. -/
inductive YmbWait where
  | trace
  | flag (i : Island)
  | link (p : Nat) (v : W32)
deriving DecidableEq, Repr

/-- Registers of Control and the last responses of the register ports. -/
structure CtlSt where
  strapInst : BitVec 3
  strapMfr : BitVec 11
  irqMask : BitVec 4
  lock : Bool
  permits : BitVec 4
  tag : W32
  tagWritten : Bool
  viol : BitVec 16
  violValid : Bool
  violAddr : BitVec 24
  bitProfile : W64
  clockProfile : W64
  bitHi : W32
  clockHi : W32
  profValid : Bool
  changes : BitVec 16
  islBusy : Bool
  islDone : Bool
  islCode : BitVec 6
  /-- The island whose reset is in progress (`islCode` is the register field), dispatches made before it was requested, and
  whether the reset itself has begun. -/
  islNow : BitVec 6
  islOrder : Nat
  islStarted : Bool
  /-- Island resets that faults have asked for while another is in progress (R304): the island, and dispatches made before. -/
  islMore : List (BitVec 6 × Nat)
  notifyValid : Bool
  notifyDest : BitVec 16
  rspCode : BitVec 2
  rspData : W32
  /-- The YMB access outstanding, if it waits (R373). -/
  ymbWait : Option YmbWait
  pickData : W64
deriving DecidableEq, Repr

/-- The quench record and the mailbox (R314 to R320). -/
structure QuenchSt where
  record : List (BitVec 128)
  valid : Bool
  unread : Bool
  lost : BitVec 8
  seq : BitVec 16
  word : BitVec 12
  mbox : List Payload
  mboxPtr : BitVec 4
  mboxDrops : BitVec 8
  /-- Captures that wait for a sequencer (R342), oldest first: cause, partition, NOPART, entries. -/
  waiting : List (Nat × Option Nat × Bool × List (BitVec 128))
deriving DecidableEq, Repr

/-! ### Boot, provisioning, sequencers (14) -/

/-- Boot states of BOOT_STATUS.STATE (R344). -/
inductive BootState where
  | por | nvm | apply | align | train | done | identOnly
deriving DecidableEq, Repr

/-- A component entry of an image (R325). -/
structure Comp where
  type : Nat
  ifrev : Nat
  version : W32
  min : W32
  max : W32
  offset : Nat
  length : Nat
  crc : W32
deriving DecidableEq, Repr

/-- What step 4 takes from the configuration block (R328), besides what goes into registers. -/
structure ImageCfg where
  ownId : BitVec 16
  stewardRid : BitVec 16
  repair : BitVec 5
  reimageEn : Bool
  clockPlan : List W32
  bitDefaults : List W32
deriving DecidableEq, Repr

/-- How the device is put into 4-byte addressing (R321), as JESD216 names it. -/
inductive Addr4 where
  | none
  | only
  | enter (methods : Byte)
  | table (instrs : W32)
deriving DecidableEq, Repr

/-- What SFDP discovery takes from the tables (R321): density in bytes, the read instruction with its dummy cycles and whether
it is the 1-1-4 fast read, the erase types by log2 of their size and their instruction, the method of 4-byte addressing. -/
structure NvmInfo where
  density : Nat
  quad : Bool
  read : Byte
  dummy : Nat
  erase : List (Nat × Byte)
  addr4 : Addr4
deriving DecidableEq, Repr

/-- Boot, image and version state (R321 to R334, R344). -/
structure BootSt where
  state : BootState
  /-- An asserted reset input holds the block (R351). -/
  porLow : Bool
  warmLow : Bool
  /-- When the reset input that holds the block fell (R351). -/
  assertAt : Nat
  /-- yx_ctl_test_scan_en is high (R379). -/
  scan : Bool
  /-- When boot step 5 began. -/
  since : Nat
  /-- The next boot step to run, 1 to 7 (R332). -/
  step : Nat
  slot : Bool
  slow : Bool
  sealBroken : Bool
  compA : BitVec 4
  compB : BitVec 4
  reasonA : BitVec 4
  reasonB : BitVec 4
  serial : W32
  cfgVer : W32
  trnVer : W32
  seqVer : W32
  trnIfrev : Nat
  seqBootVer : W32
  seqBootCrc : W32
  region : Nat
  sfdpDone : Bool
  nvm : NvmInfo
  comps : List Comp
  bytes : List (List Byte)
  cfg : ImageCfg
  /-- A scrub of R305 runs; the one of the reset in progress has finished (R352); it is a zeroize. -/
  scrub : Bool
  scrubbed : Bool
  zeroizing : Bool
  /-- When yx_zeroize_n was last accepted (R380). -/
  zeroAt : Option Nat
deriving DecidableEq, Repr

/-- Standby states (R339). -/
inductive Standby where
  | ready | loading | staged | failed
deriving DecidableEq, Repr

/-- The two sequencers (R339 to R342). A microcode is named by its VERSION and IFREV. -/
structure SeqSt where
  standby : Standby
  activeId : Bool
  ifrev : BitVec 8
  takeovers : BitVec 8
  reloads : BitVec 8
  fatal : Bool
  /-- Consecutive failed loads of the standby store. -/
  fails : Nat
  stagedVer : W32
  stagedIfrev : BitVec 8
  /-- VERSION and IFREV of the microcode that a load in progress writes. -/
  loadVer : W32
  loadIfrev : BitVec 8
  /-- What a load in progress will leave staged: the REIMAGE_STAGE heat's context, or nothing (a reload from the
  active store). -/
  stage : Option Nat
  /-- The waiting REIMAGE_ACTIVATE heat and its deadline (R341). -/
  hold : Option (Nat × Nat)
  /-- A reload from NVM is in progress (R342). -/
  reload : Bool
deriving DecidableEq, Repr

/-- Provisioning and the NVM window (R335 to R338, R344), and the TAP (R375). -/
structure ProvSt where
  state : BitVec 3
  tapOpen : Bool
  lastClose : BitVec 4
  sessions : BitVec 16
  enHigh : Bool
  /-- The seal loop counts as open (R380). -/
  sealOpen : Bool
  requestedAt : Nat
  nvmAddr : BitVec 26
  page : List Byte
  busy : Option (BitVec 2)
  err : Bool
  eraseLog2 : BitVec 4
  closeAfter : Option (BitVec 4)
  tapInstr : Byte
  bistHrt : Option (BitVec 8)
  bistSram : Option Bool
  /-- The boundary register and the bypass register. -/
  boundary : Boundary
  bypass : Bool
deriving DecidableEq, Repr

/-! ### Power (15) -/

/-- Power domains, alignment and thermal state (R353 to R357). -/
structure PowerSt where
  on : BitVec 24
  aligned : BitVec 24
  weldAligned : Bool
  ctlAligned : Bool
  waking : BitVec 24
  /-- Domains whose wake, from the request until ALIGNED, and for Hearth until its scrub, has not ended (R353). -/
  woken : BitVec 24
  retries : List (Nat × Nat)
  idleUs : BitVec 12
  autoTrace : Bool
  autoHearth : Bool
  autoAnvil : Bool
  minAnvil : BitVec 3
  hystC : BitVec 4
  duty : BitVec 2
  critC : Byte
  throttleC : Byte
  level : BitVec 2
  hottest : BitVec 5
  hotTemp : Byte
  throttleUs : W32
  sensorSel : BitVec 5
  temps : List Byte
  maxs : List Byte
  wakes : BitVec 16
  alignRetries : BitVec 16
  event : BitVec 3
  /-- Since when every sensor has stood below the level's threshold less the hysteresis (R356). -/
  coolSince : Option Nat
  /-- When Anvil and Hearth were last in use, or aligned (R353). -/
  anvilIdle : Nat
  hearthIdle : Nat
  /-- From when the next alignment check of an island may run, by island code (R349). -/
  alignFrom : Tbl Nat
deriving DecidableEq, Repr

/-! ### Routes, keys, circuits (09) -/

/-- An entry of the circuit table (R216, R217). -/
structure Circ where
  ingress : Option (Fin 40)
  upLabel : BitVec 10
  out : Option (Fin 40)
  slots : List Nat
  deliver : Bool
  tag : Option (BitVec 12)
  key : BitVec 12
  gen : BitVec 4
  dateline : Bool
  newring : Bool
  srcEp : BitVec 16
  dstEp : BitVec 16
  digest : W64
  req : BitVec 16
deriving DecidableEq, Repr

/-- The hold of a DRAIN_VC in force (R222). -/
structure Hold where
  vcs : BitVec 8
  ports : BitVec 40
  quietUs : BitVec 16
  drained : Bool
  heat : Option Nat
  deadline : Nat
  /-- When a billet of a selected VC was last seen at a selected port. -/
  lastSeen : Nat
  /-- Billets of no heat that the hold keeps from being injected. -/
  waiting : List Billet
deriving DecidableEq, Repr

/-- Route banks, windows, drop counters (R205 to R228). -/
structure RouteSt where
  bank0 : Tbl (BitVec 16)
  bank1 : Tbl (BitVec 16)
  activeBank : Bool
  hold : Option Hold
  /-- A pending swap: the heat that completes, FORCE, QUIET_US (R223, R224). -/
  swap : Option (Nat × Bool × BitVec 16)
  /-- The discard window of a forced swap ends here. -/
  forceUntil : Option Nat
  tblStandby : Bool
  tblIndex : BitVec 16
  keyPort : BitVec 6
  keyWord : BitVec 7
  noroute : BitVec 8
  portdown : BitVec 8
  kindDrop : BitVec 8
  swapDrop : BitVec 8
  /-- Key tables: index port × 4,096 + key (R213). -/
  keys : Tbl Bool
  /-- The circuit table (R216): `none` for a free entry. -/
  circ : Tbl (Option Circ)
deriving DecidableEq, Repr

/-! ### Ports (10) -/

/-- Registers and counters of a port (R256, R228). -/
structure PortReg where
  st : PState
  qreason : BitVec 4
  laneUse : Byte
  other : BitVec 6
  attempt : BitVec 2
  event : Bool
  width : BitVec 4
  reprobeMs : BitVec 16
  enable : Bool
  peerValid : Bool
  peerId : BitVec 16
  peerPort : BitVec 6
  plan : W32
  rtt : BitVec 16
  corr : BitVec 16
  uncorr : BitVec 16
  discard : BitVec 16
  replays : BitVec 16
  adjust : BitVec 16
  auditErr : BitVec 16
  keyIn : BitVec 16
  keyOut : BitVec 16
  creditVc : BitVec 2
  creditClass : BitVec 5
deriving DecidableEq, Repr

/-- A frame kept for replay (R235), and when it was last sent. -/
structure Kept where
  fseq : BitVec 12
  pos : List Billet
  sentAt : Nat
deriving DecidableEq, Repr

/-- Transmit side of a port: queued billets, the replay buffer, the wheel, credits held (R209, R214, R215, R235). -/
structure PortTx where
  queue : List Billet
  kept : List Kept
  /-- The frames of a replay still to be resent, oldest first. -/
  resend : List (BitVec 12)
  nextSeq : BitVec 12
  /-- The last frame sent (R204: an idle frame repeats its FSEQ). -/
  last : Option Frame
  slotNow : Byte
  /-- Owner of each owned wheel slot: circuit index + 1. -/
  wheel : Tbl Nat
  /-- Credits held, by pair (R232). -/
  credit : Tbl Nat
  returned : Tbl (BitVec 16)
  received : Tbl (BitVec 16)
  /-- Round-robin class of the routed data VCs (R215). -/
  rrClass : BitVec 5
  /-- The first pair that the marker groups of the next boundary carry, and their PERIOD (R232). -/
  auditNext : Nat
  period : BitVec 16
  rttFrom : Option Nat
  progressAt : Nat
  replayFseq : Option (BitVec 12 × Nat)
deriving DecidableEq, Repr

/-- An occupied entry of the receive buffer whose billet has been taken at ingress (R209): the pair whose credit it returns, if any,
and where copies of its billet still wait: in the queue of an output port, or in the inbox. -/
structure Ent where
  pair : Option Nat
  outs : List (Option Nat × Billet)
deriving DecidableEq, Repr

/-- Receive side of a port: the receive buffer, pending credit returns, the expected FSEQ (R209, R211, R236). -/
structure PortRx where
  /-- Entries whose billet has not been taken at ingress; those from an earlier service, which return no credit (R252). -/
  buf : List Billet
  stale : List Billet
  /-- Entries whose billet has been taken and has not left. -/
  ents : List Ent
  /-- Billets delivered at this port to this engine, whose kind's command has not been taken. -/
  inbox : List Billet
  rets : List (Nat × Nat)
  e : BitVec 12
  lastGood : Nat
  x32 : Bool
  /-- Of the billets in `inbox`, those received while the port was degraded (R250). -/
  slow : List Billet
  /-- The allotments in force, by pair: those announced at the last training (R209, R210). -/
  pools : Tbl (BitVec 12)
  /-- The port stream received: bytes of a frame not yet whole, each with whether its codeword was uncorrectable, and whole frames not
  yet taken (R233). -/
  part : List (Byte × Bool)
  frames : List Frame
deriving DecidableEq, Repr

/-- Training state of a port (R240 to R249). -/
structure PortTrain where
  /-- PHY lanes on which signal and lock are reported; those that have decoded a marker group. -/
  sig : Byte
  marked : Byte
  /-- The LANE that a PHY lane carries, plus 1, once a marker group has told it (R230). -/
  lane : Tbl Nat
  /-- By PHY lane: marker groups missing in a row, and uncorrectable codewords in a row (R248). -/
  misses : Tbl Nat
  badRun : Tbl Nat
  partnerOk : Byte
  partnerUse : Byte
  sendAgreed : Bool
  partnerAgreed : Bool
  verdict : BitVec 2
  partnerVerdict : BitVec 2
  sendReady : Bool
  partnerReady : Bool
  chunks : BitVec 11
  partnerAllot : Tbl (BitVec 12)
  /-- LNK_CREDIT, and what of it the training under way announces (R210). -/
  allot : Tbl (BitVec 12)
  offer : Tbl (BitVec 12)
  seen : Bool
  gap : Bool
  single : Bool
  since : Nat
  restore : Bool
  /-- The lane set that a fast retrain is agreeing on (R249). -/
  use : Byte
  /-- A ROUTE_SWAP has completed since the adoption of the port (R247). -/
  swapDone : Bool
deriving DecidableEq, Repr

/-- Telemetry counts of a port over the interval (R226). -/
structure PortTele where
  sent : Nat
  frames : Nat
  rxMax : Nat
  stall : Nat
  replays : Nat
deriving DecidableEq, Repr

/-- A link or sibling port. -/
structure Port where
  reg : PortReg
  tx : PortTx
  rx : PortRx
  tr : PortTrain
  te : PortTele
deriving DecidableEq, Repr

/-! ### Tongs (02, 07, 11, 13) -/

/-- The limits of a partition, or its use of them (R294). -/
structure Quota where
  ingots : Nat := 0
  slots : Nat := 0
  plans : Nat := 0
  staging : Nat := 0
  pins : Nat := 0
  heats : Nat := 0
  tags : Nat := 0
deriving DecidableEq, Repr

/-- A partition (R289, R290). -/
structure Part where
  state : PartState
  key : BitVec 12
  gen : BitVec 4
  cls : BitVec 5
  asid : BitVec 16
  requester : BitVec 16
  bitmap : List Nat
  qbase : Nat
  qcount : Nat
  bbase : Nat
  bcount : Nat
  weldPorts : W32
  quota : Quota
  crash : W64
  wdogUs : BitVec 26
  pauseCap : BitVec 16
  instep : BitVec 16
  samples : W32
  lastReset : Option Nat
  /-- When it halted (R174, R175). -/
  haltAt : Option Nat
deriving DecidableEq, Repr

/-- A malformed chain whose record waits (R174): its head index, the generation, NOTIFY, CMPL_ADDR's virtual page while its
translation is asked for, and the physical address once it is there. -/
structure BadRec where
  idx : BitVec 17
  gen : Nat
  notify : Bool
  va : W64
  /-- The physical address, once it is there, and the size code of its page. -/
  pa : Option (Nat × Nat)
  /-- Its translation waits for one of the 256 outstanding to be answered (R188). -/
  asked : Bool
deriving DecidableEq, Repr

/-- A queue (R155 to R166). -/
structure Queue where
  st : QState
  /-- ENABLE: 1 in ACTIVE, and still so in HALTED when the queue was halted there (R161). -/
  enable : Bool
  hold : Bool
  cfgErr : Bool
  reason : BitVec 4
  head : BitVec 17
  tail : BitVec 17
  base : W64
  log2 : BitVec 5
  weight : Byte
  burst : BitVec 7
  pendTail : Option (BitVec 17)
  pendInval : Bool
  credit : Int
  /-- Cached entries (R163): index and the 64 bytes. -/
  cache : List (Nat × Payload)
  /-- Indices whose fetch is outstanding. -/
  fetching : List Nat
  /-- Entries of the chain under validation, in order. -/
  under : List Payload
  /-- A validated chain that waits for dispatch: descriptor, words, length. -/
  ready : Option (Desc × Words × Nat)
  /-- CMPL_ADDR of the chain under validation waits for its translation. -/
  cmplWait : Bool
  cmplPa : Nat
  /-- The page and page size of that translation (R173, R189). -/
  cmplPage : Nat × Nat
  /-- Contexts of dispatched heats whose record is not written. -/
  heats : List Nat
  /-- Malformed chains whose record is not written. -/
  bad : List BadRec
deriving DecidableEq, Repr

/-- A barrier object (R257). -/
structure Bar where
  count : BitVec 16
  target : BitVec 16
  armed : Bool
  held : Bool
  releases : W32
deriving DecidableEq, Repr

/-- A loaded plan (R24 to R26): the owner, its ID, where the image lies, the digest, this rank, the tables, and the
circuit entries this rank reserved, by request number. -/
structure Plan where
  part : Nat
  id : Nat
  addr : W64
  digest : W64
  size : Nat
  rankmapOff : Nat
  rank : Nat
  parent : List Nat
  children : List (List Nat)
  rings : List (List (Nat × Nat))
  boardBase : List Nat
  boardSize : List Nat
  root : Nat
  algo : List Nat
  reqs : List (Nat × Nat × Nat × Nat)
  /-- Endpoints of the ranks that this rank's node entry names (R27). -/
  eps : List (Nat × BitVec 16)
  /-- Endpoints of the destinations of its own circuits, by request number, as its SETUPs named them (R217). -/
  dests : List (Nat × BitVec 16)
  circs : List (Nat × Nat)
  /-- Requests whose circuit at this engine, as source or for delivery, a port loss has freed (R252). -/
  lost : List Nat
  /-- Loaded: its PLAN_LOAD has completed with OK (R26). -/
  ready : Bool
  /-- The context of a PLAN_UNLOAD that has taken effect and waits for earlier heats of its queue (R28). -/
  leaving : Option Nat
deriving DecidableEq, Repr

/-- Result of an element or unit for the destination: not yet there, masked (R51), its code, or the first `len` bytes of the code of a block
that has come in part (R99). -/
inductive Res where
  | pending
  | masked
  | val (code : Nat)
  | part (len code : Nat)
deriving DecidableEq, Repr

/-- It is there whole. -/
def Res.whole : Res → Bool
  | .pending | .part _ _ => false
  | _ => true

/-- The data plane of a heat: segments, flows, streams, values. -/
structure Plane where
  segs : List Seg
  outs : List FlowOut
  ins : List FlowIn
  streams : List Stream
  /-- Elements that the slot's set holds here, in set order (R415). -/
  ranges : List (Nat × Nat)
  /-- Cells, index segment × 2^36 + element or row. -/
  cells : Tbl Cell
  /-- Results or data by element, row or wire unit. -/
  res : Tbl Res
  /-- Start values of elements that do not start at zero (R118, R120). -/
  starts : Tbl (Option Cell)
  /-- Held values of R120 have still to arrive for the elements of the start segments. -/
  heldIn : Bool
  /-- This rank writes DST (R34, R416). -/
  hasDst : Bool
  /-- Elements, rows or units of DST: first index in `res`, count, and how many have gone to the stream. -/
  dbase : Nat
  dcount : Nat
  dpos : Nat
  flags : Flags
  /-- Flags of the lane operations made since they were last captured, one entry for each operation (R85). -/
  raised : List Flags
  /-- The set this heat took, and whether it holds it. -/
  setIdx : Nat
  slotHeld : Bool
  /-- The last addition has been made; the drain has begun; the set has left this heat. -/
  added : Bool
  drained : Bool
  setDone : Bool
  /-- ALLTOALL counts: sent by this rank, received from each rank (R39). -/
  sendCnt : List Nat
  recvCnt : Tbl (Option Nat)
  recvLeft : Nat
  /-- Rows of ROWSTAT given to their stream (R129). -/
  statDone : Nat
  /-- ROTATE: steps finished, and steps released (R42). -/
  stepNo : Nat
  stepGo : Nat
  /-- The rows that a DRAIN_SLOT writes: kind, K or ROW_LEN, and number, of a top-k or softmax slot (R124). -/
  rowSlot : Option (SlotKind × Nat × Nat)
deriving DecidableEq, Repr

/-- Identity of a heat: queue, head index, partition and generation at dispatch, descriptor (R176). -/
structure HeatId where
  q : Nat
  idx : BitVec 17
  part : Option Nat
  key : BitVec 12
  gen : BitVec 4
  cls : BitVec 5
  space : Space
  d : Desc
  w : Words
  cmplPa : Nat
  cmplPage : Nat × Nat
  order : Nat
deriving DecidableEq, Repr

/-- The group side of a heat: plan, rank, peers with their contexts and endpoints (R32). -/
structure HeatGrp where
  planKey : Nat
  digest : W64
  rank : Nat
  size : Nat
  eps : List (Nat × BitVec 16)
  need : List Nat
  peers : List (Nat × Option (BitVec 12))
  /-- The rank's parent in the fixed tree; `none` at its root. -/
  up : Option Nat
  /-- Control billets made and held by DRAIN_VC (R222). -/
  ctl : List Billet
  arrived : List Nat
  sentUp : Bool
  releaseT : Option W64
  released : Bool
deriving DecidableEq, Repr

/-- The progress of a heat: phase, watchdog, pause, beacons, perturbation, steward waits. -/
structure HeatRun where
  phase : Phase
  /-- Deadline of the watchdog in ps, or what remains while it is stopped (R309). -/
  wdog : Nat
  wdogStopped : Bool
  /-- The heat waits for an island to wake, a wait that no watchdog counts (R13). -/
  waking : Bool
  periodUs : Nat
  pausedAt : Option Nat
  pausedTotal : Nat
  capped : Bool
  lastBeacon : Nat
  beacons : BitVec 16
  /-- Origin rank, last count taken, when (R194). -/
  seen : List (Nat × BitVec 16 × Nat)
  timing : Bool
  truncated : Bool
  /-- When the heat ended (R179). -/
  endAt : Nat
  obj : Option Nat
  /-- Lines of the crash sample still to be written, then its header without the record; the record it showed; the quench
  record that tells of it (R318). -/
  sample : List (Nat × Payload)
  header : Option Payload
  record : Option (BitVec 128)
  crashSeq : BitVec 16
  due : Nat
  confirms : List Nat
  /-- Pages that a pinned heat needs and has not begun to pin; pages that it is pinning (R190): stream, page, write. -/
  pinWait : List (StreamId × Nat × Bool)
  pinNeed : List (StreamId × Nat × Bool)
deriving DecidableEq, Repr

/-- A heat context (one of 4,096). -/
structure Heat where
  id : HeatId
  grp : HeatGrp
  run : HeatRun
  dp : Plane
deriving DecidableEq, Repr

/-- A flow tag (R201, R308). -/
inductive TagUse where
  | free
  | recv (ctx f : Nat)
  | send (ctx f : Nat)
  | held (part : Nat) (until_ : Nat)
deriving DecidableEq, Repr

/-- Tongs: partitions, queues, plans, contexts, tags, barriers and their registers. -/
structure TngSt where
  dbReject : W32
  dbValid : Bool
  dbCause : BitVec 3
  dbRid : BitVec 16
  barOver : Byte
  barBadwr : Byte
  barHeld : BitVec 4
  leftValid : Bool
  leftCount : BitVec 15
  leftFirst : BitVec 14
  partSel : Byte
  useItem : BitVec 4
  useQuota : Bool
  abortQueue : BitVec 12
  event : BitVec 5
  slagBillet : BitVec 16
  slagMem : Byte
  slagXlate : Byte
  tagDrop : W32
  /-- Scheduler position (R166): queue visited, entries taken in the visit, grants in the pass. -/
  visit : Nat
  taken : Nat
  granted : Nat
  /-- Completion event bits by queue, and the queue last sent (R369). -/
  evts : Tbl Bool
  evtLast : BitVec 12
  /-- The queue presented on the event channel, held until its transfer (R358). -/
  evtNow : Option (BitVec 12)
  /-- Dispatches so far: the order of heats (R52). -/
  order : Nat
deriving DecidableEq, Repr

/-- The tables of Tongs. -/
structure TngTbl where
  parts : Tbl Part
  queues : Tbl Queue
  plans : Tbl (Option Plan)
  heats : Tbl (Option Heat)
  tags : Tbl TagUse
  bars : Tbl Bar
  /-- Key releases: key and time (R292). -/
  released : List (BitVec 12 × Nat)
deriving DecidableEq, Repr

/-! ### Anvil and Hearth (03, 05) -/

/-- A flag word of a lane (R85). -/
structure FlagWord where
  heat : BitVec 12
  valid : Bool
  flags : BitVec 4
deriving DecidableEq, Repr

/-- A set of a slot (R112, R125): its elements, `blank` where none is listed. -/
structure SetSt where
  st : SetState
  cells : Tbl Cell
  blank : Val
  ingots : List Nat
deriving DecidableEq, Repr

/-- A slot (R112): kind, E, row width, sets, fill set, bias region. -/
structure Slot where
  part : Nat
  gen : BitVec 4
  kind : SlotKind
  e : Nat
  /-- K of top-k rows, ROW_LEN of softmax rows. -/
  width : Nat
  sets : List SetSt
  fill : Nat
  bias : Option (List Byte)
  biasFmt : Fmt
  biasBad : Bool
  biasIngots : List Nat
deriving DecidableEq, Repr

/-- Anvil and Hearth: repair, diagnostics, slots, scrub, ECC, patrol. -/
structure HrtSt where
  repair : BitVec 5
  active : BitVec 5
  diag : Bool
  flagLane : BitVec 12
  flagWords : Tbl FlagWord
  reorderHolds : W32
  /-- Slots, index partition × 65,536 + slot (R112). -/
  slots : Tbl (Option Slot)
  /-- Ingots that are not free: allocated, or awaiting scrub (R117, R133). -/
  ingots : Tbl Bool
  scrub : List Nat
  corr : BitVec 16
  uncorr : BitVec 16
  logValid : Bool
  logPatrol : Bool
  logBank : BitVec 3
  logStripe : BitVec 15
  logWord : BitVec 6
  patrol : Bool
  patrolLine : BitVec 18
  /-- The time of the epoch counter, in ps, of the last patrol read (R278). -/
  patrolAt : Nat
  /-- Hearth banks whose reset after a fault has not finished (R304). -/
  resetting : Bool
  /-- Bits of Hearth words that have flipped since their word was written: index stripe × 512 + bank × 64 + word (R111, R131). -/
  upsets : Tbl (BitVec 74)
deriving DecidableEq, Repr

/-! ### Weld and Trace (08, 12, 16) -/

/-- Weld: its registers, requests outstanding, translations, live weld streams. -/
structure WldSt where
  partSel : Byte
  faults : BitVec 16
  fails : BitVec 16
  level : BitVec 2
  heldCycles : BitVec 30
  noTag : Byte
  short_ : BitVec 7
  long_ : BitVec 7
  memPick : Byte
  memData : Byte
  memFetch : Byte
  memOther : Byte
  mem : Tbl (Option MemReq)
  /-- The wclk cycle after that in which each port last issued, as the throttle spaces requests (R187); 0 for none. -/
  issued : Tbl Nat
  /-- The wclk cycles from the last request on that HELD counts (R198). -/
  heldIn : List Nat
  /-- The requester last granted a memory tag, by its place in the round robin (R186, R410). -/
  turn : Nat
  /-- The requester last granted a translation or page request (R188, R410). -/
  xturn : Nat
  /-- The requester last granted a write of the pick port, but for records (R367, R410). -/
  pturn : Nat
  xl : Tbl (Option XReq)
  pick : List PickWr
  cache : List XEnt
  /-- Pin store: an entry and the heat that holds it (R190). -/
  pins : List (XEnt × Nat)
  /-- Invalidations not yet acknowledged: scope, ASID, first and last page (R189). -/
  invs : List (BitVec 2 × BitVec 16 × Nat × Nat)
  acks : Nat
  /-- Weld streams whose heat has ended or paused with beats still to come: port, tag, elements left (R361). -/
  late : List (BitVec 5 × BitVec 16 × Nat)
  /-- Beats waiting for their handshake: port, tag, data, mask, last, heat context (R360). -/
  out : List (BitVec 5 × BitVec 16 × BitVec 1024 × W32 × Bool × Nat)
deriving DecidableEq, Repr

/-- An open ARRIVAL run of a heat in the recording (R280): queue, head index and context of the heat, source rank, first
sequence, billets so far, time of the first. -/
structure ArrRun where
  ctx : Nat
  queue : Nat
  index : BitVec 17
  src : Nat
  first : BitVec 13
  count : Nat
  time : BitVec 40
deriving DecidableEq, Repr

/-- Trace (R226 to R228, R280 to R285). -/
structure TrcSt where
  enable : Bool
  replay : Bool
  all : Bool
  part : Byte
  base : W64
  log2 : BitVec 5
  active : Bool
  full : Bool
  incomplete : Bool
  diverged : Bool
  count : W32
  drop : W32
  divReason : BitVec 4
  divIndex : BitVec 28
  queue : List (BitVec 128)
  runs : List ArrRun
  /-- Translations of the trace buffer (R282), and the page that a pending write of ENABLE or REPLAY asks for. -/
  xl : List XEnt
  asking : Option Nat
  pendWrite : W32
  /-- Entries given to the memory ports, and where the first lost entry would stand. -/
  issued : Nat
  gap : Option Nat
  /-- Replay: the machine time of its start and TIME of entry 0, the entries read and not yet applied with their indices, the next entry to
  read, and whether the STOP entry has been read. -/
  t0 : W64
  entries : List (Nat × BitVec 128)
  readNext : Nat
  time0 : BitVec 40
  readAll : Bool
  /-- Translations that a replay has met and not compared yet, oldest first (R283): the heat as QUEUE and INDEX, and the fields of
  R281 that are compared. -/
  met : List (Nat × Nat)
  /-- When the last run of a heat of the replay ended, in machine time (R284). -/
  runEnds : List (Nat × Nat)
  /-- The machine time of a write of ENABLE or REPLAY that waits. -/
  pendAt : W64
  /-- A write of TRC_TELE_CTL that waits for Trace (R354). -/
  telePend : W32
  teleEnable : Bool
  teleInterval : BitVec 16
  teleValid : Bool
  teleDest : BitVec 16
  teleDrop : W32
  /-- The next sample's number; the time of the epoch counter, in ps, at which the last was taken; its billets (R226, R227). -/
  sample : BitVec 13
  teleAt : Nat
  sampled : List Billet
deriving DecidableEq, Repr

/-- The state of the block. -/
structure State where
  time : TimeSt
  ctl : CtlSt
  quench : QuenchSt
  boot : BootSt
  seq : SeqSt
  prov : ProvSt
  power : PowerSt
  route : RouteSt
  ports : Tbl Port
  tng : TngSt
  tab : TngTbl
  hrt : HrtSt
  wld : WldSt
  trc : TrcSt
  /-- The model's own: how many free values have been drawn (log 6). -/
  freeCtr : Nat
  /-- The model's own: the commands that wait, first in, first out (log 1). -/
  pending : List Instr
deriving DecidableEq, Repr

/-! ### Reset values -/

/-- R271 at power-on. -/
def TimeSt.reset : TimeSt :=
  { now := 0, epochBase := 0, epochAt := 0, running := false, slip := 0, hiLatch := 0, role := 0, periodMs := 4,
    upstream := 0, offset := 0, asym := 0, locked := true, lost := 0, exch := none, exchAt := 0, pend := [],
    small := 0, frame0 := none, unsent := [], stamps := [] }

/-- R285, R320, R383, R391 to R394 at power-on. -/
def CtlSt.reset : CtlSt :=
  { strapInst := 0, strapMfr := 0, irqMask := 0xF, lock := false, permits := 0xF, tag := 0, tagWritten := false,
    viol := 0, violValid := false, violAddr := 0, bitProfile := 0, clockProfile := 0, bitHi := 0, clockHi := 0,
    profValid := false, changes := 0, islBusy := false, islDone := false, islCode := 0, islNow := 0, islOrder := 0, islStarted := false, islMore := [],
    notifyValid := false, notifyDest := 0, rspCode := 0, rspData := 0, ymbWait := none, pickData := 0 }

/-- R320 at power-on. -/
def QuenchSt.reset : QuenchSt :=
  { record := [], valid := false, unread := false, lost := 0, seq := 0, word := 0, mbox := [], mboxPtr := 0,
    mboxDrops := 0, waiting := [] }

/-- Image values before boot step 4 read 0 (R9). -/
def ImageCfg.reset : ImageCfg :=
  { ownId := 0, stewardRid := 0, repair := 0, reimageEn := false, clockPlan := [], bitDefaults := [] }

/-- Nothing discovered. -/
def NvmInfo.reset : NvmInfo := { density := 0, quad := false, read := 0, dummy := 0, erase := [], addr4 := .none }

/-- R344 at power-on, yx_por_n low (R377). -/
def BootSt.reset : BootSt :=
  { state := .por, porLow := true, warmLow := false, assertAt := 0, scan := false, since := 0, step := 1, slot := false, slow := false, sealBroken := false,
    compA := 0xF, compB := 0xF, reasonA := 0, reasonB := 0, serial := 0, cfgVer := 0, trnVer := 0, seqVer := 0,
    trnIfrev := 0, seqBootVer := 0, seqBootCrc := 0, region := 0, sfdpDone := false, nvm := .reset, comps := [], bytes := [],
    cfg := .reset, scrub := false, scrubbed := false, zeroizing := false, zeroAt := none }

/-- R344 at power-on. -/
def SeqSt.reset : SeqSt :=
  { standby := .ready, activeId := false, ifrev := 0, takeovers := 0, reloads := 0, fatal := false, fails := 0,
    stagedVer := 0, stagedIfrev := 0, loadVer := 0, loadIfrev := 0, stage := none, hold := none, reload := false }

/-- R344 at power-on; the instruction after test-logic reset is IDCODE (R375). -/
def ProvSt.reset : ProvSt :=
  { state := 0, tapOpen := false, lastClose := 0, sessions := 0, enHigh := false, sealOpen := false, requestedAt := 0, nvmAddr := 0,
    page := List.replicate 256 0xFF, busy := none, err := false, eraseLog2 := 0, closeAfter := none, tapInstr := 0x01,
    bistHrt := none, bistSram := none, boundary := .zero, bypass := false }

/-- R357 at power-on. -/
def PowerSt.reset : PowerSt :=
  { on := 0, aligned := 0, weldAligned := false, ctlAligned := false, waking := 0, woken := 0, retries := [], idleUs := 0,
    autoTrace := false, autoHearth := false, autoAnvil := false, minAnvil := 0, hystC := 0, duty := 0, critC := 0,
    throttleC := 0, level := 0, hottest := 0, hotTemp := 0, throttleUs := 0, sensorSel := 0,
    temps := List.replicate 26 0, maxs := List.replicate 26 0, wakes := 0, alignRetries := 0, event := 0,
    coolSince := none, anvilIdle := 0, hearthIdle := 0, alignFrom := [] }

/-- R228 at power-on. -/
def RouteSt.reset : RouteSt :=
  { bank0 := [], bank1 := [], activeBank := false, hold := none, swap := none, forceUntil := none, tblStandby := false,
    tblIndex := 0, keyPort := 0, keyWord := 0, noroute := 0, portdown := 0, kindDrop := 0, swapDrop := 0, keys := [],
    circ := [] }

/-- R228, R256 at power-on. -/
def PortReg.reset : PortReg :=
  { st := .detect, qreason := 0, laneUse := 0, other := 0, attempt := 0, event := false, width := 0,
    reprobeMs := 0x03E8, enable := true, peerValid := false, peerId := 0, peerPort := 0, plan := 0, rtt := 0,
    corr := 0, uncorr := 0, discard := 0, replays := 0, adjust := 0, auditErr := 0, keyIn := 0, keyOut := 0,
    creditVc := 0, creditClass := 0 }

/-- A transmit side that has sent nothing. -/
def PortTx.reset : PortTx :=
  { queue := [], kept := [], resend := [], nextSeq := 0, last := none, slotNow := 0, wheel := [], credit := [],
    returned := [], received := [], rrClass := 0, auditNext := 0, period := 0, rttFrom := none, progressAt := 0,
    replayFseq := none }

/-- A receive side that has received nothing. -/
def PortRx.reset : PortRx :=
  { buf := [], stale := [], ents := [], inbox := [], rets := [], e := 0, lastGood := 0, x32 := false, slow := [], pools := [], part := [], frames := [] }

/-- No training has begun. -/
def PortTrain.reset : PortTrain :=
  { sig := 0, marked := 0, lane := [], misses := [], badRun := [], partnerOk := 0, partnerUse := 0, sendAgreed := false,
    partnerAgreed := false, verdict := 0, partnerVerdict := 0, sendReady := false, partnerReady := false, chunks := 0,
    partnerAllot := [], allot := [], offer := [], seen := false, gap := false, single := false, since := 0, restore := false,
    use := 0, swapDone := false }

/-- No interval counts. -/
def PortTele.reset : PortTele := { sent := 0, frames := 0, rxMax := 0, stall := 0, replays := 0 }

/-- A port at power-on. -/
def Port.reset : Port := { reg := .reset, tx := .reset, rx := .reset, tr := .reset, te := .reset }

/-- A FREE partition with its per-partition registers at their reset values (R271, R289, R320, R198). -/
def Part.free : Part :=
  { state := .free, key := 0, gen := 0, cls := 0, asid := 0, requester := 0, bitmap := [], qbase := 0, qcount := 0,
    bbase := 0, bcount := 0, weldPorts := 0, quota := {}, crash := 0, wdogUs := 0x2710, pauseCap := 0x03E8,
    instep := 0, samples := 0, lastReset := none, haltAt := none }

/-- A queue page at its reset values (R155). -/
def Queue.reset : Queue :=
  { st := .unassigned, enable := false, hold := false, cfgErr := false, reason := 0, head := 0, tail := 0, base := 0, log2 := 0,
    weight := 0, burst := 0, pendTail := none, pendInval := false, credit := 0, cache := [], fetching := [],
    under := [], ready := none, cmplWait := false, cmplPa := 0, cmplPage := (0, 0), heats := [], bad := [] }

/-- A clean barrier object (R257). -/
def Bar.clean : Bar := { count := 0, target := 0, armed := false, held := false, releases := 0 }

/-- R271, R320, R396 at power-on. -/
def TngSt.reset : TngSt :=
  { dbReject := 0, dbValid := false, dbCause := 0, dbRid := 0, barOver := 0, barBadwr := 0, barHeld := 0,
    leftValid := false, leftCount := 0, leftFirst := 0, partSel := 0, useItem := 0, useQuota := false, abortQueue := 0,
    event := 0, slagBillet := 0, slagMem := 0, slagXlate := 0, tagDrop := 0, visit := 1, taken := 0, granted := 0,
    evts := [], evtLast := 0xFFF, evtNow := none, order := 0 }

/-- Empty tables. -/
def TngTbl.reset : TngTbl :=
  { parts := [], queues := [], plans := [], heats := [], tags := [], bars := [], released := [] }

/-- R84, R85, R135, R397 at power-on. -/
def HrtSt.reset : HrtSt :=
  { repair := 0, active := 0, diag := false, flagLane := 0, flagWords := [], reorderHolds := 0, slots := [],
    ingots := [], scrub := [], corr := 0, uncorr := 0, logValid := false, logPatrol := false, logBank := 0,
    logStripe := 0, logWord := 0, patrol := true, patrolLine := 0, patrolAt := 0, resetting := false, upsets := [] }

/-- R198, R383 at power-on. -/
def WldSt.reset : WldSt :=
  { partSel := 0, faults := 0, fails := 0, level := 0, heldCycles := 0, noTag := 0, short_ := 0, long_ := 0,
    memPick := 0, memData := 0, memFetch := 0, memOther := 0, mem := [], issued := [], heldIn := [], turn := 0, xturn := 0, pturn := 0, xl := [], pick := [], cache := [], pins := [],
    invs := [], acks := 0, late := [], out := [] }

/-- R228, R285 at power-on. -/
def TrcSt.reset : TrcSt :=
  { enable := false, replay := false, all := false, part := 0, base := 0, log2 := 0x10, active := false, full := false,
    incomplete := false, diverged := false, count := 0, drop := 0, divReason := 0, divIndex := 0, queue := [],
    runs := [], xl := [], asking := none, pendWrite := 0, issued := 0, gap := none, t0 := 0, entries := [],
    readNext := 0, time0 := 0, readAll := false, met := [], runEnds := [], pendAt := 0, telePend := 0, teleEnable := false,
    teleInterval := 0x64, teleValid := false, teleDest := 0, teleDrop := 0, sample := 0, teleAt := 0,
    sampled := [] }

/-- The block at power-on, before POR_RELEASE: every register at the value of its table (R9), yx_por_n low. -/
def State.reset : State :=
  { time := .reset, ctl := .reset, quench := .reset, boot := .reset, seq := .reset, prov := .reset, power := .reset,
    route := .reset, ports := [], tng := .reset, tab := .reset, hrt := .reset, wld := .reset, trc := .reset,
    freeCtr := 0, pending := [] }

end Sys2Proof.Machine
end

