-- ==== Sys2Proof/Machine/Ops.lean ====
section
/-! DEFINITION. Named operations over the state that every family uses: table access, time, register responses, counters,
allocation of contexts, tags and ingots, route lookup and injection of billets, generation checks. -/

namespace Sys2Proof.Machine

/-- What a command comes to. -/
abbrev Out := Host.Outcome State Fault Refusal

/-! ### Table access -/

/-- Port `p`, 0 to 39. -/
def State.port (s : State) (p : Nat) : Port := Tbl.get Port.reset s.ports p
/-- Replace port `p`. -/
def State.setPort (s : State) (p : Nat) (v : Port) : State := { s with ports := Tbl.set Port.reset s.ports p v }
/-- Change port `p`. -/
def State.modPort (s : State) (p : Nat) (f : Port → Port) : State := s.setPort p (f (s.port p))
/-- Partition `i`. -/
def State.part (s : State) (i : Nat) : Part := Tbl.get Part.free s.tab.parts i
/-- Replace partition `i`. -/
def State.setPart (s : State) (i : Nat) (v : Part) : State :=
  { s with tab := { s.tab with parts := Tbl.set Part.free s.tab.parts i v } }
/-- Change partition `i`. -/
def State.modPart (s : State) (i : Nat) (f : Part → Part) : State := s.setPart i (f (s.part i))
/-- Queue `q`. -/
def State.queue (s : State) (q : Nat) : Queue := Tbl.get Queue.reset s.tab.queues q
/-- Replace queue `q`. -/
def State.setQueue (s : State) (q : Nat) (v : Queue) : State :=
  { s with tab := { s.tab with queues := Tbl.set Queue.reset s.tab.queues q v } }
/-- Change queue `q`. -/
def State.modQueue (s : State) (q : Nat) (f : Queue → Queue) : State := s.setQueue q (f (s.queue q))
/-- The heat in context `c`, if live. -/
def State.heat (s : State) (c : Nat) : Option Heat := Tbl.get none s.tab.heats c
/-- Replace the heat in context `c`. -/
def State.setHeat (s : State) (c : Nat) (h : Option Heat) : State :=
  { s with tab := { s.tab with heats := Tbl.set none s.tab.heats c h } }
/-- Change the heat in context `c`, if live. -/
def State.modHeat (s : State) (c : Nat) (f : Heat → Heat) : State := s.setHeat c ((s.heat c).map f)
/-- The plan in plan-table entry `k`. -/
def State.plan (s : State) (k : Nat) : Option Plan := Tbl.get none s.tab.plans k
/-- Replace plan-table entry `k`. -/
def State.setPlan (s : State) (k : Nat) (v : Option Plan) : State :=
  { s with tab := { s.tab with plans := Tbl.set none s.tab.plans k v } }
/-- Barrier object `b`. -/
def State.bar (s : State) (b : Nat) : Bar := Tbl.get Bar.clean s.tab.bars b
/-- Replace barrier object `b`. -/
def State.setBar (s : State) (b : Nat) (v : Bar) : State :=
  { s with tab := { s.tab with bars := Tbl.set Bar.clean s.tab.bars b v } }
/-- Flow tag `t`. -/
def State.tag (s : State) (t : Nat) : TagUse := Tbl.get .free s.tab.tags t
/-- Replace flow tag `t`. -/
def State.setTag (s : State) (t : Nat) (v : TagUse) : State :=
  { s with tab := { s.tab with tags := Tbl.set .free s.tab.tags t v } }
/-- Slot `k` of partition `p`. -/
def State.slot (s : State) (p k : Nat) : Option Slot := Tbl.get none s.hrt.slots (p * 65536 + k)
/-- Replace slot `k` of partition `p`. -/
def State.setSlot (s : State) (p k : Nat) (v : Option Slot) : State :=
  { s with hrt := { s.hrt with slots := Tbl.set none s.hrt.slots (p * 65536 + k) v } }
/-- Circuit table entry `i`. -/
def State.circ (s : State) (i : Nat) : Option Circ := Tbl.get none s.route.circ i
/-- Replace circuit table entry `i`. -/
def State.setCirc (s : State) (i : Nat) (v : Option Circ) : State :=
  { s with route := { s.route with circ := Tbl.set none s.route.circ i v } }

/-- The live heats, in context order. -/
def State.heatList (s : State) : List (Nat × Heat) :=
  s.tab.heats.filterMap fun e => e.2.map fun h => (e.1, h)

/-! ### Time (R264, R265) -/

/-- Picoseconds in a period of refclk, 6.4 ns. -/
def refPs : Nat := 6400
/-- Picoseconds in a microsecond. -/
def usPs : Nat := 1000000
/-- Picoseconds in a millisecond. -/
def msPs : Nat := 1000000000

/-- The epoch counter (R264). -/
def State.epoch (s : State) : W64 :=
  if s.time.running then BitVec.ofNat 64 (s.time.epochBase + (s.time.now - s.time.epochAt) / refPs) else 0

/-- Machine time in lclk units (R265). -/
def State.machineTime (s : State) : W64 :=
  s.epoch * 10 + BitVec.ofNat 64 (if s.time.running then (s.time.now - s.time.epochAt) % refPs / 640 else 0) +
    s.time.offset.signExtend 64

/-- Let time pass to `t` at least. -/
def State.advanceTo (s : State) (t : Nat) : State := { s with time := { s.time with now := max s.time.now t } }

/-- The time of the epoch counter, in ps. -/
def State.epochPs (s : State) : Nat :=
  if s.time.running then s.time.epochBase * refPs + (s.time.now - s.time.epochAt) else 0

/-- Go on to the next multiple of a period, by the epoch counter, that lies after `last` and is not past: what runs at a fixed phase of it
(R278). -/
def State.toPhase (s : State) (last period : Nat) : State :=
  s.advanceTo (s.time.now + (max (last / period + 1) (ceilDiv s.epochPs period) * period - s.epochPs))

/-- An alignment frame: 25 periods of refclk (R345). -/
def framePs : Nat := 25 * refPs

/-- The generators start at the first refclk edge from now on at which the epoch counter is a multiple of 25 (R347), once the
epoch runs; from then on frame edges follow, whatever corrects the epoch. -/
def State.startFrames (s : State) : State :=
  let t := s.time
  if t.running && t.frame0.isNone then
    let k := ceilDiv (t.now - t.epochAt) refPs
    { s with time := { t with frame0 := some (t.epochAt + (k + (25 - (t.epochBase + k) % 25) % 25) * refPs) } }
  else s

/-- The first frame edge at or after a time. -/
def TimeSt.frameEdge (t : TimeSt) (at_ : Nat) : Nat :=
  match t.frame0 with
  | some f => f + ceilDiv (at_ - f) framePs * framePs
  | none => at_

/-! ### Responses and counters -/

/-- Response codes of the YMB (R384). -/
def rspOkay : BitVec 2 := 0
def rspDenied : BitVec 2 := 1
def rspError : BitVec 2 := 2

/-- Answer a YMB access: a read that is not OKAY returns 0 (R384). The next access may come (R373). -/
def State.answer (s : State) (code : BitVec 2) (data : W32) : State :=
  { s with ctl := { s.ctl with rspCode := code, rspData := if code = rspOkay then data else 0, ymbWait := none } }

/-- Set bits of TNG_EVENT (R320). -/
def State.tngEvent (s : State) (m : BitVec 5) : State :=
  { s with tng := { s.tng with event := s.tng.event ||| m } }

/-- Set bits of PWR_EVENT (R357). -/
def State.pwrEvent (s : State) (m : BitVec 3) : State :=
  { s with power := { s.power with event := s.power.event ||| m } }

/-- Causes of TNG_DB_LAST (R396). -/
def causeOwner : BitVec 3 := 0
def causeBe : BitVec 3 := 1
def causeReserved : BitVec 3 := 2
def causeUnassigned : BitVec 3 := 3
def causeReplay : BitVec 3 := 4
def causeResetting : BitVec 3 := 5

/-- A pick-port access that has no effect: counted, with its cause and requester (R396). -/
def State.pickReject (s : State) (cause : BitVec 3) (rid : BitVec 16) : State :=
  { s with tng := { s.tng with
      dbReject := satInc s.tng.dbReject, dbValid := true, dbCause := cause, dbRid := rid } }

/-- Slag billets (R306). -/
def State.slagBillet (s : State) : State :=
  { s with tng := { s.tng with slagBillet := satInc s.tng.slagBillet } }

/-- A billet naming no live flow (R308). -/
def State.tagDrop (s : State) : State := { s with tng := { s.tng with tagDrop := satInc s.tng.tagDrop } }

/-- Drop counters of RTE_DROP (R228). -/
def State.dropNoroute (s : State) : State :=
  { s with route := { s.route with noroute := satInc s.route.noroute } }
def State.dropPortdown (s : State) : State :=
  { s with route := { s.route with portdown := satInc s.route.portdown } }
def State.dropKind (s : State) : State :=
  { s with route := { s.route with kindDrop := satInc s.route.kindDrop } }
def State.dropSwap (s : State) : State :=
  { s with route := { s.route with swapDrop := satInc s.route.swapDrop } }

/-! ### Partitions and keys -/

/-- The partition that holds a key at this engine (R306). -/
def State.partOfKey (s : State) (key : BitVec 12) : Option Nat :=
  (s.tab.parts.find? fun e => e.2.state ≠ .free && e.2.key = key).map Prod.fst

/-- The partition that holds queue `q`. -/
def State.partOfQueue (s : State) (q : Nat) : Option Nat :=
  (s.tab.parts.find? fun e => e.2.state ≠ .free && e.2.qbase ≤ q && q < e.2.qbase + e.2.qcount).map Prod.fst

/-- The partition that holds barrier object `b`. -/
def State.partOfBar (s : State) (b : Nat) : Option Nat :=
  (s.tab.parts.find? fun e => e.2.state ≠ .free && e.2.bbase ≤ b && b < e.2.bbase + e.2.bcount).map Prod.fst

/-- Slag (R306): no partition here holds the key, or its generation differs. -/
def State.isSlag (s : State) (b : Billet) : Bool :=
  match s.partOfKey b.key with
  | none => true
  | some i => (s.part i).gen ≠ b.gen

/-- The key passes at port `p` (R213). -/
def State.keyPasses (s : State) (p : Nat) (key : BitVec 12) : Bool :=
  key = 0 || Tbl.get false s.route.keys (p * 4096 + key.toNat)

/-- The endpoint is in the partition's bitmap (R27, R289). -/
def State.inBitmap (s : State) (part : Nat) (ep : BitVec 16) : Bool := (s.part part).bitmap.elem ep.toNat

/-- A partition counts as active for R83 (R290). -/
def PartState.isActive : PartState → Bool
  | .active | .resetting | .releasing => true
  | _ => false

/-! ### Quota use (R295, R320) -/

/-- Ingots of a slot. -/
def Slot.ingotCount (sl : Slot) : Nat := (sl.sets.map fun x => x.ingots.length).sum + sl.biasIngots.length

/-- What a partition uses now. -/
def State.use (s : State) (p : Nat) : Quota :=
  let sl := s.hrt.slots.filterMap fun e => if e.1 / 65536 = p then e.2 else none
  let hs := s.heatList.filter fun e => e.2.id.part = some p
  { ingots := (sl.map Slot.ingotCount).sum
    slots := sl.length
    plans := (s.tab.plans.filter fun e => match e.2 with
      | some x => x.part = p
      | none => false).length
    staging := (hs.map fun e => (e.2.dp.streams.filter (·.staged)).length).sum
    pins := (s.wld.pins.filter fun e => (s.heat e.2).any fun h => h.id.part = some p).length
    heats := hs.length
    tags := (s.tab.tags.filter fun e => match e.2 with
      | .recv c _ | .send c _ => (s.heat c).any fun h => h.id.part = some p
      | .held q _ => q = p
      | .free => false).length }

/-! ### Route lookup and injection (R205 to R208) -/

/-- What a lookup finds (R206). -/
inductive Lookup where
  | here
  | noroute
  | portdown
  | out (p : Nat) (dateline newring : Bool)
deriving DecidableEq, Repr

/-- The active bank, the standby bank. -/
def State.bank (s : State) (standby : Bool) : Tbl (BitVec 16) :=
  if s.route.activeBank != standby then s.route.bank1 else s.route.bank0

/-- Look up a destination (R205, R206). -/
def State.lookup (s : State) (dest : BitVec 16) : Lookup :=
  if dest = s.boot.cfg.ownId then .here
  else
    let e := Tbl.get (0 : BitVec 16) (s.bank false) dest.toNat
    let p := fieldN e 0 6
    if !bit e 15 || 40 ≤ p then .noroute
    else if (s.port p).reg.st.inService then .out p (bit e 14) (bit e 13) else .portdown

/-- The VC a billet leaves on (R208). -/
def nextVc (vc : BitVec 3) (dateline newring : Bool) : BitVec 3 :=
  let v := if newring then (if vc = 3 then 2 else if vc = 5 then 4 else vc) else vc
  if dateline then (if v = 2 then 3 else if v = 4 then 5 else v) else v

/-- The credit class of a key: that of the partition it names here, 0 where none does (R209). -/
def State.classOf (s : State) (key : BitVec 12) : Nat :=
  match s.partOfKey key with
  | some i => (s.part i).cls.toNat
  | none => 0

/-- Number of a (VC, class) pair (R232). -/
def pairOf (vc : BitVec 3) (cls : Nat) : Nat :=
  if vc = 0 then 0 else if vc = 1 then 1 else if vc = 6 then 2 else if vc = 7 then 3
  else 4 + 32 * (vc.toNat - 2) + cls

/-- VC and class of a pair. -/
def pairVc (k : Nat) : BitVec 3 :=
  if k = 0 then 0 else if k = 1 then 1 else if k = 2 then 6 else if k = 3 then 7
  else BitVec.ofNat 3 ((k - 4) / 32 + 2)
def pairCls (k : Nat) : Nat := if k < 4 then 0 else (k - 4) % 32

/-- The credit pair of a billet. -/
def State.pairOfBillet (s : State) (b : Billet) : Nat :=
  pairOf b.vc (if b.vc = 0 || b.vc = 1 || b.vc = 6 || b.vc = 7 then 0 else s.classOf b.key)

/-- Entries of the receive buffer that are occupied (R209). -/
def PortRx.occupied (r : PortRx) : Nat := r.buf.length + r.stale.length + r.ents.length

/-- Owe a credit of a pair: an entry of the receive buffer has become free (R209, R211). -/
def PortRx.owe (r : PortRx) (k : Nat) : PortRx :=
  { r with rets := if r.rets.any (fun e => e.1 = k) then r.rets.map fun e => if e.1 = k then (k, e.2 + 1) else e
                   else r.rets ++ [(k, 1)] }

/-- A credit is owed at a port for a billet. -/
def State.owe (s : State) (p : Nat) (b : Billet) : State :=
  let k := s.pairOfBillet b
  s.modPort p fun x => { x with rx := x.rx.owe k }

/-- An entry is free when no copy of its billet waits. -/
def PortRx.close (r : PortRx) (e : Ent) : PortRx :=
  let r' := { r with ents := r.ents.erase e }
  match e.pair with
  | some k => r'.owe k
  | none => r'

/-- A copy of a billet no longer waits where it did: with the last of them its entry is free, and its credit is owed (R209,
R219). -/
def PortRx.left (r : PortRx) (w : Option Nat × Billet) : PortRx :=
  match r.ents.find? fun e => e.outs.elem w with
  | none => r
  | some e =>
    let e' := { e with outs := e.outs.erase w }
    let r := { r with ents := r.ents.modify (r.ents.idxOf e) fun _ => e' }
    if e'.outs = [] then r.close e' else r

/-- Note that a billet of a VC was seen at a port, for the quiet interval of DRAIN_VC (R222). -/
def State.touchHold (s : State) (p : Nat) (vc : BitVec 3) : State :=
  match s.route.hold with
  | none => s
  | some h =>
    if bit h.vcs vc.toNat && bit h.ports p then
      { s with route := { s.route with hold := some { h with lastSeen := s.time.now } } }
    else s

/-- The VC under which the billet of an entry came in. -/
def Ent.vc (e : Ent) : BitVec 3 :=
  match e.pair with
  | some k => pairVc k
  | none => ((e.outs.head?).map fun x => x.2.vc).getD 0

/-- Billets have left the queue of output port `q`: those that came in at a port free its entries; until then they were buffered there
(R222). -/
def State.leftQueue (s : State) (q : Nat) (bs : List Billet) : State :=
  bs.foldl (fun s b => match s.ports.find? fun e => e.2.rx.ents.any fun n => n.outs.elem (some q, b) with
    | some e =>
      let vc := ((e.2.rx.ents.find? fun n => n.outs.elem (some q, b)).map Ent.vc).getD b.vc
      (s.modPort e.1 fun x => { x with rx := x.rx.left (some q, b) }).touchHold e.1 vc
    | none => s) s

/-- Put copies of the billet that came in last at a port into its entry. -/
def PortRx.note (r : PortRx) (w : Option Nat × Billet) : PortRx :=
  { r with ents := r.ents.modify (r.ents.length - 1) fun e => { e with outs := e.outs ++ [w] } }

/-- A copy that waited goes on under another form, or to another place, in the same entry. -/
def PortRx.move (r : PortRx) (w w' : Option Nat × Billet) : PortRx :=
  { r with ents := r.ents.modify (r.ents.findIdx fun e => e.outs.elem w) fun e => { e with outs := e.outs.erase w ++ [w'] } }

/-- A port runs at less than its full width, or is in RETRAIN (R250). -/
def Port.degraded (x : Port) : Bool :=
  x.reg.st = .retrain || (x.reg.st = .active && x.reg.width.toNat < 8)

/-- Queue a billet for an output port (R206). -/
def State.queueOut (s : State) (p : Nat) (b : Billet) : State :=
  (s.modPort p fun x => { x with tx := { x.tx with queue := x.tx.queue ++ [b] } }).touchHold p b.vc

/-- Place a NOTICE in the mailbox, or count it (R319). -/
def State.mailbox (s : State) (b : Billet) : State :=
  if fieldN b.seq 0 3 = 1 && s.quench.mbox.length < 32 then
    { s with quench := { s.quench with mbox := s.quench.mbox ++ [b.data] } }.tngEvent 0x10
  else { s with quench := { s.quench with mboxDrops := satInc s.quench.mboxDrops } }

/-- A DRAIN_VC hold keeps this billet from being injected (R222). -/
def State.heldBack (s : State) (b : Billet) : Bool :=
  match s.route.hold with
  | none => false
  | some h =>
    bit h.vcs b.vc.toNat &&
      match s.lookup b.dest with
      | .out p _ _ => bit h.ports p
      | _ => false

/-- Inject a billet of this engine: looked up once (R206). A billet that a hold keeps waits for its end (R222). A system
billet addressed to this engine itself is taken here. -/
def State.inject (s : State) (b : Billet) : State :=
  if s.heldBack b then
    { s with route := { s.route with hold := s.route.hold.map fun h => { h with waiting := h.waiting ++ [b] } } }
  else
    match s.lookup b.dest with
    | .here => if b.kind = 0xC then s.mailbox b else s
    | .noroute => s.dropNoroute
    | .portdown => s.dropPortdown
    | .out p dl nr => s.queueOut p { b with vc := nextVc b.vc dl nr }

/-- The hold in force ends: what it kept is injected (R222). -/
def State.endHold (s : State) : State :=
  match s.route.hold with
  | none => s
  | some h => h.waiting.foldl State.inject { s with route := { s.route with hold := none } }

/-! ### Ingots (R110, R116, R117, R133) -/

/-- The lowest `n` free ingots from `i` on, looking at `fuel` of them. -/
def freeFrom (t : Tbl Bool) : Nat → Nat → Nat → List Nat
  | 0, _, _ => []
  | _ + 1, _, 0 => []
  | fuel + 1, i, n + 1 => if Tbl.get false t i then freeFrom t fuel (i + 1) (n + 1) else i :: freeFrom t fuel (i + 1) n

/-- The lowest `n` free ingots. -/
def State.freeIngots (s : State) (n : Nat) : List Nat := freeFrom s.hrt.ingots 32768 0 n

/-- Ingots neither allocated nor awaiting scrub (R135). -/
def State.freeIngotCount (s : State) : Nat := 32768 - s.hrt.ingots.length

/-- Mark ingots allocated. -/
def State.takeIngots (s : State) (is : List Nat) : State :=
  { s with hrt := { s.hrt with ingots := is.foldl (fun t i => Tbl.set false t i true) s.hrt.ingots } }

/-- Release a slot: its ingots leave the charge at once and await scrub (R117, R133). -/
def State.releaseSlot (s : State) (p k : Nat) : State :=
  match s.slot p k with
  | none => s
  | some sl =>
    let is := (sl.sets.map fun x => x.ingots).flatten ++ sl.biasIngots
    let s := s.setSlot p k none
    { s with hrt := { s.hrt with scrub := s.hrt.scrub ++ is } }

/-! ### Watchdogs (R13, R195, R309) -/

/-- Stop a watchdog: what remains of it is kept. -/
def HeatRun.stopWdog (r : HeatRun) (now : Nat) : HeatRun :=
  if r.wdogStopped then r else { r with wdog := r.wdog - now, wdogStopped := true }

/-- Let a stopped watchdog run again. -/
def HeatRun.runWdog (r : HeatRun) (now : Nat) : HeatRun :=
  if r.wdogStopped then { r with wdog := now + r.wdog, wdogStopped := false } else r

/-- Re-arm a watchdog to its full period (R309): one that is stopped counts it from when it runs again. -/
def HeatRun.rearm (r : HeatRun) (now : Nat) : HeatRun :=
  { r with wdog := if r.wdogStopped then r.periodUs * usPs else now + r.periodUs * usPs }

/-! ### Reset inputs -/

/-- A reset input is asserted (R351, R377, R379). -/
def State.inReset (s : State) : Bool := s.boot.porLow || s.boot.warmLow || s.boot.scan

/-- yx_mgmt_ready: from boot step 7 until the next reset or zeroize (R359). Before that the Weld groups are closed. -/
def State.mgmtReady (s : State) : Bool := s.boot.state = .done && !s.inReset && !s.boot.scrub

/-! ### Free values -/

/-- Draw a free value: the counter that the model reads it with, and the state after. -/
def State.draw (s : State) : Nat × State := (s.freeCtr, { s with freeCtr := s.freeCtr + 1 })

/-- Record flags raised by operations of a heat in the diagnostic flag words (R82 to R85): the lane is a free value. -/
def State.captureFlags (s : State) (ctx : Nat) (f : Flags) : State :=
  if s.hrt.diag && f ≠ Flags.none then
    let r := s.draw
    let lane := (Config.flagLane r.1).toNat % 3072
    let old := Tbl.get { heat := 0, valid := false, flags := 0 } s.hrt.flagWords lane
    let new : FlagWord :=
      { heat := if old.valid then old.heat else BitVec.ofNat 12 ctx, valid := true, flags := old.flags ||| f.toBits }
    { r.2 with hrt := { r.2.hrt with
        flagWords := Tbl.set { heat := 0, valid := false, flags := 0 } s.hrt.flagWords lane new } }
  else s

/-- No sequencer runs (R342): steward work, and with it resets and releases, waits for the end of the reload, or stays stopped. -/
def State.seqStopped (s : State) : Bool := s.seq.reload || s.seq.fatal

/-- Clear ENABLE and every flag word (R83, R391). -/
def State.diagOff (s : State) : State := { s with hrt := { s.hrt with diag := false, flagWords := [] } }

/-- A steward operation is about to make a partition active: diagnostic mode, if it is on, ends first (R83). -/
def State.diagEnds (s : State) : State := if s.hrt.diag then s.diagOff else s

end Sys2Proof.Machine
end

