-- ==== Sys2Proof/Machine/Lanes.lean ====
section
/-! DEFINITION. The lanes of a link port below its frames (R229 to R234): the code RS(544,514) with one codeword stream per lane,
the scrambler, the payload of an alignment period, marker groups, striping and deskew, and frames as bytes of the port stream;
and the marker beat of a sibling port (R255). Conventions that R229 takes from the standard: log 58. -/

namespace Sys2Proof.Machine

/-! ### The symbol field: GF(2^10), x^10 + x^3 + 1 -/

/-- Twice an element. -/
def gfTwice (a : Nat) : Nat := if 1024 ≤ 2 * a then (2 * a).xor 0x409 else 2 * a

/-- Product of two elements. -/
def gfMul (a b : Nat) : Nat :=
  [9, 8, 7, 6, 5, 4, 3, 2, 1, 0].foldl (fun r k => (gfTwice r).xor (if b.testBit k then a else 0)) 0

/-- α to a power. -/
def gfExp : Nat → Nat
  | 0 => 1
  | n + 1 => gfTwice (gfExp n)

/-- The inverse of an element: its power 1,022. -/
def gfInv (a : Nat) : Nat :=
  [true, true, true, true, true, true, true, true, true, false].foldl
    (fun r (k : Bool) => if k then gfMul (gfMul r r) a else gfMul r r) 1

/-- A polynomial, lowest coefficient first, at a point. -/
def polyAt (p : List Nat) (x : Nat) : Nat := p.foldr (fun c r => (gfMul r x).xor c) 0

/-- Sum of two polynomials. -/
def polyAdd : List Nat → List Nat → List Nat
  | [], q => q
  | p, [] => p
  | a :: p, b :: q => a.xor b :: polyAdd p q

/-- Product of two polynomials. -/
def polyMul (p q : List Nat) : List Nat := p.foldr (fun a r => polyAdd (q.map (gfMul a)) (0 :: r)) []

/-! ### RS(544,514) -/

/-- The generator polynomial: roots α^0 to α^29. -/
def rsGen : List Nat := (List.range 30).foldl (fun g j => polyMul g [gfExp j, 1]) [1]

/-- The generator below its leading term, highest coefficient first. -/
def rsTaps : List Nat := (rsGen.take 30).reverse

/-- The 30 parity symbols of 514 message symbols, in the order sent. -/
def rsParity (msg : List Nat) : List Nat :=
  msg.foldl (fun r m =>
    let f := m.xor (r.headD 0)
    List.zipWith (fun a g => a.xor (gfMul f g)) (r.tail ++ [0]) rsTaps) (List.replicate 30 0)

/-- The syndromes of 544 received symbols. -/
def rsSyndromes (r : List Nat) : List Nat :=
  (List.range 30).map fun j =>
    let x := gfExp j
    r.foldl (fun a c => (gfMul a x).xor c) 0

/-- The error locator that the syndromes yield (Berlekamp and Massey): the locator and its length, the last locator before a
change of length with its discrepancy, and the steps since. -/
structure Locator where
  c : List Nat
  b : List Nat
  len : Nat
  gap : Nat
  disc : Nat

/-- One step of the search. -/
def Locator.step (syn : List Nat) (x : Locator) (n : Nat) : Locator :=
  let d := (List.range (x.len + 1)).foldl (fun a i => a.xor (gfMul (x.c.getD i 0) (syn.getD (n - i) 0))) 0
  if d = 0 then { x with gap := x.gap + 1 }
  else
    let c := polyAdd x.c (List.replicate x.gap 0 ++ x.b.map (gfMul (gfMul d (gfInv x.disc))))
    if 2 * x.len ≤ n then { c := c, b := x.c, len := n + 1 - x.len, gap := 1, disc := d }
    else { x with c := c, gap := x.gap + 1 }

/-- The locator of all 30 syndromes. -/
def rsLocator (syn : List Nat) : Locator :=
  (List.range 30).foldl (Locator.step syn) { c := [1], b := [1], len := 0, gap := 1, disc := 1 }

/-- Every second coefficient of a polynomial's derivative is left in characteristic 2. -/
def polyDeriv : List Nat → List Nat
  | [] => []
  | [_] => []
  | [_, b] => [b]
  | _ :: b :: t => b :: 0 :: polyDeriv t

/-- Correct 544 received symbols (R234): the codeword with at most 15 symbols changed, and how many were; `none` where there is
none. -/
def rsDecode (r : List Nat) : Option (List Nat × Nat) :=
  let syn := rsSyndromes r
  if syn.all (· = 0) then some (r, 0)
  else
    let l := rsLocator syn
    let inv (k : Nat) : Nat := gfExp ((1023 - (543 - k)) % 1023)
    let at_ := (List.range 544).filter fun k => polyAt l.c (inv k) = 0
    let om := (polyMul syn l.c).take 30
    let dv := polyDeriv l.c
    let fix (k : Nat) : Nat := gfMul (gfExp (543 - k)) (gfMul (polyAt om (inv k)) (gfInv (polyAt dv (inv k))))
    let y := at_.foldl (fun y k => y.modify k fun c => c.xor (fix k)) r
    if l.len ≤ 15 && at_.length = l.len && (rsSyndromes y).all (· = 0) then some (y, at_.length) else none

/-- Symbols of 10 bits, the first in the low bits. -/
def symbolsOf (n count : Nat) : List Nat := (List.range count).map fun k => n / 2 ^ (10 * k) % 1024

/-- The number that symbols spell, the first in the low bits. -/
def ofSymbols (ss : List Nat) : Nat := ss.foldr (fun a r => a + 1024 * r) 0

/-- The codeword of 5,440 bits that carries 5,140 payload bits. -/
def rsEncode (payload : Nat) : Nat :=
  let m := symbolsOf payload 514
  ofSymbols (m ++ rsParity m)

/-! ### A period of one lane (R231) -/

/-- The number that words of 256 bits spell, the first in the low bits. -/
def ofWords (ws : List (BitVec 256)) : Nat := ws.foldr (fun w r => w.toNat + 2 ^ 256 * r) 0

/-- Words of 256 bits of a number, the first from the low bits. -/
def wordsOf : Nat → Nat → List (BitVec 256)
  | _, 0 => []
  | n, k + 1 => BitVec.ofNat 256 n :: wordsOf (n / 2 ^ 256) k

/-- The scrambler x^58 + x^39 + 1 for some bits: what it gives, bit 0 first, and its state after. Its output is the sum that it feeds
back, of stages 39 and 58, and not its last stage (PRESUMED, log 58; R231 gives the polynomial and the state alone). -/
def scramBits : Nat → Nat → Nat × Nat
  | st, 0 => (0, st)
  | st, k + 1 =>
    let o := b2n (st.testBit 38 != st.testBit 57)
    let r := scramBits (2 * st % 2 ^ 58 + o) k
    (o + 2 * r.1, r.2)

/-- Data words scrambled, or descrambled, from a state on. -/
def scramFrom : Nat → List (BitVec 256) → List (BitVec 256)
  | _, [] => []
  | st, w :: ws =>
    let r := scramBits st 256
    (w ^^^ BitVec.ofNat 256 r.1) :: scramFrom r.2 ws

/-- The data words of a period, whose scrambler starts with every bit set. -/
def scramble (ws : List (BitVec 256)) : List (BitVec 256) := scramFrom (2 ^ 58 - 1) ws

/-- The 1,360 PMA words of a period: the marker group and 1,280 data words, coded. -/
def periodWords (group data : List (BitVec 256)) : List (BitVec 256) :=
  let payload := ofWords (group ++ scramble data)
  wordsOf ((List.range 64).foldr (fun k r => rsEncode (payload / 2 ^ (5140 * k) % 2 ^ 5140) + 2 ^ 5440 * r) 0) 1360

/-- What a decoded period shows: codewords corrected, which were uncorrectable, and its 1,285 payload words with whether a bit of
each came from an uncorrectable codeword. -/
structure Decoded where
  corr : Nat
  bad : List Bool
  words : List (BitVec 256 × Bool)

/-- Decode the PMA words of a period (R231, R234). The payload of an uncorrectable codeword stands as received. -/
def decodePeriod (ws : List (BitVec 256)) : Decoded :=
  let n := ofWords ws
  let cs := (List.range 64).map fun k =>
    let c := n / 2 ^ (5440 * k) % 2 ^ 5440
    (c, rsDecode (symbolsOf c 544))
  let payload := cs.foldr (fun (c : Nat × Option (List Nat × Nat)) r =>
    (match c.2 with
      | some (y, _) => ofSymbols (y.take 514)
      | none => c.1 % 2 ^ 5140) + 2 ^ 5140 * r) 0
  let bad := cs.map fun c => c.2.isNone
  let plain := wordsOf payload 1285
  { corr := (cs.filter fun c => c.2.any fun y => decide (0 < y.2)).length
    bad := bad
    words := (plain.take 5 ++ scramble (plain.drop 5)).zipIdx.map fun w =>
      (w.1, bad.getD (256 * w.2 / 5140) false || bad.getD ((256 * w.2 + 255) / 5140) false) }

/-! ### Marker groups (R232) -/

/-- One audit entry. -/
structure Audit where
  vc    : BitVec 3
  cls   : BitVec 5
  valid : Bool
  total : BitVec 16
deriving DecidableEq, Repr

/-- What a boundary shows of one lane: the PHY lane, the LANE that it carries, whether a marker group was found with its LANE_USE,
PERIOD and audits, codewords corrected, and which codewords were uncorrectable. -/
structure Marker where
  phy     : Nat
  lane    : Nat
  found   : Bool
  laneUse : Byte
  period  : BitVec 16
  audits  : List Audit
  corr    : Nat
  bad     : List Bool
deriving DecidableEq, Repr

/-- PATTERN. -/
def markPattern : W64 := 0x9C3E5A71C4D2B86F

/-- An audit entry as 32 bits. -/
def Audit.word (a : Audit) : Nat := a.vc.toNat * 2 ^ 29 + a.cls.toNat * 2 ^ 24 + b2n a.valid * 2 ^ 16 + a.total.toNat

/-- An audit entry of 32 bits. -/
def Audit.of (x : W32) : Audit := { vc := field x 29 3, cls := field x 24 5, valid := bit x 16, total := field x 0 16 }

/-- The five words of a marker group. -/
def markerGroup (lane : Nat) (use : Byte) (period : BitVec 16) (audits : List Audit) : List (BitVec 256) :=
  assemble 256 [(markPattern.toNat, 192), (lane, 184), (use.toNat, 176), (period.toNat, 160)] ::
    (List.range 4).map fun w => assemble 256 ((List.range 8).map fun k => (((audits[8 * w + k]?).map Audit.word).getD 0, 32 * k))

/-- The marker group of five words; `none` where PATTERN is not there. -/
def readGroup (phy : Nat) (ws : List (BitVec 256)) : Option Marker :=
  let w := ws.getD 0 0
  if field w 192 64 = markPattern then
    some { phy := phy, lane := fieldN w 184 3, found := true, laneUse := field w 176 8, period := field w 160 16
           audits := (List.range 32).map fun k => Audit.of (field (ws.getD (1 + k / 8) 0) (32 * (k % 8)) 32)
           corr := 0, bad := [] }
  else none

/-- What a decoded period shows of its lane; `lane` is what the PHY lane is known to carry, where no group tells. -/
def Decoded.marker (d : Decoded) (phy lane : Nat) : Marker :=
  let none_ : Marker :=
    { phy := phy, lane := lane, found := false, laneUse := 0, period := 0, audits := [], corr := d.corr, bad := d.bad }
  if d.bad.headD false then none_
  else match readGroup phy ((d.words.take 5).map Prod.fst) with
    | some m => { m with corr := d.corr, bad := d.bad }
    | none => none_

/-! ### The port stream (R233) -/

/-- 200 ns, the skew between lanes that the receiver tolerates. -/
def skewPs : Nat := 200000

/-- The data words of the lanes, in ascending lane number, as one stream: word k from the lane of rank k mod W. -/
def interleave (lanes : List (List (BitVec 256 × Bool))) : List (BitVec 256 × Bool) :=
  (List.range 1280).flatMap fun k => lanes.map fun l => l.getD k (0, true)

/-- The words of a stream on the lane of rank `r` of `w`. -/
def laneWords (w r : Nat) (ws : List (BitVec 256)) : List (BitVec 256) := (ws.zipIdx.filter fun x => x.2 % w = r).map Prod.fst

/-- Bytes of the port stream, each with whether it came from an uncorrectable codeword. -/
def streamBytes (ws : List (BitVec 256 × Bool)) : List (Byte × Bool) := ws.flatMap fun w => (toBytes w.1 32).map fun b => (b, w.2)

/-! ### Frames as bytes (R199, R204) -/

/-- Bytes of a billet: header and payload, little-endian (R199). -/
def billetBytes (b : Billet) : List Byte :=
  toBytes (assemble 64 [(b.dest.toNat, 48), (b.key.toNat, 36), (b.kind.toNat, 32), (b.vc.toNat, 29), (b.gen.toNat, 25),
    (b.tag.toNat, 13), (b.seq.toNat, 0)]) 8 ++ toBytes b.data 64

/-- The billet of 72 bytes. -/
def billetOf (bs : List Byte) : Billet :=
  let h : W64 := leWord 64 (bs.take 8)
  { dest := field h 48 16, key := field h 36 12, kind := field h 32 4, vc := field h 29 3, gen := field h 25 4
    tag := field h 13 12, seq := field h 0 13, data := leWord 512 (bs.drop 8) }

/-- The 296 bytes of a frame. -/
def frameBytes (f : Frame) : List Byte :=
  f.pos.flatMap billetBytes ++
    toBytes (assemble 64 [(f.fseq.toNat, 52), (f.ack.toNat, 40), (f.credit.toNat, 24), (f.crc.toNat, 0)]) 8

/-- The frame of 296 received bytes (R234). -/
def frameOf (bs : List (Byte × Bool)) : Frame :=
  let b := bs.map Prod.fst
  let t : W64 := leWord 64 ((b.drop 288).take 8)
  { pos := (List.range 4).map fun k => billetOf ((b.drop (72 * k)).take 72)
    fseq := field t 52 12, ack := field t 40 12, credit := field t 24 16, crc := field t 0 24, fecBad := bs.any Prod.snd }

/-- Cut frames off a stream of bytes: the frames, and the bytes of the one not yet whole. -/
def cutFrames : Nat → List (Byte × Bool) → List Frame × List (Byte × Bool)
  | 0, bs => ([], bs)
  | n + 1, bs =>
    if bs.length < 296 then ([], bs)
    else
      let r := cutFrames n (bs.drop 296)
      (frameOf (bs.take 296) :: r.1, r.2)

end Sys2Proof.Machine
end

