-- ==== Sys2Proof/Machine/Merge.lean ====
section
/-! DEFINITION. The merges of SOFTMAX_MERGE and TOPK (06), and ROWSTAT (R129). -/

namespace Sys2Proof.Machine

/-- diff (R143): equal operands give +0. -/
def smDiff (mi mn : W32) : W32 × Flags := if mi = mn then (0, {}) else anvilAdd mi (negW mn) .rne 0

/-- softmax_merge (R143) of a present incoming triple into a present running triple, with the flags of each operation. -/
def softmaxMerge (m l : W32) (o : List W32) (m2 l2 : W32) (o2 : List W32) : (W32 × W32 × List W32) × List Flags :=
  let mx := anvilMax m m2
  if isNan mx.1 then ((nanW, nanW, o.map fun _ => nanW), [mx.2])
  else
    let da := smDiff m mx.1
    let db := smDiff m2 mx.1
    let a := anvilExp da.1
    let b := anvilExp db.1
    let fma (x2 x : W32) : W32 × Flags :=
      let p := anvilMul x a.1
      let r := anvilFma x2 b.1 p.1
      (r.1, p.2.or r.2)
    let nl := fma l2 l
    let no := (o2.zip o).map fun e => fma e.1 e.2
    ((mx.1, nl.1, no.map Prod.fst), [mx.2, da.2, db.2, a.2, b.2, nl.2] ++ no.map Prod.snd)

/-- Record `x` ranks before record `y` by items 1 to 3 of R146: (value, position). -/
def topkBefore (x y : W32 × W32) : Bool :=
  if isNan x.1 then !isNan y.1 || decide (x.2 < y.2)
  else if isNan y.1 then false
  else if orderKey x.1 = orderKey y.1 then decide (x.2 < y.2)
  else decide (orderKey y.1 < orderKey x.1)

/-- Merge two lists, each best first; of records that rank equal the running list's goes first (R146, R148). -/
def topkMerge (run : List (W32 × W32)) : List (W32 × W32) → List (W32 × W32)
  | [] => run
  | y :: t =>
    let before := run.takeWhile fun x => !topkBefore y x
    let after := run.dropWhile fun x => !topkBefore y x
    before ++ y :: topkMerge after t

/-- Keep the best `k` of the union (R148). -/
def topkKeep (k : Nat) (run inc : List (W32 × W32)) : List (W32 × W32) := (topkMerge run inc).take k

/-- This rank's candidates of a row (R147): present values with their positions. -/
def topkOwn (k : Nat) (cands : List (W32 × W32)) : List (W32 × W32) :=
  cands.foldl (fun l c => topkKeep k l [c]) []

/-- Row maximum and sum over the elements as written (R129), with the flags of each operation: `none` for a masked element. -/
def rowStat (vs : List (Option W32)) : (W32 × W32) × List Flags :=
  let xs := vs.filterMap id
  let m := xs.foldl (fun a v => let r := anvilMax a.1 v; (r.1, a.2 ++ [r.2])) (negInf, ([] : List Flags))
  let s := xs.foldl (fun a v =>
    let d := anvilAdd v (negW m.1) .rne 0
    let e := anvilExp d.1
    let r := anvilAdd a.1 e.1 .rne 0
    (r.1, a.2 ++ [d.2, e.2, r.2])) ((0 : W32), m.2)
  ((m.1, s.1), s.2)

end Sys2Proof.Machine
end

