-- ==== Sys2Proof/Machine/Operands.lean ====
section
/-! DEFINITION. Descriptor chains: the fields of entries (R167 to R172), the checks of R173 in their order, and the
parameters of each kind (R21, R170, R291 to R302, R222, R223, R246, R340, R341). -/

namespace Sys2Proof.Machine

/-- Word `i` of an entry (R167). -/
def entWord (e : Payload) (i : Nat) : W64 := field e (64 * i) 64

/-- FIRST of an entry (R168, R171). -/
def entFirst (e : Payload) : Bool := bit e 8
/-- LAST of an entry. -/
def entLast (e : Payload) : Bool := bit e 9
/-- The type of an extension entry (R171). -/
def entType (e : Payload) : Nat := fieldN e 0 8

/-- Reasons of malformed entries (R173). -/
def reasonDbRange : BitVec 4 := 1
def reasonDbBackward : BitVec 4 := 2
def reasonFetch : BitVec 4 := 3
def reasonChain : BitVec 4 := 4
def reasonKind : BitVec 4 := 5
def reasonCode : BitVec 4 := 6
def reasonReserved : BitVec 4 := 7
def reasonExtension : BitVec 4 := 8
def reasonParam : BitVec 4 := 9
def reasonCmpl : BitVec 4 := 10

/-- Step 1 of R173: FIRST only in the head, LAST only in the last of at most 16 entries. -/
def chainOk (es : List Payload) : Bool :=
  match es with
  | [] => false
  | h :: t =>
    entFirst h && t.all (fun e => !entFirst e) && es.length ≤ 16 &&
      ((es.getLast?).map entLast).getD false && (es.dropLast).all fun e => !entLast e

/-- DST_MODE or SRC_MODE (R169). -/
def modeOf (n : Nat) : Mode := if n = 0 then .none else if n = 1 then .linear else if n = 2 then .strided else .weld

/-- START (R118). -/
def startOf (n : Nat) : StartPol :=
  if n = 0 then .zero else if n = 1 then .bias else if n = 2 then .residual else .continue

/-- END (R119). -/
def endOf (n : Nat) : EndPol :=
  if n = 0 then .hold else if n = 1 then .drain else if n = 2 then .drainFree else .shadow

/-- Block size of a SIZE code (R97). -/
def blockSizeOf (n : Nat) : Nat := 8 * 2 ^ n

/-- The defined extension types (R171). -/
def extDefined (t : Nat) : Bool := (0x40 ≤ t && t ≤ 0x43) || (0x48 ≤ t && t ≤ 0x4F)

/-- Step 3 of R173: format, operation, rounding, block and extension codes are defined (R7). -/
def codesOk (es : List Payload) : Bool :=
  match es with
  | [] => false
  | h :: t =>
    (Fmt.ofCode (fieldN h 28 4)).isSome && (Fmt.ofCode (fieldN h 24 4)).isSome && fieldN h 16 4 ≤ 2 &&
      fieldN h 20 3 ≤ 2 && fieldN h 32 3 ≤ 5 && t.all fun e => extDefined (entType e)

/-- The head entry's coded fields. -/
def parseDesc (k : Kind) (h : Payload) : Desc :=
  let w := (Fmt.ofCode (fieldN h 24 4)).getD .fp32
  { kind := k, plan := fieldN h 48 8, dstMode := modeOf (fieldN h 46 2), srcMode := modeOf (fieldN h 44 2),
    expand := bit h 43, normalise := bit h 42, deliverAll := bit h 41, maskZero := bit h 40,
    endp := endOf (fieldN h 38 2), start := startOf (fieldN h 36 2), blockCol := bit h 35,
    blockSize := if w.isMx then blockSizeOf (fieldN h 32 3) else 1,
    outFmt := (Fmt.ofCode (fieldN h 28 4)).getD .fp32, wireFmt := w, ovf := if bit h 23 then .ieee else .sat,
    rnd := if fieldN h 20 3 = 1 then .rtz else if fieldN h 20 3 = 2 then .sr else .rne,
    op := if fieldN h 16 4 = 1 then .max else if fieldN h 16 4 = 2 then .min else .sum,
    rowstat := bit h 14, notify := bit h 13, assay := bit h 12, pin := bit h 11, fence := bit h 10 }

/-- The dimensions of a SRC_DIMS or DST_DIMS entry (R171): (count, stride), dimension 0 first; none where NDIM is not 1 to 5. -/
def parseDims (e : Payload) : List (Nat × Int) :=
  let nd := fieldN e (8 * 58) 3
  (List.range (if nd ≤ 5 then nd else 0)).map fun d =>
    (pAt e (8 + 10 * d) 4, (field e (8 * (12 + 10 * d)) 48).toInt)

/-- The extension entry of a type, if the chain has one. -/
def extOf (es : List Payload) (t : Nat) : Option Payload := es.tail.find? fun e => entType e = t

/-- The words of a chain. -/
def parseWords (h : Payload) (es : List Payload) : Words :=
  let x := (extOf es 0x43).getD 0
  let ext := ((extOf es 0x48).getD ((extOf es 0x49).getD 0))
  { count := fieldN h 96 32, slot := fieldN h 80 16, heatSeq := field h 64 16, src := entWord h 2, dst := entWord h 3,
    seed := entWord h 4, cmpl := entWord h 5, w6 := entWord h 6, w7 := entWord h 7,
    srcDims := ((extOf es 0x40).map parseDims).getD [], dstDims := ((extOf es 0x41).map parseDims).getD [],
    aux := ((extOf es 0x42).map fun e => entWord e 1).getD 0, xdst := entWord x 1,
    int4Table := (List.range 16).map fun i => byteAt x (16 + i), int4Scale := field x 256 32,
    int4Zp := fieldN x 288 4, ext1 := entWord ext 1, ext2 := entWord ext 2 }

/-! ### Which parameters a kind uses (R21, R412) -/

/-- Kinds that carry elements over flows. -/
def Kind.carries : Kind → Bool
  | .allreduce | .reduceScatter | .reduce | .allgather | .broadcast | .alltoall | .rotate | .topk | .softmax | .send
  | .recv | .partialWrite => true
  | _ => false

/-- Kinds that use OVF (R412). -/
def Kind.usesOvf (k : Kind) : Bool := k.carries || k = .drainSlot
/-- Kinds that use PIN (R412). -/
def Kind.usesPin (k : Kind) : Bool := k.carries || k = .drainSlot || k = .planLoad || k = .preload
/-- Kinds that use MASK_POLICY (R412). -/
def Kind.usesMask (k : Kind) : Bool := (k.carries && k ≠ .send) || k = .drainSlot
/-- Kinds that use SRC. -/
def Kind.usesSrc (k : Kind) : Bool :=
  (k.carries && k ≠ .recv) || k = .planLoad || k = .preload || k = .partCreate || k = .reimageStage
/-- Kinds that use DST. -/
def Kind.usesDst (k : Kind) : Bool := (k.carries && k ≠ .send) || k = .drainSlot
/-- Kinds that use COUNT. -/
def Kind.usesCount (k : Kind) : Bool :=
  (k.carries && k ≠ .recv && k ≠ .alltoall) || k = .preload || k = .reimageStage
/-- Kinds that use SLOT. -/
def Kind.usesSlot (k : Kind) : Bool := k.adding || k = .preload || k = .drainSlot
/-- Kinds that use ROOT, given DELIVER (R21). -/
def usesRoot (d : Desc) : Bool :=
  d.kind = .reduce || d.kind = .broadcast || ((d.kind = .topk || d.kind = .softmax) && !d.deliverAll)

/-- The bits of word 6 that a kind uses (R170, R222, R223, R246, R291 to R302, R341). -/
def word6Mask (d : Desc) : W64 :=
  let root : W64 := if usesRoot d then 0xFFFF else 0
  match d.kind with
  | .topk => root ||| 0x7FFFFF0000
  | .softmax => root ||| 0xFFFF0000
  | .alltoall => 0xFFFFFFFF00000000
  | .send => 0xFFFF
  | .recv => 0xFFFFFFFF0000FFFF
  | .rotate => 0x1FFFFFFFF
  | .partCreate => 0x11FFFFFFF
  | .partReset => 0x1FF
  | .keySet => 0x10FFF
  | .quotaSet => 0xFFFFFFFFFFFFFFFF
  | .routeSwap => 0xFFFF0001
  | .drainVc => 0xFFFFFFFF01FF
  | .cableAdopt => 0x13F3F
  | .reimageActivate => 0xFFFF
  | .planRevoke => 0x1FFFF
  | _ => root

/-- The bits of word 7 that a kind uses. -/
def word7Mask (d : Desc) : W64 :=
  match d.kind with
  | .allreduce | .reduceScatter | .reduce | .drainSlot => if d.rowstat then 0xFFFFFFFFFFFFFFFF else 0
  | .allgather | .broadcast | .partialWrite | .barrier => if d.rowstat then 0xFFFFFFFFFFFFFFFF else 0
  | .topk => 0xFFFFFFFFFFFFFFFF
  | .softmax => 0xFFFFFFFF
  | .alltoall | .recv | .rotate => 0xFFFFFFFFFFFFFFFF
  | .preload => if d.start = .bias then 0xFFFFFFFF else 0
  | .partCreate => 0xFFFFFFFF
  | .keySet | .drainVc => 0xFFFFFFFFFF
  | .quotaSet => 0x3FFFFFFFFFF
  | _ => 0

/-- A parameter that is not used is 0. -/
def unusedZero (used : Bool) (v : Nat) : Bool := used || v = 0

/-- Reserved bits of an extension entry are 0 (R171). -/
def extReservedOk (e : Payload) : Bool :=
  let t := entType e
  fieldN e 10 54 = 0 &&
    if t = 0x40 || t = 0x41 then
      let nd := fieldN e (8 * 58) 3
      fieldN e (8 * 58 + 3) 45 = 0 && (nd ≥ 5 || pAt e (8 + 10 * nd) (50 - 10 * nd) = 0)
    else if t = 0x42 then pAt e 16 48 = 0
    else if t = 0x43 then fieldN e (256 + 36) 28 = 0 && pAt e 40 24 = 0
    else if t = 0x48 then
      (entWord e 1) &&& 0x8000C000F000F000 = 0 && fieldN e (128 + 32) 32 = 0 && pAt e 24 40 = 0
    else if t = 0x49 then pAt e 16 48 = 0
    else true

/-- Step 4 of R173: reserved bits and unused parameters are 0. -/
def reservedOk (d : Desc) (h : Payload) (es : List Payload) : Bool :=
  let k := d.kind
  fieldN h 56 8 = 0 && !bit h 15 &&
  unusedZero (k.group || k = .planLoad || k = .planUnload) (fieldN h 48 8) &&
  unusedZero k.usesDst (fieldN h 46 2) && unusedZero k.usesSrc (fieldN h 44 2) &&
  unusedZero (k = .rotate) (fieldN h 43 1) && unusedZero (k = .softmax) (fieldN h 42 1) &&
  unusedZero (k = .topk || k = .softmax) (fieldN h 41 1) && unusedZero k.usesMask (fieldN h 40 1) &&
  unusedZero (k.adding || k = .preload || k = .drainSlot) (fieldN h 38 2) &&
  unusedZero (k.adding || k = .preload) (fieldN h 36 2) && unusedZero k.carries (fieldN h 32 4) &&
  unusedZero (k.carries || k = .drainSlot) (fieldN h 28 4) && unusedZero (k.carries || k = .preload) (fieldN h 24 4) &&
  unusedZero k.usesOvf (fieldN h 23 1) && unusedZero (k.adding || k = .drainSlot) (fieldN h 20 3) &&
  unusedZero (k.adding && k ≠ .topk && k ≠ .softmax) (fieldN h 16 4) && unusedZero (k.adding || k = .preload) (fieldN h 12 1) &&
  unusedZero k.usesPin (fieldN h 11 1) && unusedZero k.usesCount (fieldN h 96 32) &&
  unusedZero k.usesSlot (fieldN h 80 16) && unusedZero k.group (fieldN h 64 16) &&
  unusedZero k.usesSrc (fieldN h 128 64) && unusedZero k.usesDst (fieldN h 192 64) &&
  unusedZero ((k.adding || k = .drainSlot) && d.rnd = .sr) (fieldN h 256 64) &&
  unusedZero (bit h (384 + 32)) (if k = .rotate then fieldN h (384 + 18) 14 else 0) &&
  (entWord h 6 &&& ~~~(word6Mask d) = 0) && (entWord h 7 &&& ~~~(word7Mask d) = 0) &&
  es.tail.all extReservedOk

/-- The extension types a chain must hold (R172, R291, R294). -/
def requiredExts (d : Desc) (h : Payload) : List Nat :=
  (if d.srcMode = .strided then [0x40] else []) ++ (if d.dstMode = .strided then [0x41] else []) ++
  (if d.kind = .alltoall then [0x42] else []) ++ (if d.expand then [0x43] else []) ++
  (if d.kind = .partCreate then [0x48] else []) ++
  (if d.kind = .quotaSet && bit h (448 + 41) then [0x49] else [])

/-- Step 5 of R173: exactly the required extensions, in ascending type order (R172). -/
def extensionsOk (d : Desc) (h : Payload) (es : List Payload) : Bool := es.tail.map entType = requiredExts d h

/-! ### Step 6: ranges and combinations -/

/-- Host format (R92, R121). -/
def hostFmt (d : Desc) : Fmt :=
  match d.kind with
  | .rotate | .partialWrite | .preload => d.wireFmt
  | _ => d.outFmt

/-- Product of a list of counts. -/
def prodCnt (ds : List (Nat × Int)) : Nat := ds.foldl (fun a x => a * x.1) 1

/-- What the Count rule of R182 asks of a stream: an exact number, a nonzero multiple (R413), or nothing. -/
inductive CountRule where
  | eq (n : Nat)
  | mul (n : Nat)
  | free
deriving DecidableEq, Repr

/-- The rule holds of a count. -/
def CountRule.ok (r : CountRule) (c : Nat) : Bool :=
  match r with
  | .eq n => c = n
  | .mul n => c ≠ 0 && n ≠ 0 && c % n = 0
  | .free => true

/-- ROWS (R170). -/
def Words.rows (w : Words) : Nat := fieldN w.w6 16 16 + 1
/-- K of TOPK (R170). -/
def Words.k (w : Words) : Nat := fieldN w.w6 32 7
/-- ROW_LEN (R170). -/
def Words.rowLen (w : Words) : Nat := fieldN w.w7 0 32
/-- CAPACITY (R170). -/
def Words.capacity (w : Words) : Nat := fieldN w.w6 32 32
/-- ROOT or PEER (R170). -/
def Words.root (w : Words) : Nat := fieldN w.w6 0 16

/-- Element counts of SRC (R34, R182). A STRIDED SRC or DST of SOFTMAX_MERGE has dimensions of COUNT = ROWS × ROW_LEN elements: R34 speaks of
ROWS triples there, whose bytes no dimension counts (DESIGN CHOICE, log 76). -/
def srcCount (d : Desc) (w : Words) : CountRule :=
  match d.kind with
  | .reduceScatter => .mul w.count
  | .alltoall => .free
  | .preload => .eq (if d.start = .bias then w.rowLen else w.count)
  | _ => .eq w.count

/-- Element counts of DST (R34, R182). -/
def dstCount (d : Desc) (w : Words) : CountRule :=
  match d.kind with
  | .allgather | .partialWrite => .mul w.count
  | .alltoall | .recv => .eq w.capacity
  | .topk => .eq (w.rows * w.k)
  | .drainSlot => .free
  | _ => .eq w.count

/-- Lowest and highest byte address of a walk (R182, No wrap). -/
def walkSpan (base : Int) (esize : Nat) (ds : List (Nat × Int)) : Int × Int :=
  ds.foldl (fun r x =>
    let e := ((x.1 : Int) - 1) * x.2
    if e < 0 then (r.1 + e, r.2) else (r.1, r.2 + e)) (base, base + esize - 1)

/-- No self-overlap of a destination (R182). -/
def noOverlap (esize : Nat) : List (Nat × Int) → Bool
  | [] => true
  | (c, s) :: t =>
    decide (esize ≤ s.natAbs) &&
      match t with
      | [] => true
      | (_, s2) :: _ => decide (c * s.natAbs ≤ s2.natAbs) && noOverlap 0 t

/-- The element count of a WELD stream is below 2^32 (R182). -/
def CountRule.weldOk (r : CountRule) : Bool :=
  match r with
  | .eq n | .mul n => decide (n < 2 ^ 32)
  | .free => true

/-- The cursor rules of one region (R182). `fmt` is its host format; `n` the element count where it is fixed. -/
def regionOk (mode : Mode) (word : W64) (ds : List (Nat × Int)) (fmt : Fmt) (rule : CountRule) (dst : Bool)
    (weldPorts : W32) (bytes : Nat) : Bool :=
  match mode with
  | .none => word = 0
  | .linear => word.toNat % fmt.align = 0 && decide (word.toNat + bytes ≤ 2 ^ 64)
  | .strided =>
    !fmt.isPacked && ds.length ≥ 1 && ds.all (fun x => x.1 ≠ 0) && rule.ok (prodCnt ds) &&
      word.toNat % fmt.align = 0 && ds.all (fun x => x.2.natAbs % fmt.align = 0) &&
      (!dst || noOverlap fmt.bytes ds) &&
      (let r := walkSpan word.toNat fmt.bytes ds; decide (0 ≤ r.1 ∧ r.2 < 2 ^ 64))
  | .weld => fieldN word 21 43 = 0 && bit weldPorts (fieldN word 0 5) && rule.weldOk

/-- A dense walk (R136). -/
def dense (esize : Nat) (ds : List (Nat × Int)) : Bool :=
  match ds with
  | [] => false
  | (c, s) :: t => s = esize && (t.foldl (fun (r : Bool × Nat × Int) x =>
      (r.1 && x.2 = (r.2.1 : Int) * r.2.2, x.1, x.2)) (true, c, s)).1

/-- WIRE_FMT against OUT_FMT and the kind (R18, R93, R121, R124, R136). -/
def formatsOk (d : Desc) : Bool :=
  let small (f : Fmt) : Bool := f = .fp32 || f = .bf16 || f = .fp16
  (if d.kind = .preload then true else !(hostFmt d = .pair32) || d.wireFmt = .pair32 || d.kind = .drainSlot) &&
  match d.kind with
  | .allreduce | .reduceScatter | .reduce => d.wireFmt.addable && d.outFmt.plain
  | .allgather | .broadcast | .alltoall | .send | .recv =>
    if d.wireFmt.isInt4 then d.outFmt = d.wireFmt else d.outFmt.plain || d.outFmt = d.wireFmt
  | .rotate => d.outFmt = d.wireFmt
  | .partialWrite => small d.wireFmt && d.outFmt = .fp32
  | .topk | .softmax => small d.wireFmt && small d.outFmt
  | .drainSlot => d.outFmt.plain
  | .preload => small d.wireFmt || d.wireFmt = .int32 || (d.wireFmt = .pair32 && d.assay)
  | _ => true

/-- The dimensions of the region that fixes columns: SRC at a rank that reads it, else DST (R98). -/
def colDims (reads : Bool) (w : Words) : List (Nat × Int) := if reads then w.srcDims else w.dstDims

/-- D0, the element count of dimension 0 of the region that fixes columns (R98). -/
def colD0 (reads : Bool) (w : Words) : Nat :=
  match colDims reads w with
  | (c, _) :: _ => c
  | [] => 1

/-- Elements of a block group: n in row direction, n × D0 in column direction (R98). -/
def blockSpan (d : Desc) (w : Words) (reads : Bool) : Nat :=
  if d.blockCol then d.blockSize * colD0 reads w else d.blockSize

/-- R98 for the rank that reads SRC, or does not: whole blocks, and two dimensions under column direction. -/
def columnsOk (d : Desc) (w : Words) (reads : Bool) : Bool :=
  !(d.kind.carries && d.wireFmt.isMx) ||
    ((!d.blockCol || (colDims reads w).length ≥ 2) && decide (w.count % blockSpan d w reads = 0))

/-- BLOCK, INT4 and chunk rules (R35, R97, R98). Which region fixes the columns of a BROADCAST depends on ROOT (R416): here one of its two
regions must fit, and dispatch checks the one that this rank uses (R413, log 62). -/
def blocksOk (d : Desc) (w : Words) (h : Payload) : Bool :=
  (d.wireFmt.isMx || !d.kind.carries || fieldN h 32 4 = 0) &&
  (if d.kind = .broadcast then columnsOk d w true || columnsOk d w false else columnsOk d w d.kind.usesSrc) &&
  (!(d.kind.carries && d.wireFmt.isInt4) || w.count % 2 = 0)

/-- Rules of the adding kinds (R23, R118, R119, R136). -/
def addingOk (d : Desc) (w : Words) : Bool :=
  let rich := d.kind = .topk || d.kind = .softmax
  !(d.assay && d.op ≠ .sum) && !(d.wireFmt = .pair32 && !d.assay) && !(d.assay && rich) &&
  !(d.rnd = .sr && (d.assay || d.op ≠ .sum)) &&
  (!rich || ((d.start = .zero || d.start = .continue) && d.rnd ≠ .sr && d.op = .sum &&
    (if d.kind = .topk then 1 ≤ w.rowLen && w.rowLen ≤ 2 ^ 24 && 1 ≤ w.k && w.k ≤ 64
      else 1 ≤ w.rowLen && w.rowLen ≤ 16384) && w.count = w.rows * w.rowLen &&
    (d.srcMode ≠ .strided || dense d.outFmt.bytes w.srcDims)))

/-- A region that this kind must name whatever the rank (R416): a NONE there is PARAM. -/
def modesOk (d : Desc) : Bool :=
  match d.kind with
  | .allreduce | .reduceScatter => d.srcMode ≠ .none && (d.dstMode ≠ .none || d.endp = .hold)
  | .reduce => d.srcMode ≠ .none
  | .topk | .softmax => d.srcMode ≠ .none && (d.dstMode ≠ .none || !d.deliverAll || d.endp = .hold)
  | .broadcast => true
  | .allgather | .alltoall => d.srcMode ≠ .none && d.dstMode ≠ .none
  | .rotate => d.srcMode ≠ .none && d.dstMode = .linear
  | .partialWrite => d.srcMode ≠ .none && d.dstMode ≠ .none && d.dstMode ≠ .weld
  | .send => d.srcMode ≠ .none
  | .recv | .drainSlot => d.dstMode ≠ .none
  | .planLoad | .partCreate | .reimageStage => d.srcMode = .linear
  | .preload => d.srcMode ≠ .none
  | _ => true

/-- Bytes of a LINEAR region as far as validation can know them. -/
def srcBytes (d : Desc) (w : Words) : Nat :=
  match d.kind with
  | .softmax => w.rows * roundUp (8 + w.rowLen * d.outFmt.bytes) 8
  | .preload => (hostFmt d).size 1 (if d.start = .bias then w.rowLen else w.count)
  | .partCreate => 8192
  | .reimageStage => w.count
  | .planLoad => 64
  | .alltoall => 0
  | _ => (hostFmt d).size d.blockSize w.count

/-- The same for DST. -/
def dstBytes (d : Desc) (w : Words) : Nat :=
  match d.kind with
  | .topk => w.rows * (8 + 8 * w.k)
  | .softmax => w.rows * roundUp (8 + w.rowLen * d.outFmt.bytes) 8
  | .alltoall | .recv => d.outFmt.sizeUp d.blockSize w.capacity
  | .rotate => roundUp (d.wireFmt.size d.blockSize w.count) 64 + d.wireFmt.size d.blockSize w.count
  | .drainSlot => 0
  | _ => d.outFmt.size d.blockSize w.count

/-- Every byte of a run of `n` bytes at an address lies below 2^64 (R182, No wrap). -/
def noWrap (a : W64) (n : Nat) : Bool := decide (a.toNat + n ≤ 2 ^ 64)

/-- This rank touches DST whatever ROOT is: the cursor rules of DST bind at validation (R182, R416). -/
def Desc.dstAlways (d : Desc) : Bool :=
  d.kind.usesDst && !(d.kind.adding && d.endp = .hold) &&
    match d.kind with
    | .reduce | .broadcast => false
    | .topk | .softmax => d.deliverAll
    | _ => true

/-- The same for SRC. -/
def Desc.srcAlways (d : Desc) : Bool := d.kind.usesSrc && d.kind ≠ .broadcast

/-- Bytes of STAT_DST for `n` elements written: 8 a row of D0 elements (R129). -/
def statBytes (w : Words) (n : Nat) : Nat :=
  8 * match w.dstDims with
    | (d0, _) :: _ => ceilDiv n d0
    | [] => 1

/-- Ranges of the kinds' own parameters (R21, R43, R121, R124, R129, R259, R291 to R294, R222, R246, R302, R340, R341).
`bar` is the partition's barrier range. A STEP_WORD of ROTATE that is not a multiple of 4 is refused: R42 writes it as a 32-bit value through
the pick port, whose writes are naturally aligned (R186), and no rule says what an unaligned one does (DESIGN CHOICE, log 76). -/
def kindOk (d : Desc) (w : Words) (bar : Nat × Nat) : Bool :=
  match d.kind with
  | .alltoall => w.w7.toNat % 4 = 0 && w.aux.toNat % 4 = 0
  | .recv => w.w7.toNat % 4 = 0
  | .rotate =>
    fieldN w.w6 0 2 ≤ 2 && 1 ≤ fieldN w.w6 2 16 && w.w7.toNat % 4 = 0 && (!d.expand || d.wireFmt.isInt4) &&
      (!d.expand || noWrap w.xdst w.count) &&
      (!bit w.w6 32 || (decide (bar.1 ≤ fieldN w.w6 18 14) && decide (fieldN w.w6 18 14 < bar.1 + bar.2)))
  | .preload =>
    (d.start = .bias || d.start = .residual) && (d.endp = .hold || d.endp = .shadow) &&
      (d.start ≠ .bias || (1 ≤ w.rowLen && w.rowLen ≤ w.count && w.count % w.rowLen = 0))
  | .drainSlot => d.endp = .drain || d.endp = .drainFree
  | .partCreate =>
    fieldN w.w6 8 12 ≠ 0 && 1 ≤ fieldN w.ext1 0 12 && 1 ≤ fieldN w.ext1 16 12 &&
      fieldN w.ext1 0 12 + fieldN w.ext1 16 12 ≤ 4096 && fieldN w.ext1 48 15 ≤ 16384 &&
      fieldN w.ext1 32 14 + fieldN w.ext1 48 15 ≤ 16384
  | .keySet => fieldN w.w6 0 12 ≠ 0
  | .quotaSet =>
    fieldN w.w6 8 16 ≤ 32768 && fieldN w.w6 24 17 ≤ 65536 && fieldN w.w6 41 11 ≤ 1024 && fieldN w.w6 52 12 ≤ 2048 &&
      fieldN w.w7 0 15 ≤ 16384 && fieldN w.w7 15 13 ≤ 4096 - 16 && fieldN w.w7 28 13 ≤ 4096 &&
      (!bit w.w7 41 || w.ext1.toNat % 4096 = 0)
  | .routeSwap => bit w.w6 0 || fieldN w.w6 16 16 = 0
  | .drainVc =>
    if bit w.w6 8 then w.w6 = 0x100 && w.w7 = 0
    else fieldN w.w6 0 8 ≠ 0 && !bit w.w6 4 && !bit w.w6 5 && 1 ≤ fieldN w.w6 16 16 && 1 ≤ fieldN w.w6 32 16 &&
      fieldN w.w6 16 16 ≤ 1000 * fieldN w.w6 32 16 && fieldN w.w7 0 40 ≠ 0
  | .planRevoke => !(bit w.w6 16 && fieldN w.w6 8 8 ≠ 0)
  | .reimageStage => 32 ≤ w.count
  | .reimageActivate => 1 ≤ fieldN w.w6 0 16
  | _ => true

/-- ROWSTAT (R129). -/
def rowstatOk (d : Desc) (w : Words) : Bool :=
  !d.rowstat ||
    ((d.kind = .allreduce || d.kind = .reduce || d.kind = .reduceScatter || d.kind = .drainSlot) &&
      (d.outFmt = .fp32 || d.outFmt = .bf16 || d.outFmt = .fp16) && w.w7.toNat % 4 = 0 &&
      (d.kind = .drainSlot || !d.dstAlways || noWrap w.w7 (statBytes w w.count)))

/-- The cursor rules of SRC (R182): PLAN_LOAD's image is taken as a region of 4-byte elements (DESIGN CHOICE, log 63: the spec gives the
image no element size). -/
def srcRegionOk (d : Desc) (w : Words) (weldPorts : W32) : Bool :=
  regionOk d.srcMode w.src w.srcDims (hostFmt d) (srcCount d w) false weldPorts (srcBytes d w)

/-- The cursor rules of DST (R182), with those of R136. -/
def dstRegionOk (d : Desc) (w : Words) (weldPorts : W32) : Bool :=
  (!(d.kind = .topk || d.kind = .softmax) || d.dstMode ≠ .strided || dense d.outFmt.bytes w.dstDims) && regionOk d.dstMode w.dst w.dstDims d.outFmt (dstCount d w) true weldPorts (dstBytes d w)

/-- Step 6 of R173: ranges and combinations. A region that the rank does not touch is not checked, but that under mode NONE its word is 0
(R169); one whose touching depends on ROOT is checked at dispatch (R182, R413, R416, log 62). -/
def paramsOk (d : Desc) (w : Words) (h : Payload) (bar : Nat × Nat) (weldPorts : W32) : Bool :=
  rowstatOk d w && (!d.kind.usesCount || w.count ≠ 0) && formatsOk d && blocksOk d w h && modesOk d &&
    (!d.kind.adding || addingOk d w) && kindOk d w bar &&
    (d.srcMode ≠ .none || w.src = 0) && (d.dstMode ≠ .none || w.dst = 0) &&
    (d.kind.steward || !d.srcAlways || srcRegionOk d w weldPorts) && (!d.dstAlways || dstRegionOk d w weldPorts) &&
    (!(d.kind = .partCreate || d.kind = .reimageStage) || noWrap w.src (srcBytes d w))

/-- The checks 1 to 6 of R173 in order: the reason of the first failure, or the parsed chain. `q0`: queue 0. -/
def validateChain (q0 : Bool) (bar : Nat × Nat) (weldPorts : W32) (es : List Payload) :
    Except (BitVec 4) (Desc × Words) :=
  match es with
  | [] => .error reasonChain
  | h :: _ =>
    if chainOk es = false then .error reasonChain
    else
      match Kind.ofCode (fieldN h 0 8) with
      | none => .error reasonKind
      | some k =>
        if (if q0 then !(k.steward || k = .nop) else k.steward) then .error reasonKind
        else if codesOk es = false then .error reasonCode
        else
          let d := parseDesc k h
          let w := parseWords h es
          if reservedOk d h es = false then .error reasonReserved
          else if extensionsOk d h es = false then .error reasonExtension
          else if paramsOk d w h bar weldPorts = false then .error reasonParam
          else .ok (d, w)

/-- Step 7's form check of CMPL_ADDR (R168): nonzero, 16-byte aligned. -/
def cmplOk (a : W64) : Bool := a ≠ 0 && fieldN a 0 4 = 0

end Sys2Proof.Machine
end

