-- ==== Sys2Proof/Machine/Plans.lean ====
section
/-! DEFINITION. Plans: the image of R24, the checks of R26, and the program of a heat at its rank: segments in
contribution order, runs of flows, peers (R29, R30, R38, R41, R59, R120, R414, R415). -/

namespace Sys2Proof.Machine

/-! ### The image (R24, R26) -/

/-- Step 2 of R26: the header. -/
def planHeaderOk (b : List Byte) : Bool :=
  let p := leAt b 0x10 4
  let len := leAt b 0x34 4
  let within (off n : Nat) : Bool := 64 ≤ off && off + n ≤ len
  leAt b 0 4 = 0x5958504C && leAt b 4 2 = 2 && leAt b 6 2 = 0 && 1 ≤ p && p ≤ 65536 && leAt b 0x22 2 = 0 &&
    leAt b 0x38 8 = 0 && leAt b 0x31 3 = 0 && leAt b 0x20 2 ≤ 1024 && within (leAt b 0x14 4) (2 * p) &&
    within (leAt b 0x18 4) (64 * p) && (leAt b 0x20 2 = 0 || within (leAt b 0x1C 4) (16 * leAt b 0x20 2))

/-- Where the last table of the image ends: what PLANLOAD reads (R26). -/
def planEnd (b : List Byte) : Nat :=
  let p := leAt b 0x10 4
  let c := leAt b 0x20 2
  max (max (leAt b 0x14 4 + 2 * p) (leAt b 0x18 4 + 64 * p)) (if c = 0 then 64 else leAt b 0x1C 4 + 16 * c)

/-- The rank map. -/
def planMap (b : List Byte) : List Nat := (List.range (leAt b 0x10 4)).map fun r => leAt b (leAt b 0x14 4 + 2 * r) 2

/-- The plan that an image describes, for the engine at `ownEp` (its rank is where the rank map names it). -/
def parsePlan (part id : Nat) (addr : W64) (ownEp : Nat) (b : List Byte) : Plan :=
  let p := leAt b 0x10 4
  let nd := leAt b 0x18 4
  let at_ (r off len : Nat) : Nat := leAt b (nd + 64 * r + off) len
  let rs := List.range p
  { part := part, id := id, addr := addr, digest := BitVec.ofNat 64 (leAt b 8 8), size := p,
    rankmapOff := leAt b 0x14 4, rank := (planMap b).findIdx (· = ownEp), parent := rs.map fun r => at_ r 0 2,
    children := rs.map fun r => (List.range (min (at_ r 2 1) 16)).map fun c => at_ r (4 + 2 * c) 2,
    rings := rs.map fun r => (List.range (min (at_ r 3 1) 3)).map fun d => (at_ r (0x24 + 4 * d) 2, at_ r (0x26 + 4 * d) 2),
    boardBase := rs.map fun r => at_ r 0x30 2, boardSize := rs.map fun r => at_ r 0x32 1,
    root := (rs.findIdx fun r => at_ r 0x33 1 = 1), algo := (List.range 13).map fun i => leAt b (0x24 + i) 1,
    reqs := (List.range (leAt b 0x20 2)).map fun i =>
      let o := leAt b 0x1C 4 + 16 * i
      (leAt b o 2, leAt b (o + 2) 2, leAt b (o + 4) 2, leAt b (o + 6) 1)
    eps := [], dests := []
    circs := [], lost := [], ready := false, leaving := none }

/-- Parent of a rank. -/
def Plan.par (p : Plan) (r : Nat) : Nat := p.parent.getD r 0
/-- Children of a rank, in contribution order. -/
def Plan.kids (p : Plan) (r : Nat) : List Nat := p.children.getD r []
/-- DIMS of a rank. -/
def Plan.dims (p : Plan) (r : Nat) : Nat := (p.rings.getD r []).length
/-- RING next of a rank on a dimension. -/
def Plan.next (p : Plan) (r d : Nat) : Nat := ((p.rings.getD r []).getD d (0, 0)).1
/-- RING previous. -/
def Plan.prev (p : Plan) (r d : Nat) : Nat := ((p.rings.getD r []).getD d (0, 0)).2
/-- The ALGO byte of a kind (R24). -/
def Plan.alg (p : Plan) (k : Kind) : Nat := p.algo.getD (k.code - 1) 0

/-- Follow RING next from `r` until `stop`, at most `fuel` ranks. -/
def Plan.follow (p : Plan) (d stop : Nat) : Nat → Nat → List Nat
  | 0, _ => []
  | fuel + 1, r => r :: if p.next r d = stop then [] else Plan.follow p d stop fuel (p.next r d)

/-- The ranks of the dimension-`d` ring of `r`, from position 0 (its lowest rank) along RING next (R414). -/
def Plan.ring (p : Plan) (r d : Nat) : List Nat :=
  let low := (p.follow d r p.size r).foldl min r
  p.follow d low p.size low

/-- Coordinate of a rank on a ring dimension (R414). -/
def Plan.ringPos (p : Plan) (r d : Nat) : Nat := (p.ring r d).findIdx (· = r)
/-- Board coordinate (R414). -/
def Plan.boardPos (p : Plan) (r : Nat) : Nat := r - p.boardBase.getD r 0

/-- A reducing stage (R414): the board, or a ring dimension. -/
inductive Stage where
  | board
  | ring (d : Nat)
deriving DecidableEq, Repr

/-- The reducing stages of RING, BOARD and HYBRID (R414). -/
def Plan.stages (p : Plan) (alg : Nat) : List Stage :=
  let rs := (List.range (p.dims 0)).map Stage.ring
  if alg = 1 then rs else if alg = 2 then [.board] else if alg = 3 then .board :: rs else []

/-- Coordinate of a rank in a stage. -/
def Plan.coord (p : Plan) (st : Stage) (r : Nat) : Nat :=
  match st with
  | .board => p.boardPos r
  | .ring d => p.ringPos r d

/-- Which algorithm codes a kind permits (R29). -/
def algPermitted (kindCode alg : Nat) : Bool :=
  alg = 0 ||
    (if kindCode = 1 || kindCode = 2 then alg = 1 || alg = 2 || alg = 3
     else if kindCode = 3 then alg = 1 || alg = 2 || alg = 3
     else if kindCode = 7 then alg = 1
     else if kindCode = 6 || kindCode = 11 || kindCode = 12 || kindCode = 13 then alg = 4
     else false)

/-- TREE is not permitted for these kinds: ALGO 0 says that the plan does not serve them (R29). -/
def Kind.noTree : Kind → Bool
  | .allgather | .alltoall | .rotate | .send | .recv | .partialWrite => true
  | _ => false

/-- The tree conditions of step 5 of R26. -/
def Plan.treeOk (p : Plan) (flags : List Nat) : Bool :=
  let rs := List.range p.size
  (flags.filter (· = 1)).length = 1 && flags.all (· ≤ 1) &&
    rs.all (fun r => r = p.root || (decide (p.par r < p.size) && (p.kids (p.par r)).elem r)) &&
    rs.all (fun r => (p.kids r).all (fun c => decide (c < p.size) && c ≠ p.root && p.par c = r) &&
      decide (p.kids r).Nodup) &&
    rs.all (fun r => (List.range p.size).foldl (fun x _ => if x = p.root then x else p.par x) r = p.root)

/-- Ring conditions of step 5. -/
def Plan.ringsOk (p : Plan) : Bool :=
  (List.range p.size).all fun r => (List.range (p.dims r)).all fun d =>
    decide (p.next r d < p.size) && decide (p.prev r d < p.size) && decide (d < p.dims (p.next r d)) &&
      decide (d < p.dims (p.prev r d)) && p.prev (p.next r d) d = r && p.next (p.prev r d) d = r

/-- The product rule of R414 and the board rules of R29 for an algorithm. -/
def Plan.productOk (p : Plan) (alg : Nat) : Bool :=
  let rs := List.range p.size
  let sts := p.stages alg
  let same (st : Option Stage) (a b : Nat) : Bool := sts.all fun t => some t = st || p.coord t a = p.coord t b
  (alg = 2 || (1 ≤ p.dims 0 && rs.all fun r => p.dims r = p.dims 0)) &&
    (alg ≠ 2 || (p.size ≤ 16 && rs.all fun r => p.boardBase.getD r 1 = 0 && p.boardSize.getD r 0 = p.size)) &&
    (alg ≠ 3 || rs.all fun r =>
      let b := p.boardBase.getD r 0
      let n := p.boardSize.getD r 0
      1 ≤ n && n ≤ 16 && b ≤ r && r < b + n && b + n ≤ p.size &&
        (List.range n).all fun i => p.boardBase.getD (b + i) 0 = b && p.boardSize.getD (b + i) 0 = n) &&
    rs.all (fun a => rs.all fun b => a = b || !same none a b) &&
    sts.all fun t => match t with
      | .board => rs.all fun a => rs.all fun b =>
          (p.boardBase.getD a 0 = p.boardBase.getD b 0) == same (some t) a b
      | .ring d => rs.all fun a => (p.ring a d).length = (p.ring 0 d).length &&
          rs.all fun b => (p.ring a d).elem b == same (some t) a b

/-- Steps 3 to 5 of R26 on the image, for partition bitmap membership `inMap`. -/
def planChecks (b : List Byte) (ownEp : Nat) (inMap : Nat → Bool) (p : Plan) : Bool :=
  let m := planMap b
  let nd := leAt b 0x18 4
  let rs := List.range p.size
  let at_ (r off len : Nat) : Nat := leAt b (nd + 64 * r + off) len
  (m.filter (· = ownEp)).length = 1 && m.all inMap && decide m.Nodup &&
    p.treeOk (rs.map fun r => at_ r 0x33 1) && p.ringsOk &&
    rs.all (fun r =>
      at_ r 2 1 ≤ 16 && at_ r 3 1 ≤ 3 &&
        ((List.range 16).all fun c => c < at_ r 2 1 || at_ r (4 + 2 * c) 2 = 0xFFFF) &&
        ((List.range 3).all fun d => d < at_ r 3 1 || at_ r (0x24 + 4 * d) 4 = 0xFFFFFFFF) &&
        leAt b (nd + 64 * r + 0x34) 12 = 0) &&
    ((List.range 13).all fun i => algPermitted (i + 1) (p.algo.getD i 0)) &&
    [1, 2, 3].all (fun a => !(p.algo.elem a) || p.productOk a) &&
    (List.range p.reqs.length).all fun i =>
      let q := p.reqs.getD i (0, 0, 0, 0)
      q.1 < p.size && q.2.1 < p.size && q.1 ≠ q.2.1 && 1 ≤ q.2.2.1 && q.2.2.1 ≤ 256 && 1 ≤ q.2.2.2 &&
        q.2.2.2 ≤ 0x0D && leAt b (leAt b 0x1C 4 + 16 * i + 7) 9 = 0

/-! ### Chunks and stages (R414) -/

/-- A heat's elements as the data plane counts them: rows for TOPK and SOFTMAX_MERGE (R415). -/
def vecLen (d : Desc) (w : Words) (size : Nat) : Nat :=
  match d.kind with
  | .reduceScatter | .allgather => size * w.count
  | .topk | .softmax => w.rows
  | .barrier => 0
  | _ => w.count

/-- Chunk of owner `r`: first element and count (R414). -/
def chunk (d : Desc) (w : Words) (size r : Nat) : Nat × Nat :=
  match d.kind with
  | .reduceScatter | .allgather => (r * w.count, w.count)
  | _ =>
    let u := if d.wireFmt.isMx then d.blockSize else 1
    let units := w.count / u
    let base := units / size
    let extra := units % size
    (u * (r * base + min r extra), u * (base + if r < extra then 1 else 0))

/-- Owners that agree with rank `r` on the coordinates of the stages `sts`. -/
def Plan.owners (p : Plan) (sts : List Stage) (r : Nat) : List Nat :=
  (List.range p.size).filter fun o => sts.all fun t => p.coord t o = p.coord t r

/-- The rank at which the start value of chunk `o` enters (R59): one further on every ring dimension. -/
def Plan.enters (p : Plan) (alg o : Nat) : Nat :=
  (p.stages alg).foldl (fun r t => match t with
    | .board => r
    | .ring d => p.next r d) o

/-! ### The program of a heat at this rank -/

/-- What a rank does in a heat: segments, flows out and in with their runs, in role order. -/
structure Prog where
  segs : List Seg
  outs : List (List Nat × List Run)
  ins : List (Nat × List Run)
deriving DecidableEq, Repr

/-- R30. -/
def nodeIndex (stage rank : Nat) : W32 := BitVec.ofNat 32 (stage * 65536 + rank)

/-- The path in the tree from `a` up to the root, `a` first. -/
def Plan.up (p : Plan) : Nat → Nat → List Nat
  | 0, a => [a]
  | f + 1, a => a :: if a = p.root then [] else Plan.up p f (p.par a)

/-- The tree path from `a` to `b`, both included. -/
def Plan.path (p : Plan) (a b : Nat) : List Nat :=
  let ua := p.up p.size a
  let ub := p.up p.size b
  let meet := (ua.find? fun x => ub.elem x).getD p.root
  ua.takeWhile (· ≠ meet) ++ [meet] ++ (ub.takeWhile (· ≠ meet)).reverse

/-- The neighbour of `a` towards `b` in the tree. -/
def Plan.toward (p : Plan) (a b : Nat) : Nat := (p.path a b).getD 1 a

/-- Tree neighbours of a rank. -/
def Plan.nbrs (p : Plan) (r : Nat) : List Nat := (if r = p.root then [] else [p.par r]) ++ p.kids r

/-- Ranks of the subtree of `r`. -/
def Plan.subtree (p : Plan) (r : Nat) : List Nat :=
  (List.range p.size).filter fun x => (p.up p.size x).elem r

/-- TREE for the adding kinds (R29, R59): one segment over the whole vector. -/
def progTree (p : Plan) (d : Desc) (w : Words) : Prog :=
  let r := p.rank
  let n := vecLen d w p.size
  let kids := p.kids r
  let top := r = p.root
  let seg : Seg := { lo := 0, n := n, ins := .own :: (List.range kids.length).map Src.flow, node := nodeIndex 0 r,
                     start := top, fin := top }
  let up : List (List Nat × List Run) := if top then [] else [([p.par r], [.part 0 0 n false])]
  let upIn : List (Nat × List Run) := kids.map fun c => (c, [.part 0 0 n false])
  let chunks (x : Nat) : List Run := (p.subtree x).map fun o => .res (chunk d w p.size o).1 (chunk d w p.size o).2
  let pathTo := p.path p.root w.root
  let down (x : Nat) : List Run :=
    match d.kind with
    | .allreduce => [.res 0 n]
    | .reduceScatter => chunks x
    | .topk | .softmax => if d.deliverAll || pathTo.tail.elem x then [.res 0 n] else []
    | .reduce => if pathTo.tail.elem x then [.res 0 n] else []
    | _ => []
  if d.endp = .hold then { segs := [seg], outs := up, ins := upIn }
  else
    { segs := [seg], outs := up ++ (kids.filterMap fun c => if down c = [] then none else some ([c], down c)),
      ins := upIn ++ (if top || down r = [] then [] else [(p.par r, down r)]) }

/-- A program under construction: `loc` is where each owner's chunk is found locally so far. -/
structure Build where
  segs : List Seg
  outs : List (List Nat × List Run)
  ins : List (Nat × List Run)
  loc : List (Nat × Src)

/-- The local source of a chunk. -/
def Build.local_ (b : Build) (o : Nat) : Src := ((b.loc.find? fun e => e.1 = o).map Prod.snd).getD .own

/-- Runs of partials for owners `os`, whose segments start at index `base` in the order of `all`. -/
def partRuns (d : Desc) (w : Words) (size base : Nat) (all os : List Nat) : List Run :=
  os.map fun o => .part (base + all.findIdx (· = o)) (chunk d w size o).1 (chunk d w size o).2 false

/-- Add one reducing stage (R59, R414): number `idx` of the node index (R30), after the stages `pre` and before `rest`. A ring
chain carries the start value of its chunk where it lies, in the dimensions to come, as the rank at which that value enters. -/
def addStage (p : Plan) (d : Desc) (w : Words) (alg : Nat) (pre : List Stage) (idx : Nat) (rest : List Stage) (st : Stage)
    (b : Build) : Build :=
  let r := p.rank
  let all := p.owners pre r
  let base := b.segs.length
  let starts (o : Nat) : Bool := pre = [] && p.enters alg o = r
  let mk (o : Nat) (ins : List Src) (fin : Bool) : Seg :=
    { lo := (chunk d w p.size o).1, n := (chunk d w p.size o).2, ins := ins, node := nodeIndex idx r,
      start := starts o, fin := fin && rest = []
      carry := st ≠ .board && !starts o && rest.all fun t => p.coord t r = p.coord t (p.enters alg o) }
  match st with
  | .board =>
    let others := ((List.range (p.boardSize.getD r 1)).map fun i => p.boardBase.getD r 0 + i).filter (· ≠ r)
    let flows := (List.range others.length).map fun i => Src.flow (b.ins.length + i)
    let mine (o : Nat) : Bool := p.boardPos o = p.boardPos r
    let segs := all.map fun o => if mine o then mk o (b.local_ o :: flows) true else mk o [b.local_ o] false
    { segs := b.segs ++ segs
      outs := b.outs ++ others.map fun x =>
        ([x], partRuns d w p.size base all (all.filter fun o => p.boardPos o = p.boardPos x))
      ins := b.ins ++ others.map fun x => (x, partRuns d w p.size base all (all.filter mine))
      loc := (all.filter mine).map fun o => (o, Src.seg (base + all.findIdx (· = o))) }
  | .ring dim =>
    let len := (p.ring r dim).length
    let q := p.ringPos r dim
    let pos (o : Nat) : Nat := p.ringPos o dim
    let first (o : Nat) : Bool := q = (pos o + 1) % len
    let fl := b.ins.length
    let segs := all.map fun o =>
      mk o (if first o then [b.local_ o] else [.flow fl, b.local_ o]) (pos o = q)
    let order := ((List.range len).map fun i => (q + 2 * len - 1 - i) % len).flatMap fun c => all.filter fun o => pos o = c
    { segs := b.segs ++ segs
      outs := b.outs ++ (if len = 1 then []
        else [([p.next r dim], partRuns d w p.size base all (order.filter fun o => pos o ≠ q))])
      ins := b.ins ++ (if len = 1 then []
        else [(p.prev r dim, partRuns d w p.size base all (order.filter fun o => !first o))])
      loc := (all.filter fun o => pos o = q).map fun o => (o, Src.seg (base + all.findIdx (· = o))) }

/-- Result runs of owners. -/
def resRuns (d : Desc) (w : Words) (size : Nat) (os : List Nat) : List Run :=
  os.map fun o => .res (chunk d w size o).1 (chunk d w size o).2

/-- Add one gathering stage (R414): the reducing stage `st`, run backwards, after the stages `pre` precede it. -/
def addGather (p : Plan) (d : Desc) (w : Words) (pre : List Stage) (st : Stage) (b : Build) : Build :=
  let r := p.rank
  let all := p.owners pre r
  match st with
  | .board =>
    let others := ((List.range (p.boardSize.getD r 1)).map fun i => p.boardBase.getD r 0 + i).filter (· ≠ r)
    let of_ (x : Nat) : List Run := resRuns d w p.size (all.filter fun o => p.boardPos o = p.boardPos x)
    { b with outs := b.outs ++ others.map (fun x => ([x], of_ r)), ins := b.ins ++ others.map fun x => (x, of_ x) }
  | .ring dim =>
    let len := (p.ring r dim).length
    let q := p.ringPos r dim
    let block (c : Nat) : List Run := resRuns d w p.size (all.filter fun o => p.ringPos o dim = c % len)
    if len = 1 then b
    else
      { b with outs := b.outs ++ [([p.next r dim], (List.range (len - 1)).flatMap fun i => block (q + len - i))]
               ins := b.ins ++ [(p.prev r dim, (List.range (len - 1)).flatMap fun i => block (q + len - 1 - i))] }

/-- Reducing stages in order. -/
def addStages (p : Plan) (d : Desc) (w : Words) (alg : Nat) : List Stage → List Stage → Nat → Build → Build
  | _, [], _, b => b
  | pre, st :: t, idx, b =>
    addStages p d w alg (pre ++ [st]) t (idx + 1) (addStage p d w alg pre idx t st b)

/-- Gathering stages: the same in reverse. -/
def addGathers (p : Plan) (d : Desc) (w : Words) : List Stage → List Stage → Build → Build
  | _, [], b => b
  | pre, st :: t, b => addGather p d w pre st (addGathers p d w (pre ++ [st]) t b)

/-- RING, BOARD and HYBRID (R29, R414), with the held-value transfer of R120. -/
def progStaged (p : Plan) (d : Desc) (w : Words) (alg : Nat) : Prog :=
  let sts := p.stages alg
  let b0 : Build := { segs := [], outs := [], ins := [], loc := [] }
  let red := if d.kind.adding then addStages p d w alg [] sts 0 b0 else b0
  let gat := if d.kind = .reduceScatter || (d.kind.adding && d.endp = .hold) then red else addGathers p d w [] sts red
  let e := p.enters alg p.rank
  let o := ((List.range p.size).find? fun x => p.enters alg x = p.rank).getD p.rank
  if d.kind.adding && d.start = .continue && e ≠ p.rank then
    { segs := gat.segs, outs := gat.outs ++ [([e], [.held (chunk d w p.size p.rank).1 (chunk d w p.size p.rank).2])],
      ins := gat.ins ++ [(o, [.held (chunk d w p.size o).1 (chunk d w p.size o).2])] }
  else { segs := gat.segs, outs := gat.outs, ins := gat.ins }

/-! ### BROADCAST (R38, R219) -/

/-- The circuits of BROADCAST that run outward from ROOT: source, destination and the ranks they pass, in order after
the source. -/
def bcastCircuits (p : Plan) (root : Nat) : List (Nat × List Nat) :=
  p.reqs.filterMap fun q =>
    let path := p.path q.1 q.2.1
    if q.2.2.2 = 5 && (p.path root q.2.1).length = (p.path root q.1).length + (path.length - 1)
    then some (q.1, path.tail) else none

/-- The rank from which `x` receives: the source of a multicast stage that passes it, else its tree neighbour nearer
ROOT. -/
def bcastFrom (p : Plan) (root x : Nat) : Nat :=
  match (bcastCircuits p root).find? fun c => c.2.elem x with
  | some c => c.1
  | none => p.toward x root

/-- A unicast circuit to a rank of the same board (R219). -/
def boardCircuit (p : Plan) (c : Nat × List Nat) : Bool :=
  c.2.length = 1 && p.boardBase.getD (c.2.headD 0) p.size = p.boardBase.getD c.1 0

/-- BROADCAST: data moves outward along the tree; a circuit's stage is one flow to all the ranks it passes, and so is the board stage, to
every board peer that has a circuit (R38, R219). -/
def progBcast (p : Plan) (d : Desc) (w : Words) : Prog :=
  let r := p.rank
  let dests := (List.range p.size).filter fun x => x ≠ w.root && bcastFrom p w.root x = r && x ≠ r
  let cs := (bcastCircuits p w.root).filter fun c => c.1 = r
  let board := (dests.filter fun x => cs.any fun c => boardCircuit p c && c.2 = [x])
  let by_ := board :: (cs.filter fun c => !boardCircuit p c).map fun c => c.2.filter dests.elem
  let rest := dests.filter fun x => !(by_.any fun l => l.elem x)
  let run : List Run := [.data 0 (vecLen d w p.size)]
  { segs := [], outs := ((by_.filter (· ≠ [])) ++ rest.map fun x => [x]).map fun l => (l, run)
    ins := if r = w.root then [] else [(bcastFrom p w.root r, run)] }

/-- The kinds of DIRECT and ROTATE: one flow each way between the ranks concerned (R39, R41, R44, R45). -/
def progDirect (p : Plan) (d : Desc) (w : Words) : Prog :=
  let r := p.rank
  let others := (List.range p.size).filter (· ≠ r)
  match d.kind with
  | .partialWrite =>
    { segs := [], outs := others.map fun x => ([x], [.data (r * w.count) w.count]),
      ins := others.map fun x => (x, [.data (x * w.count) w.count]) }
  | .alltoall => { segs := [], outs := others.map fun x => ([x], []), ins := others.map fun x => (x, []) }
  | .send => { segs := [], outs := if w.root = r then [] else [([w.root], [.data 0 w.count])], ins := [] }
  | .recv => { segs := [], outs := [], ins := if w.root = r then [] else [(w.root, [])] }
  | .rotate =>
    let dim := fieldN w.w6 0 2
    let steps := fieldN w.w6 2 16
    if (p.ring r dim).length ≤ 1 then { segs := [], outs := [], ins := [] }
    else
      { segs := [], outs := [([p.next r dim], (List.range steps).map fun i => .data (i * w.count) w.count)],
        ins := [(p.prev r dim, (List.range steps).map fun i => .data ((i + 1) * w.count) w.count)] }
  | _ => { segs := [], outs := [], ins := [] }

/-- BARRIER: an arrival flow from each child, one to the parent, and release flows the other way (R263). -/
def progBarrier (p : Plan) : Prog :=
  let r := p.rank
  let up := if r = p.root then [] else [p.par r]
  { segs := [], outs := (up ++ p.kids r).map fun x => ([x], []), ins := (p.kids r ++ up).map fun x => (x, []) }

/-- The program of a group heat at this rank under the plan's algorithm (R29). -/
def progOf (p : Plan) (d : Desc) (w : Words) : Prog :=
  let alg := p.alg d.kind
  match d.kind with
  | .barrier => progBarrier p
  | .broadcast => progBcast p d w
  | .partialWrite | .alltoall | .send | .recv | .rotate => progDirect p d w
  | .allreduce | .reduceScatter | .reduce | .topk | .softmax | .allgather =>
    if alg = 0 then progTree p d w else progStaged p d w alg
  | _ => { segs := [], outs := [], ins := [] }

/-- A segment's result is one unmodified contribution of this rank (R66). -/
def single (segs : List Seg) : Nat → Nat → Bool
  | 0, _ => false
  | fuel + 1, i =>
    match segs[i]? with
    | some s => !s.start && (match s.ins with
        | [.own] => true
        | [.seg j] => single segs fuel j
        | _ => false)
    | none => false

/-- The form of the partials of run `r` at the rank whose segments are `segs` (R65, R66). -/
def formOf (d : Desc) (segs : List Seg) (r : Run) : Run :=
  match r with
  | .part s lo n _ => .part s lo n (!d.assay || single segs segs.length s)
  | r => r

/-- The program with the form of every partial run settled: a sender knows its own segments, a receiver the sender's. -/
def progForms (p : Plan) (d : Desc) (w : Words) : Prog :=
  let g := progOf p d w
  let ins := (List.range g.ins.length).map fun i =>
    let f := g.ins.getD i (0, [])
    let k := ((g.ins.take i).filter fun e => e.1 = f.1).length
    let pg := progOf { p with rank := f.1 } d w
    let theirs := ((pg.outs.filter fun e => e.1.elem p.rank).getD k ([], [])).2
    let forms := theirs.map (formOf d pg.segs)
    (f.1, (List.range f.2.length).map fun j => match f.2.getD j (.res 0 0), forms.getD j (.res 0 0) with
      | .part s lo n _, .part _ _ _ wire => .part s lo n wire
      | r, _ => r)
  { g with outs := g.outs.map fun e => (e.1, e.2.map (formOf d g.segs)), ins := ins }

/-- The ranks this rank exchanges READY with (R32). -/
def Prog.peers (g : Prog) : List Nat := ((g.outs.flatMap Prod.fst) ++ g.ins.map Prod.fst).eraseDups

/-- The elements of the slot set of an adding heat at this engine, in set order (R415): (first, count) ranges. Set
positions follow ascending elements. -/
def setRanges (p : Plan) (d : Desc) (w : Words) : List (Nat × Nat) :=
  let alg := p.alg d.kind
  if alg = 0 || p.size = 1 then [(0, vecLen d w p.size)]
  else
    let first := (p.stages alg).take 1
    let os := (List.range p.size).filter fun o =>
      (first.all fun t => p.coord t o = p.coord t p.rank) || p.enters alg o = p.rank
    os.map (chunk d w p.size)

/-- Number of elements of ranges. -/
def rangesLen (rs : List (Nat × Nat)) : Nat := (rs.map Prod.snd).sum

/-- The set position of an element, if the set holds it. -/
def setPos (rs : List (Nat × Nat)) (i : Nat) : Option Nat :=
  match rs with
  | [] => none
  | (lo, n) :: t => if lo ≤ i && i < lo + n then some (i - lo) else (setPos t i).map (· + n)

end Sys2Proof.Machine
end

