-- ==== Sys2Proof/Machine/Plane.lean ====
section
/-! DEFINITION. The data plane of a heat: how source bytes become contributions (R94), how contributions combine in
order (R59, R60, R61, R77, R143, R148), what travels in a run and in what form (R65, R66, R96, R137, R138, R203), and
how results become the bytes of DST (R51, R127, R145, R149). -/

namespace Sys2Proof.Machine

/-- What the data plane needs to know of its heat. -/
structure PC where
  d : Desc
  w : Words
  rank : Nat
  size : Nat
  node : W32
deriving DecidableEq, Repr

/-- TOPK and SOFTMAX_MERGE work in rows. -/
def PC.rows (c : PC) : Bool := c.d.kind = .topk || c.d.kind = .softmax

/-- This rank writes DST (R34, R416). -/
def PC.writesDst (c : PC) : Bool :=
  c.d.kind.usesDst && !(c.d.kind.adding && c.d.endp = .hold) &&
    match c.d.kind with
    | .reduce => c.rank = c.w.root
    | .broadcast => c.rank ≠ c.w.root
    | .topk | .softmax => c.d.deliverAll || c.rank = c.w.root
    | _ => true

/-- This rank reads SRC (R34, R416). -/
def PC.readsSrc (c : PC) : Bool := c.d.kind.usesSrc && (c.d.kind ≠ .broadcast || c.rank = c.w.root)

/-- Elements of an entry of `res`: a block of an MX format (R98), one element otherwise. -/
def PC.bn (c : PC) : Nat := if c.d.wireFmt.isMx then c.d.blockSize else 1

/-- Bytes of a wire unit (R99): a block, a byte of two INT4 elements (R107), an element. -/
def PC.wireBytes (c : PC) : Nat :=
  if c.d.wireFmt.isMx then 1 + c.d.blockSize * c.d.wireFmt.bits / 8
  else if c.d.wireFmt.isInt4 then 1 else c.d.wireFmt.bytes

/-- The elements of entry `u`, in order (R98). -/
def PC.unitElems (c : PC) (u : Nat) : List Nat :=
  let n := c.bn
  let d0 := colD0 c.readsSrc c.w
  (List.range n).map fun k =>
    if c.d.wireFmt.isMx && c.d.blockCol then (u / d0 * n + k) * d0 + u % d0 else u * n + k

/-- The entry that holds element `i`, and its place in it. -/
def PC.unitOf (c : PC) (i : Nat) : Nat × Nat :=
  let n := c.bn
  let d0 := colD0 c.readsSrc c.w
  if c.d.wireFmt.isMx && c.d.blockCol then (i / d0 / n * d0 + i % d0, i / d0 % n) else (i / n, i % n)

/-- The entries that wire unit `k` carries of a run of `n` elements from `lo`, in a kind that does not add: a block, two INT4 elements,
an element. -/
def PC.unitRes (c : PC) (lo n k : Nat) : List Nat :=
  if c.d.wireFmt.isInt4 then (List.range (min 2 (n - 2 * k))).map (lo + 2 * k + ·) else [lo / c.bn + k]

/-- Wire units of `n` elements in a kind that does not add. -/
def PC.unitCount (c : PC) (n : Nat) : Nat := if c.d.wireFmt.isInt4 then ceilDiv n 2 else n / c.bn

/-- Bytes of a row in an element format (R137): the stride of a softmax row, the largest top-k row. -/
def PC.rowBytes (c : PC) (f : Fmt) : Nat :=
  if c.d.kind = .topk then 8 + 8 * c.w.k else roundUp (8 + c.w.rowLen * f.bytes) 8

/-! ### Source bytes to contributions -/

/-- Bytes [off, off + len) of a stream's buffer, when they have arrived: each present, or masked. -/
def bufSlice (b : List (Option Byte)) (off len : Nat) : Option (List (Option Byte)) :=
  if off + len ≤ b.length then some ((b.drop off).take len) else none

/-- Element `k` of a wire unit of a packed format is present: its bytes, and its block's scale, have come (R50, R99, R107). -/
def packedHere (f : Fmt) (l : List (Option Byte)) (k : Nat) : Bool :=
  let o := if f.isMx then 1 else 0
  (!f.isMx || (l.headD none).isSome) &&
    (List.range ((k * f.bits + f.bits - 1) / 8 - k * f.bits / 8 + 1)).all fun j =>
      (l.getD (o + k * f.bits / 8 + j) none).isSome

/-- The bytes, and whether any is masked. -/
def bufBytes (l : List (Option Byte)) : List Byte × Bool := (l.map fun x => x.getD 0, l.any Option.isNone)

/-- Bytes of a stream read that its consumer may take: those of full halves of its staging pair, and the last (R184). -/
def Stream.shown (st : Stream) : Nat :=
  if st.total ≤ st.pos then st.buf.length else st.base + (st.buf.length - st.base) / 4096 * 4096

/-- The source stream's bytes that its consumer may take. -/
def Plane.src (pl : Plane) : List (Option Byte) :=
  ((pl.streams.find? fun s => s.id = .src).map fun s => s.buf.take s.shown).getD []

/-- Host element `i` of an unpacked host format: `none` where absent (R50, R196). -/
def hostElem (f : Fmt) (b : List (Option Byte)) (i : Nat) : Option (Option Elem × Flags) :=
  (bufSlice b (i * f.bytes) f.bytes).map fun l =>
    let x := bufBytes l
    if x.2 then (none, {}) else let r := readPlain f (leNat x.1); (some r.1, r.2)

/-- The draw of a conversion under SR (R73). -/
def PC.draw (c : PC) (elem j : Nat) : BitVec 16 :=
  if c.d.rnd = .sr then sparks c.w.seed (BitVec.ofNat 32 elem) c.node (BitVec.ofNat 5 j) else 0

/-- Convert a host element into an unpacked WIRE_FMT (R94, R95): an INT32 value becomes FP32 under RNE first, unless the wire carries
INT32. -/
def PC.toWire (c : PC) (e : Elem) (u : BitVec 16) : Nat × Flags :=
  match e with
  | .int v =>
    if c.d.wireFmt = .int32 then writePlain .int32 (.int v) c.d.rnd c.d.ovf u
    else
      let x := int32ToFp v
      let r := writePlain c.d.wireFmt (.fp x.1) c.d.rnd c.d.ovf u
      (r.1, x.2.or r.2)
  | e => writePlain c.d.wireFmt e c.d.rnd c.d.ovf u

/-- An entry of this rank's own data (R94): its bytes, which elements are present, and the flags of the conversion. -/
def PC.ownUnit (c : PC) (b : List (Option Byte)) (u : Nat) : Option (List Byte × List Bool × Flags) :=
  let h := hostFmt c.d
  if h.isInt4 then
    (bufSlice b (u / 2) 1).map fun l =>
      ([BitVec.ofNat 8 (leNat (bufBytes l).1 / 16 ^ (u % 2) % 16)], [packedHere h l (u % 2)], {})
  else if h.isPacked then
    (bufSlice b (u * c.wireBytes) c.wireBytes).map fun l => ((bufBytes l).1, (List.range c.bn).map (packedHere h l), {})
  else
    let es := (c.unitElems u).map fun i => (hostElem h b i).map fun e => (i, e)
    if es.any Option.isNone then none
    else
      let es := es.filterMap id
      let fl := es.foldl (fun f e => f.or e.2.2) ({} : Flags)
      let pres := es.map fun e => e.2.1.isSome
      if c.d.wireFmt.isMx then
        let vs := es.map fun e => (e.2.1.map Elem.toFp, c.draw e.1 31)
        let fl := vs.foldl (fun f e => match e.1 with
          | some x => f.or x.2
          | none => f) fl
        let r := quantBlock c.d.wireFmt (vs.map fun e => (e.1.map Prod.fst, e.2)) c.d.rnd c.d.ovf
        some (r.1, pres, fl.or r.2)
      else
        let r := es.map fun e => match e.2.1 with
          | some x => c.toWire x (c.draw e.1 31)
          | none => (0, {})
        some (r.flatMap (fun x => natBytes x.1 c.d.wireFmt.bytes), pres, r.foldl (fun f x => f.or x.2) fl)

/-- The values of the elements of a wire unit (R58, R105). -/
def PC.expandUnit (c : PC) (bs : List Byte) : List (Elem × Flags) :=
  if c.d.wireFmt.isMx then (expandBlock c.d.wireFmt c.d.blockSize bs).map fun r => (.fp r.1, r.2)
  else [readPlain c.d.wireFmt (leNat bs)]

/-- The operand of a value (R58): FP32 in normal mode, exact in assay mode. -/
def PC.operand (c : PC) (e : Elem) : Val × Flags :=
  if c.d.assay then
    match e with
    | .fp x => (.asy (AOp.toAssay (.fp x)), Flags.inv (isSnan x))
    | .int v => (.asy (AOp.toAssay (.exact (v * 2 ^ 149))), {})
    | .pair hi lo => (.asy (pairAssay hi lo), pairFlags hi lo)
  else let r := e.toFp; (.fp r.1, r.2)

/-- This rank's own row (R137, R144, R147): absent, or its value; `none` before its bytes have arrived. -/
def PC.ownRow (c : PC) (b : List (Option Byte)) (r : Nat) : Option (Option Val × Flags) :=
  let f := c.d.outFmt
  let conv (x : W32) (i : Nat) : W32 × Flags :=
    let q := writePlain c.d.wireFmt (.fp x) c.d.rnd c.d.ovf 0
    let e := expandPlain c.d.wireFmt q.1
    let _ := i
    (e.1, q.2.or e.2)
  if c.d.kind = .topk then
    let n := c.w.rowLen
    let es := (List.range n).map fun j => (hostElem f b (r * n + j)).map fun e => (j, e)
    if es.any Option.isNone then none
    else
      let rs := (es.filterMap id).filterMap fun e => match e.2.1 with
        | some x =>
          let v := x.toFp
          let q := conv v.1 e.1
          some ((q.1, field c.w.w7 32 32 + BitVec.ofNat 32 e.1), (e.2.2.or v.2).or q.2)
        | none => none
      some (some (.topk (topkOwn c.w.k (rs.map Prod.fst))), rs.foldl (fun fl x => fl.or x.2) {})
  else
    let st := c.rowBytes f
    (bufSlice b (r * st) st).map fun l =>
      let x := bufBytes l
      if ((l.take 4).any Option.isNone) then (none, {})
      else
        let o := (List.range c.w.rowLen).map fun j =>
          let e := readPlain f (leAt x.1 (8 + j * f.bytes) f.bytes)
          let q := conv e.1.toFp.1 j
          (q.1, e.2.or q.2)
        let m := canonFp32 (leWord 32 (slice x.1 0 4))
        let lv := canonFp32 (leWord 32 (slice x.1 4 4))
        (some (.soft m.1 lv.1 (o.map Prod.fst)), o.foldl (fun fl y => fl.or y.2) (m.2.or lv.2))

/-! ### Cells -/

/-- A data plane with nothing in it. -/
def Plane.empty : Plane :=
  { segs := [], outs := [], ins := [], streams := [], ranges := [], cells := [], res := [], starts := [], heldIn := false,
    hasDst := false, dbase := 0, dcount := 0, dpos := 0, flags := {}, raised := [], setIdx := 0, slotHeld := false,
    added := false, drained := false, setDone := false, sendCnt := [], recvCnt := [], recvLeft := 0, statDone := 0,
    stepNo := 0, stepGo := 0, rowSlot := none }

/-- Key of a cell. -/
def cellKey (seg i : Nat) : Nat := seg * 2 ^ 36 + i

/-- The value with which an element starts at a node (R59, R76, R118, R144, R148). -/
def PC.base (c : PC) (pl : Plane) (sg : Seg) (i : Nat) : Cell :=
  let zero : Val :=
    if c.d.kind = .topk then .topk [] else if c.d.kind = .softmax then .soft negInf 0 (List.replicate c.w.rowLen 0)
    else if c.d.assay then .asy { acc := 0, st := .finite, negz := !sg.start } else .fp (neutral c.d.op)
  if sg.start then (Tbl.get none pl.starts i).getD { val := zero } else { val := zero }

/-- The cell of element or row `i` in segment `si`. -/
def PC.cell (c : PC) (pl : Plane) (si : Nat) (sg : Seg) (i : Nat) : Cell :=
  let x := Tbl.get {} pl.cells (cellKey si i)
  if x.cnt = 0 then c.base pl sg i else x

/-- One of two assay values is the infinity `t`. -/
def met (a b : Assay) (t : ASt) : Bool := a.st = t || b.st = t

/-- Combine one contribution, number `k`, into a running value (R60, R77, R143, R148): `none` is absent (R50). Where no start value
enters and none comes with input 0, the first present contribution is loaded unchanged (R59). An assay element raises INVALID when it has met
both infinities, in whatever order they and NaNs come (R70, R81, R272). -/
def PC.combine (c : PC) (sg : Seg) (k i : Nat) (x : Cell) (v : Option Val) : Cell × List Flags :=
  match v with
  | none => ({ x with cnt := x.cnt + 1 }, [])
  | some v =>
    let r : Val × List Flags :=
      match x.val, v with
      | .fp a, .fp b =>
        if !sg.start && !x.present && !(sg.carry && k ≠ 0) then (.fp b, [])
        else
          let u := if c.d.rnd = .sr then sparks c.w.seed (BitVec.ofNat 32 i) sg.node (BitVec.ofNat 5 k) else 0
          let r := anvilOp c.d.op a b c.d.rnd u
          (.fp r.1, [r.2])
      | .asy a, .asy b =>
        let r := a.mergeF b
        (.asy r.1, [r.2.or (Flags.inv (!(x.pinf && x.ninf) && (x.pinf || met a b .pinf) && (x.ninf || met a b .ninf)))])
      | .topk a, .topk b => (.topk (topkKeep c.w.k a b), [])
      | .soft m l o, .soft m2 l2 o2 =>
        if !x.present then (v, [])
        else let r := softmaxMerge m l o m2 l2 o2; (.soft r.1.1 r.1.2.1 r.1.2.2, r.2)
      | a, _ => (a, [])
    let m (t : ASt) : Bool := match x.val, v with
      | .asy a, .asy b => met a b t
      | _, _ => false
    ({ val := r.1, present := true, cnt := x.cnt + 1, pinf := x.pinf || m .pinf, ninf := x.ninf || m .ninf }, r.2)

/-- Contributions apply in any order in assay mode and for MAX and MIN (R64). -/
def PC.anyOrder (c : PC) : Bool := !c.rows && (c.d.assay || c.d.op ≠ .sum)

/-- Contribution `k` of element `i` may be applied now (R60): its turn has come, and the start value is there (R120). -/
def PC.due (c : PC) (pl : Plane) (si : Nat) (sg : Seg) (k i : Nat) : Bool :=
  let x := Tbl.get {} pl.cells (cellKey si i)
  (c.anyOrder || x.cnt = k) && pl.slotHeld &&
    (!(sg.start && pl.heldIn) || (Tbl.get none pl.starts i).isSome)

/-- Raise the flags of a converter: no lane raises them (R56, R82). -/
def Plane.flag (pl : Plane) (f : Flags) : Plane := { pl with flags := pl.flags.or f }

/-- Raise the flags of one operation of a lane (R82, R85). -/
def Plane.lane (pl : Plane) (f : Flags) : Plane :=
  { pl with flags := pl.flags.or f, raised := if f = {} then pl.raised else pl.raised ++ [f] }

/-- Raise the flags of operations of lanes, in order. -/
def Plane.lanes (pl : Plane) (fs : List Flags) : Plane := fs.foldl Plane.lane pl

/-- Flags of an operand belong to the operation that takes it. -/
def joinLane (f : Flags) : List Flags → List Flags
  | [] => if f = {} then [] else [f]
  | x :: t => f.or x :: t

/-- Apply contribution `k` to element `i` of segment `si`. -/
def PC.apply (c : PC) (pl : Plane) (si : Nat) (sg : Seg) (k i : Nat) (v : Option Val) (f : Flags) : Plane :=
  let r := c.combine sg k i (c.cell pl si sg i) v
  ({ pl with cells := Tbl.set {} pl.cells (cellKey si i) r.1 }.flag f).lanes r.2

/-- Apply contribution `k`, a value `e` with the flags `f` of its conversion, to element `i` of segment `si` (R58). In assay mode a signalling
operand, and a pair of opposite infinities, raise INVALID in the lane that takes them (R70, R77, R85); the conversion of INT32 to FP32 is a
converter's. -/
def PC.applyElem (c : PC) (pl : Plane) (si : Nat) (sg : Seg) (k i : Nat) (e : Elem) (f : Flags) : Plane :=
  let o := c.operand e
  let r := c.combine sg k i (c.cell pl si sg i) (some o.1)
  let pl := { pl with cells := Tbl.set {} pl.cells (cellKey si i) r.1 }
  if c.d.assay then (pl.flag f).lanes (joinLane o.2 r.2) else (pl.flag (f.or o.2)).lanes r.2

/-- Apply contribution `k`, a partial, to element `i` of segment `si` (R77, R128). One that carries no contribution (`here` is false)
leaves PRESENT as it was; an assay partial is merged all the same, for the start value in it. -/
def PC.applyPart (c : PC) (pl : Plane) (si : Nat) (sg : Seg) (k i : Nat) (v : Val) (here : Bool) (f : Flags) : Plane :=
  match here, v with
  | false, .asy _ =>
    let was := (c.cell pl si sg i).present
    let pl := c.apply pl si sg k i (some v) {}
    { pl with cells := Tbl.set {} pl.cells (cellKey si i) { Tbl.get {} pl.cells (cellKey si i) with present := was } }
  | false, _ => c.apply pl si sg k i none {}
  | true, _ => c.apply pl si sg k i (some v) f

/-- Element `i` of segment `si` has taken every contribution. -/
def PC.complete (c : PC) (pl : Plane) (si : Nat) (sg : Seg) (i : Nat) : Bool :=
  let _ := c
  (Tbl.get {} pl.cells (cellKey si i)).cnt = sg.ins.length

/-- Every element of every segment is complete: this engine has made its last addition. -/
def PC.allComplete (c : PC) (pl : Plane) : Bool :=
  (List.range pl.segs.length).all fun si => match pl.segs[si]? with
    | some sg => (List.range sg.n).all fun k => c.complete pl si sg (sg.lo + k)
    | none => true

/-- Apply one unit of a segment's own input, if it has arrived and is due: the data plane after, or `none`. -/
def PC.ownStep (c : PC) (pl : Plane) (si : Nat) (sg : Seg) (k : Nat) : Option Plane :=
  let took (pl : Plane) : Plane := { pl with segs := pl.segs.modify si fun s => { s with took := s.took + 1 } }
  if c.rows then
    let i := sg.lo + sg.took
    if sg.took < sg.n && c.due pl si sg k i then
      (c.ownRow pl.src i).map fun r => took (c.apply pl si sg k i r.1 r.2)
    else none
  else
    let u := sg.lo / c.bn + sg.took
    let es := c.unitElems u
    if sg.took < sg.n / c.bn && es.all (c.due pl si sg k) then
      (c.ownUnit pl.src u).map fun r =>
        let vs := (c.expandUnit r.1).zip r.2.1
        took (((List.range es.length).foldl (fun pl j =>
          let i := es.getD j 0
          match vs[j]? with
          | some (e, true) => c.applyElem pl si sg k i e.1 e.2
          | _ => c.apply pl si sg k i none {}) pl).flag r.2.2)
    else none

/-- Apply one element of an earlier segment's result (R414), if complete and due. -/
def PC.prevStep (c : PC) (pl : Plane) (si : Nat) (sg : Seg) (k j : Nat) : Option Plane :=
  match pl.segs[j]? with
  | none => none
  | some sj =>
    let i := sg.lo + sg.took
    if sg.took < sg.n && c.complete pl j sj i && c.due pl si sg k i then
      let x := c.cell pl j sj i
      let pl := c.applyPart pl si sg k i x.val x.present {}
      some { pl with segs := pl.segs.modify si fun s => { s with took := s.took + 1 } }
    else none

/-- Take local contributions of a segment as far as they go (R63). -/
def PC.localRun (c : PC) (si : Nat) : Nat → Plane → Plane
  | 0, pl => pl
  | fuel + 1, pl =>
    match pl.segs[si]? with
    | none => pl
    | some sg =>
      let k := sg.ins.findIdx fun s => match s with
        | .flow _ => false
        | _ => true
      let r := match sg.ins[k]? with
        | some .own => c.ownStep pl si sg k
        | some (.seg j) => c.prevStep pl si sg k j
        | _ => none
      match r with
      | some pl => PC.localRun c si fuel pl
      | none => pl

/-- Local contributions of every segment. -/
def PC.locals (c : PC) (pl : Plane) : Plane :=
  (List.range pl.segs.length).foldl (fun pl si =>
    PC.localRun c si (((pl.segs[si]?).map fun s => s.n + 1).getD 0) pl) pl

/-- Copy this rank's own units of a kind that does not add to where they are sent and placed from (R94): `base` is the
first unit. -/
def PC.ownCopy (c : PC) (base : Nat) : Nat → Nat → Plane → Plane
  | 0, _, pl => pl
  | fuel + 1, u, pl =>
    match Tbl.get Res.pending pl.res (base + u) with
    | .pending =>
      match c.ownUnit pl.src u with
      | some r => PC.ownCopy c base fuel (u + 1)
          ({ pl with res := Tbl.set Res.pending pl.res (base + u) (.val (leNat r.1)) }.flag r.2.2)
      | none => pl
    | _ => PC.ownCopy c base fuel (u + 1) pl

/-! ### Results -/

/-- A value converted to OUT_FMT as an element of DST (R127): its code and flags. -/
def PC.outCode (c : PC) (i : Nat) (v : Val) : Nat × Flags :=
  match v with
  | .fp x =>
    let u := if c.d.rnd = .sr then sparks c.w.seed (BitVec.ofNat 32 i) c.node 30 else 0
    writePlain c.d.outFmt (.fp x) c.d.rnd c.d.ovf u
  | .asy a => assayTo c.d.outFmt a c.d.rnd c.d.ovf
  | _ => (0, {})

/-- A top-k row in the wire form (R138): header, then its valid records, values of format `f`. -/
def topkBytes (f : Fmt) (rnd : Rnd) (ovf : Ovf) (recs : List (W32 × W32)) : List Byte × Flags :=
  let cs := recs.map fun r => (writePlain f (.fp r.1) rnd ovf 0, r.2)
  (natBytes recs.length 8 ++ cs.flatMap (fun x => natBytes x.1.1 4 ++ toBytes x.2 4),
    cs.foldl (fun a x => a.or x.1.2) {})

/-- A softmax row at the stride of R137, O in format `f`. -/
def PC.softBytes (c : PC) (f : Fmt) (m l : W32) (o : List W32) : List Byte × Flags :=
  let cs := o.map fun x => writePlain f (.fp x) c.d.rnd c.d.ovf 0
  let b := toBytes m 4 ++ toBytes l 4 ++ cs.flatMap fun x => natBytes x.1 f.bytes
  (slice b 0 (c.rowBytes f), cs.foldl (fun a x => a.or x.2) {})

/-- A row converted to OUT_FMT (R145, R149): its bytes in wire form, the flags of the conversion, and those of each division. -/
def PC.outRow (c : PC) (v : Val) : (List Byte × Flags) × List Flags :=
  match v with
  | .topk recs => (topkBytes c.d.outFmt c.d.rnd c.d.ovf recs, [])
  | .soft m l o =>
    if c.d.normalise then
      let q := o.map fun x => anvilDiv x l
      (c.softBytes c.d.outFmt m l (q.map Prod.fst), q.map Prod.snd)
    else (c.softBytes c.d.outFmt m l o, [])
  | _ => (([], {}), [])

/-- The flags of a drained element (R85): the rounding of an exact sum to FP32 or PAIR32 is a lane's, every other conversion a
converter's. -/
def PC.drainFlag (c : PC) (v : Val) (f : Flags) (pl : Plane) : Plane :=
  match v with
  | .asy _ => if c.d.outFmt = .fp32 || c.d.outFmt = .pair32 then pl.lane f else pl.flag f
  | _ => pl.flag f

/-- Drain element or row `i` (R127, R128): masked where PRESENT is clear (a top-k row never is). -/
def PC.drainOne (c : PC) (pl : Plane) (i : Nat) (x : Cell) : Plane :=
  if c.d.kind ≠ .topk && !x.present then { pl with res := Tbl.set Res.pending pl.res i .masked }
  else if c.rows then
    let r := c.outRow x.val
    ({ pl with res := Tbl.set Res.pending pl.res i (.val (leNat r.1.1)) }.flag r.1.2).lanes r.2
  else
    let r := c.outCode i x.val
    c.drainFlag x.val r.2 { pl with res := Tbl.set Res.pending pl.res i (.val r.1) }

/-- Drain every element held by the result segments that has taken its last contribution here and has not been drained (R405), in ascending
order (R127), unless END holds the set open (R119). -/
def PC.drainReady (c : PC) (pl : Plane) : Plane :=
  if !c.d.kind.adding || c.d.endp = .hold || !pl.slotHeld then pl
  else
    (List.range pl.segs.length).foldl (fun pl si => match pl.segs[si]? with
      | some sg =>
        if sg.fin then
          (List.range sg.n).foldl (fun pl k =>
            if Tbl.get Res.pending pl.res (sg.lo + k) = .pending && c.complete pl si sg (sg.lo + k) then
              PC.drainOne { c with node := sg.node } pl (sg.lo + k) (c.cell pl si sg (sg.lo + k))
            else pl) pl
        else pl
      | none => pl) pl

/-! ### Runs -/

/-- The units of a run: first unit, count, elements of a unit for presence (0: no MASK billets, R203). -/
def PC.runUnits (c : PC) (r : Run) : Nat × Nat × Nat :=
  match r with
  | .part _ lo n wire =>
    if c.d.kind = .topk then (lo, n, 0) else if c.d.kind = .softmax then (lo, n, c.w.rowLen + 2)
    else if wire then (lo / c.bn, n / c.bn, c.bn) else (lo, n, 1)
  | .res lo n =>
    if !c.d.kind.adding then (lo / c.bn, c.unitCount n, 0)
    else if c.d.kind = .topk then (lo, n, 0) else if c.d.kind = .softmax then (lo, n, c.w.rowLen + 2) else (lo, n, 1)
  | .data lo n => (lo / c.bn, c.unitCount n, 0)
  | .held lo n => (lo, n, 1)

/-- Bytes of a unit of a run, where they do not depend on its content (top-k rows do). -/
def PC.unitBytes (c : PC) (r : Run) : Nat :=
  match r with
  | .part _ _ _ wire =>
    if c.d.kind = .softmax then c.rowBytes c.d.wireFmt else if wire then c.wireBytes else 48
  | .res _ _ =>
    if !c.d.kind.adding then c.wireBytes else if c.d.kind = .softmax then c.rowBytes c.d.outFmt else c.d.outFmt.bytes
  | .data _ _ => c.wireBytes
  | .held _ _ => if c.d.assay then 48 else 4

/-- Byte offset of element `e` within a unit of a run. -/
def PC.elemOff (c : PC) (r : Run) (e : Nat) : Nat :=
  let f := match r with
    | .part _ _ _ _ => c.d.wireFmt
    | _ => c.d.outFmt
  if c.d.kind = .softmax then (if e = 0 then 0 else if e = 1 then 4 else 8 + (e - 2) * f.bytes)
  else match r with
    | .part _ _ _ true => if f.isMx then 1 + e * f.bits / 8 else 0
    | _ => 0

/-- A unit of a partial in WIRE_FMT (R65): the elements' values quantised on send, step 31. -/
def PC.wireOut (c : PC) (sg : Seg) (xs : List (Nat × Cell)) : List Byte × Flags :=
  let u (i : Nat) : BitVec 16 :=
    if c.d.rnd = .sr then sparks c.w.seed (BitVec.ofNat 32 i) sg.node 31 else 0
  let val (x : Cell) : W32 := match x.val with
    | .fp v => v
    | _ => 0
  if c.d.wireFmt.isMx then
    quantBlock c.d.wireFmt (xs.map fun e => (if e.2.present then some (val e.2) else none, u e.1)) c.d.rnd c.d.ovf
  else
    let r := xs.map fun e =>
      if e.2.present then writePlain c.d.wireFmt (.fp (val e.2)) c.d.rnd c.d.ovf (u e.1) else (0, {})
    (r.flatMap (fun x => natBytes x.1 c.d.wireFmt.bytes), r.foldl (fun f x => f.or x.2) {})

/-- Wire unit `k` of a run of data, in a kind that does not add, if it is there. -/
def PC.dataOut (c : PC) (pl : Plane) (lo n k : Nat) : Option (List Byte × List Bool × Flags) :=
  let rs := (c.unitRes lo n k).map fun u => Tbl.get Res.pending pl.res u
  if rs.all Res.whole then
    let v := rs.foldr (fun r a => (match r with
      | .val x => x
      | _ => 0) + 16 * a) 0
    some (natBytes v c.wireBytes, [], {})
  else none

/-- Unit `k` of a run to send, if it is ready: bytes, presence of its elements, flags. A partial of one unmodified contribution
is sent as that contribution was converted (R65, R66, R94; log 10). -/
def PC.unitOut (c : PC) (pl : Plane) (r : Run) (k : Nat) : Option (List Byte × List Bool × Flags) :=
  let ru := c.runUnits r
  match r with
  | .part si _ _ wire =>
    match pl.segs[si]? with
    | none => none
    | some sg =>
      if c.rows then
        let i := ru.1 + k
        if c.complete pl si sg i then
          let x := c.cell pl si sg i
          match x.val with
          | .topk recs => let b := topkBytes c.d.wireFmt .rne c.d.ovf recs; some (b.1, [], b.2)
          | .soft m l o => let b := c.softBytes c.d.wireFmt m l o
                           some (b.1, List.replicate (c.w.rowLen + 2) x.present, if x.present then b.2 else {})
          | _ => none
        else none
      else if !wire then
        let i := ru.1 + k
        if c.complete pl si sg i then
          let x := c.cell pl si sg i
          match x.val with
          | .asy a => some (a.toBytes, [x.present], {})
          | _ => none
        else none
      else
        let es := c.unitElems (ru.1 + k)
        if es.all (c.complete pl si sg) then
          if single pl.segs pl.segs.length si then (c.ownUnit pl.src (ru.1 + k)).map fun x => (x.1, x.2.1, {})
          else
            let xs := es.map fun i => (i, c.cell pl si sg i)
            let b := c.wireOut sg xs
            some (b.1, xs.map fun e => e.2.present, b.2)
        else none
  | .res lo n | .data lo n =>
    if !c.d.kind.adding then c.dataOut pl lo n k
    else match Tbl.get Res.pending pl.res (ru.1 + k) with
    | .pending | .part _ _ => none
    | .masked => some (List.replicate (c.unitBytes r) 0, List.replicate ru.2.2 false, {})
    | .val v =>
      let len := if c.d.kind = .topk then 8 + 8 * (v % 128) else c.unitBytes r
      some (natBytes v len, List.replicate ru.2.2 true, {})
  | .held _ _ =>
    match Tbl.get none pl.starts (ru.1 + k) with
    | some x => match x.val with
      | .fp v => some (toBytes v 4, [x.present], {})
      | .asy a => some (a.toBytes, [x.present], {})
      | _ => none
    | none => none

/-- Presence of elements [g·512, g·512 + 512) of a run, when every unit that holds one is ready. -/
def PC.groupPres (c : PC) (pl : Plane) (r : Run) (g : Nat) : Option (List Bool) :=
  let ru := c.runUnits r
  let epu := ru.2.2
  let k0 := g * 512 / epu
  let k1 := min ru.2.1 ((g * 512 + 512 + epu - 1) / epu)
  let us := (List.range (k1 - k0)).map fun j => c.unitOut pl r (k0 + j)
  if us.any Option.isNone then none
  else some (((us.filterMap id).flatMap fun u => u.2.1).drop (g * 512 - k0 * epu) |>.take 512)

/-- The payload of a MASK billet (R203). -/
def maskPayload (ps : List Bool) : Payload := BitVec.ofNat 512 (ps.foldr (fun b a => b2n b + 2 * a) 0)

/-- Cut full billets off a byte string. -/
def cutBillets : Nat → List Byte → List Item × List Byte
  | 0, b => ([], b)
  | fuel + 1, b =>
    if b.length < 64 then ([], b)
    else let r := cutBillets fuel (b.drop 64); ({ mask := false, data := payloadOf (b.take 64) } :: r.1, r.2)

/-- The groups of 512 elements that begin in unit `k`, of `epu` elements: each with the index of its first element in the unit. -/
def groupsIn (epu k : Nat) : List (Nat × Nat) :=
  let g0 := (k * epu + 511) / 512
  (List.range ((k * epu + epu + 511) / 512 - g0)).map fun j => (g0 + j, (g0 + j) * 512 - k * epu)

/-- MASK billets of a unit that is put behind `tail` bytes: for each group that begins in it and holds an absent element, the billet, and
the billet boundary before the first DATA billet that carries an element of the group (R203). -/
def PC.masksIn (c : PC) (pl : Plane) (r : Run) (k tail : Nat) : List (Nat × Item) :=
  (groupsIn (c.runUnits r).2.2 k).filterMap fun g =>
    let ps := (c.groupPres pl r g.1).getD []
    if ps.all id then none else some ((tail + c.elemOff r g.2) / 64, { mask := true, data := maskPayload ps })

/-- Put unit bytes into a flow, with the MASK billets of the groups that begin in it (R203). -/
def PC.putUnit (c : PC) (pl : Plane) (r : Run) (k : Nat) (bytes : List Byte) (fo : FlowOut) : FlowOut :=
  let all := fo.tail ++ bytes
  let x := cutBillets (all.length / 64) all
  let ms := c.masksIn pl r k fo.tail.length
  let put := if ms = [] then x.1 else (List.range (x.1.length + 1)).flatMap fun j =>
    (ms.filter fun m => m.1 = j).map Prod.snd ++ (x.1[j]?).toList
  { fo with items := fo.items ++ put, tail := x.2, off := fo.off + 1 }

/-- The units that must be ready before unit `k` is sent: those of the groups it touches (R203). -/
def PC.lookahead (c : PC) (pl : Plane) (r : Run) (k : Nat) : Bool :=
  let epu := (c.runUnits r).2.2
  epu = 0 ||
    (List.range ((k * epu + epu - 1) / 512 - k * epu / 512 + 1)).all fun j => (c.groupPres pl r (k * epu / 512 + j)).isSome

/-- Send as much of a flow's runs as is ready, `fuel` units at most. `go` bounds the run in ROTATE (R42). -/
def PC.fillFlow (c : PC) (pl : Plane) (go : Nat) : Nat → FlowOut → FlowOut × Flags
  | 0, fo => (fo, {})
  | fuel + 1, fo =>
    match fo.runs[fo.cur]? with
    | none => (fo, {})
    | some r =>
      let ru := c.runUnits r
      if go ≤ fo.cur then (fo, {})
      else if ru.2.1 ≤ fo.off then
        let items := if fo.tail = [] then fo.items else fo.items ++ [{ mask := false, data := payloadOf fo.tail }]
        PC.fillFlow c pl go fuel { fo with items := items, tail := [], off := 0, cur := fo.cur + 1 }
      else if c.lookahead pl r fo.off then
        match c.unitOut pl r fo.off with
        | none => (fo, {})
        | some u =>
          let x := PC.fillFlow c pl go fuel (c.putUnit pl r fo.off u.1 fo)
          (x.1, x.2.or u.2.2)
      else (fo, {})

/-- Bytes and units a run may still need, as fuel. -/
def PC.runFuel (c : PC) (fo : List Run) : Nat := (fo.map fun r => (c.runUnits r).2.1 + 1).sum + 1

/-- Fill every flow. -/
def PC.fill (c : PC) (pl : Plane) : Plane :=
  (List.range pl.outs.length).foldl (fun pl i => match pl.outs[i]? with
    | some fo =>
      let go := if c.d.kind = .rotate then pl.stepGo else fo.runs.length
      let r := c.fillFlow pl go (c.runFuel fo.runs) fo
      { pl with outs := pl.outs.set i r.1 }.flag r.2
    | none => pl) pl

/-! ### Receiving -/

/-- Presence of element `e` of the current run of a flow. -/
def FlowIn.present (fi : FlowIn) (e : Nat) : Bool :=
  match fi.masks.find? fun m => m.1 = e / 512 with
  | some m => bit m.2 (e % 512)
  | none => true

/-- The next unit of a flow's current run, if `tail` holds it: its bytes. -/
def PC.nextUnit (c : PC) (r : Run) (tail : List Byte) : Option (List Byte) :=
  let rowDep : Bool := c.d.kind = .topk
  if rowDep then
    if tail.length < 8 then none
    else let n := 8 + 8 * (leAt tail 0 1 % 128); if tail.length < n then none else some (tail.take n)
  else let n := c.unitBytes r; if tail.length < n then none else some (tail.take n)

/-- A received row of a partial. -/
def PC.rowIn (c : PC) (bs : List Byte) : Val × Flags :=
  let f := c.d.wireFmt
  if c.d.kind = .topk then
    let n := leAt bs 0 1 % 128
    let rs := (List.range n).map fun j => (expandPlain f (leAt bs (8 + 8 * j) f.bytes), leWord 32 (slice bs (12 + 8 * j) 4))
    (.topk (rs.map fun x => (x.1.1, x.2)), {})
  else
    let o := (List.range c.w.rowLen).map fun j => expandPlain f (leAt bs (8 + j * f.bytes) f.bytes)
    (.soft (leWord 32 (slice bs 0 4)) (leWord 32 (slice bs 4 4)) (o.map Prod.fst), o.foldl (fun a x => a.or x.2) {})

/-- Elements of a wire unit that its first `len` bytes hold whole (R99). -/
def PC.partEls (c : PC) (len : Nat) : Nat :=
  if c.d.wireFmt.isMx then min c.bn ((len - 1) * 8 / c.d.wireFmt.bits) else 0

/-- Apply elements `j0` to `j1` of a received unit, number `k` of a run of partials in WIRE_FMT, whose bytes so far are `bs` (R58, R99):
`none` if one is not due. -/
def PC.elemsIn (c : PC) (pl : Plane) (fi : FlowIn) (si : Nat) (sg : Seg) (idx first k j0 j1 : Nat) (bs : List Byte) :
    Option Plane :=
  let es := c.unitElems (first + k)
  if ((es.take j1).drop j0).all (c.due pl si sg idx) then
    let vs := c.expandUnit bs
    some ((List.range (j1 - j0)).foldl (fun pl j =>
      let j := j0 + j
      match vs[j]? with
      | some e =>
        if fi.present (k * c.bn + j) then c.applyElem pl si sg idx (es.getD j 0) e.1 e.2
        else c.apply pl si sg idx (es.getD j 0) none {}
      | none => pl) pl)
  else none

/-- Apply one received unit, number `k` of its run, of flow `f`: `none` if it is not due. -/
def PC.unitIn (c : PC) (pl : Plane) (f : Nat) (fi : FlowIn) (r : Run) (k : Nat) (bs : List Byte) : Option Plane :=
  let ru := c.runUnits r
  match r with
  | .part si _ _ wire =>
    match pl.segs[si]? with
    | none => none
    | some sg =>
      let idx := sg.ins.findIdx (· = .flow f)
      if c.rows then
        let i := ru.1 + k
        if c.due pl si sg idx i then
          let v := c.rowIn bs
          let here := c.d.kind = .topk || fi.present (k * ru.2.2)
          some (c.apply pl si sg idx i (if here then some v.1 else none) (if here then v.2 else {}))
        else none
      else if !wire then
        let i := ru.1 + k
        if c.due pl si sg idx i then
          some (c.applyPart pl si sg idx i (.asy (Assay.ofBytes bs)) (fi.present k) {})
        else none
      else c.elemsIn pl fi si sg idx ru.1 k fi.sub c.bn bs
  | .res lo n | .data lo n =>
    if !c.d.kind.adding then
      let us := c.unitRes lo n k
      some { pl with res := (List.range us.length).foldl (fun t j =>
        Tbl.set Res.pending t (us.getD j 0) (.val (if c.d.wireFmt.isInt4 then leNat bs / 16 ^ j % 16 else leNat bs))) pl.res }
    else
      let v := if ru.2.2 ≠ 0 && !fi.present (k * ru.2.2) then Res.masked else .val (leNat bs)
      some { pl with res := Tbl.set Res.pending pl.res (ru.1 + k) v }
  | .held _ _ =>
    let v : Val := if c.d.assay then .asy (Assay.ofBytes bs) else .fp (leWord 32 bs)
    some { pl with starts := Tbl.set none pl.starts (ru.1 + k) (some { val := v, present := fi.present k }) }

/-- Apply the elements that have come of a block not yet whole (R99): `none` if one is not due. In a kind that does not add, they are there
to be written. -/
def PC.partIn (c : PC) (pl : Plane) (f : Nat) (fi : FlowIn) (r : Run) : Option (Plane × FlowIn) :=
  match r with
  | .part si _ _ true =>
    let n := c.partEls fi.tail.length
    match pl.segs[si]? with
    | some sg =>
      if c.rows || n ≤ fi.sub then some (pl, fi)
      else (c.elemsIn pl fi si sg (sg.ins.findIdx (· = .flow f)) (c.runUnits r).1 fi.off fi.sub n fi.tail).map fun x =>
        (x, { fi with sub := n })
    | none => some (pl, fi)
  | .part _ _ _ false => some (pl, fi)
  | .res lo _ | .data lo _ =>
    if c.d.kind.adding || !c.d.wireFmt.isMx || fi.tail = [] then some (pl, fi)
    else some ({ pl with res := Tbl.set Res.pending pl.res (lo / c.bn + fi.off) (.part fi.tail.length (leNat fi.tail)) }, fi)
  | .held _ _ => some (pl, fi)

/-- Take the units that a billet completes, and the elements of the next that it brings: `none` if one is not due. -/
def PC.units (c : PC) (f : Nat) : Nat → Plane → FlowIn → Option (Plane × FlowIn)
  | 0, pl, fi => some (pl, fi)
  | fuel + 1, pl, fi =>
    match fi.runs[fi.cur]? with
    | none => some (pl, { fi with tail := [] })
    | some r =>
      let ru := c.runUnits r
      if ru.2.1 ≤ fi.off then some (pl, { fi with cur := fi.cur + 1, off := 0, sub := 0, tail := [], masks := [] })
      else
        match c.nextUnit r fi.tail with
        | none => c.partIn pl f fi r
        | some bs =>
          match c.unitIn pl f fi r fi.off bs with
          | none => none
          | some pl => PC.units c f fuel pl { fi with off := fi.off + 1, sub := 0, tail := fi.tail.drop bs.length }

/-- Runs of no units are passed over. -/
def PC.skipEmpty (c : PC) : Nat → FlowIn → FlowIn
  | 0, fi => fi
  | fuel + 1, fi =>
    match fi.runs[fi.cur]? with
    | some r => if fi.off = 0 && (c.runUnits r).2.1 = 0 then PC.skipEmpty c fuel { fi with cur := fi.cur + 1 } else fi
    | none => fi

/-- Every billet of a flow has been received and applied. -/
def PC.inDone (c : PC) (fi : FlowIn) : Bool := (c.skipEmpty fi.runs.length fi).cur = fi.runs.length && fi.held = []

/-- The group that a MASK billet arriving now concerns (R203): the first whose first element is still to come. -/
def PC.nextGroup (c : PC) (r : Run) (fi : FlowIn) : Nat :=
  let epu := (c.runUnits r).2.2
  let at_ := fi.off * c.unitBytes r + fi.tail.length
  let start (g : Nat) : Nat := g * 512 / epu * c.unitBytes r + c.elemOff r (g * 512 % epu)
  let g0 := fi.off * epu / 512
  ((List.range (epu / 512 + 2)).find? fun j => decide (at_ ≤ start (g0 + j))).elim (g0 + epu / 512 + 2) (g0 + ·)

/-- Apply one billet of flow `f` (R61, R203): `none` if it is early. -/
def PC.item (c : PC) (pl : Plane) (f : Nat) (fi : FlowIn) (it : Item) : Option (Plane × FlowIn) :=
  let fi := c.skipEmpty fi.runs.length fi
  if it.mask then
    match fi.runs[fi.cur]? with
    | some r => if (c.runUnits r).2.2 = 0 then some (pl, fi)
        else some (pl, { fi with masks := fi.masks ++ [(c.nextGroup r fi, it.data)] })
    | none => some (pl, fi)
  else c.units f 66 pl { fi with tail := fi.tail ++ toBytes it.data 64 }

/-- Billets held in the reorder stage. -/
def Plane.heldCount (pl : Plane) : Nat := (pl.ins.map fun fi => (fi.held.filter fun i => !i.mask).length).sum

/-! ### The destination -/

/-- Entries of `res` that a unit of DST takes: two of INT4, one otherwise. -/
def PC.dstPer (c : PC) : Nat := if c.d.outFmt.isInt4 then 2 else 1

/-- Units of DST that hold elements 0 to `n` - 1: elements, or the bytes of a packed format (R96, R98, R107), where a block in which the
elements end counts whole. -/
def PC.dstUnits (c : PC) (n : Nat) : Nat :=
  if c.d.outFmt.isInt4 then ceilDiv n 2
  else if !c.d.outFmt.isPacked then n
  else
    let d0 := if c.d.blockCol then colD0 c.readsSrc c.w else 1
    let span := c.bn * d0
    (n / span * d0 + min d0 (n % span)) * c.wireBytes

/-- Bytes of an element or row of DST; 1 in a packed format, whose units are bytes. -/
def PC.dstSize (c : PC) : Nat :=
  if c.rows then c.rowBytes c.d.outFmt else if c.d.outFmt.isPacked then 1 else c.d.outFmt.bytes

/-- The unit of DST, counted from that of entry 0, at which the region begins that is being written. -/
def PC.unitBase (c : PC) (pl : Plane) : Nat :=
  if c.d.outFmt.isMx then pl.dbase * c.wireBytes else pl.dbase / c.dstPer

/-- Entries of `res` that elements 0 to `n` - 1 lie in. -/
def PC.entriesFor (c : PC) (n : Nat) : Nat :=
  if c.d.wireFmt.isMx && c.d.blockCol then
    let d0 := colD0 c.readsSrc c.w
    ceilDiv n (c.bn * d0) * d0
  else ceilDiv n c.bn

/-- Elements of unit `k` of a packed DST that lie below the CAPACITY of a counted kind (R40, R44). -/
def PC.keep (c : PC) (k : Nat) : Nat :=
  let counted : Bool := c.d.kind = .alltoall || c.d.kind = .recv
  if !counted then (if c.d.outFmt.isInt4 then 2 else c.bn)
  else if c.d.outFmt.isInt4 then min 2 (c.w.capacity - 2 * k)
  else ((c.unitElems k).filter fun i => decide (i < c.w.capacity)).length

/-- The bytes of the first `m` elements of a packed unit: bits of a byte that belong to a later element are 0, and bytes that hold only
later elements are not written (R40; log 64). -/
def PC.cutUnit (c : PC) (m : Nat) (bs : List Byte) : List (Option Byte) :=
  let f := c.d.outFmt
  let whole : Bool := f.isInt4 || m = c.bn
  let o := if f.isMx then 1 else 0
  let last := m * f.bits / 8
  let n := o + ceilDiv (m * f.bits) 8
  if whole then bs.map some
  else (List.range bs.length).map fun j =>
    if n ≤ j then none
    else if j = o + last then some (BitVec.ofNat 8 ((bs.getD j 0).toNat % 2 ^ (m * f.bits % 8))) else some (bs.getD j 0)

/-- Bytes of a masked unit of DST (R51, R197). -/
def PC.maskedBytes (c : PC) (n : Nat) : List (Option Byte) := List.replicate n (if c.d.maskZero then some 0 else none)

/-- Byte `k` of a packed DST, in a kind that does not add: a byte of INT4 that is masked in part, or cut by CAPACITY, is written with
0 in the place of the element that is not (R107; log 64). -/
def PC.packedElem (c : PC) (pl : Plane) (k : Nat) : Option (List (Option Byte) × Flags) :=
  if c.d.outFmt.isInt4 then
    let rs := (List.range (c.keep k)).map fun j => Tbl.get Res.pending pl.res (pl.dbase + 2 * k + j)
    if !rs.all Res.whole then none
    else if rs.all (fun r => r = .masked) then some (c.maskedBytes 1, {})
    else some ([some (BitVec.ofNat 8 (rs.foldr (fun r a => (match r with
      | .val x => x
      | _ => 0) + 16 * a) 0))], {})
  else
    let u := k / c.wireBytes
    let j := k % c.wireBytes
    let byte (v : Nat) : Option Byte := (c.cutUnit (c.keep u) (natBytes v c.wireBytes)).getD j none
    match Tbl.get Res.pending pl.res (pl.dbase + u) with
    | .pending => none
    | .masked => some ([(byte 0).bind fun b => if c.d.maskZero then some b else none], {})
    | .val v => some ([byte v], {})
    | .part n v => if j < n then some ([byte v], {}) else none

/-- Bytes of unit `k` of DST from `res`, if it is there (R94, R106, R197). A masked row of a softmax merge is masked whole, with its
padding: under MASK_POLICY KEEP no byte of its stride is written. R137 has padding written as 0 and R145 masks m, l and O alone
(DESIGN CHOICE, log 80). -/
def PC.dstElem (c : PC) (pl : Plane) (k : Nat) : Option (List (Option Byte) × Flags) :=
  let out := c.d.outFmt
  let i := pl.dbase + k
  if c.rows then
    let n := c.rowBytes out
    match Tbl.get Res.pending pl.res i with
    | .pending | .part _ _ => none
    | .masked => some (c.maskedBytes n, {})
    | .val v =>
      if c.d.kind = .topk then
        let k := 8 + 8 * (v % 128)
        some ((natBytes v k).map some ++ c.maskedBytes (n - k), {})
      else some ((natBytes v n).map some, {})
  else if c.d.kind.adding || c.d.kind = .drainSlot then
    match Tbl.get Res.pending pl.res i with
    | .pending | .part _ _ => none
    | .masked => some (c.maskedBytes out.bytes, {})
    | .val v => some ((natBytes v out.bytes).map some, {})
  else if out.isPacked then c.packedElem pl k
  else
    let u := c.unitOf i
    let elem (v : Nat) : Option (List (Option Byte) × Flags) :=
      if out = c.d.wireFmt then some ((natBytes v out.bytes).map some, {})
      else match (c.expandUnit (natBytes v c.wireBytes))[u.2]? with
      | some e => let r := writePlain out e.1 .rne c.d.ovf 0; some ((natBytes r.1 out.bytes).map some, e.2.or r.2)
      | none => none
    match Tbl.get Res.pending pl.res u.1 with
    | .pending => none
    | .masked => some (c.maskedBytes out.bytes, {})
    | .val v => elem v
    | .part n v => if u.2 < c.partEls n then elem v else none

/-- A half of the staging pair of a write stream has room (R184): one empties while the other fills. -/
def Stream.room (st : Stream) : Bool :=
  decide (st.pos + st.buf.length < st.base + 4096 * ((st.pos - st.base) / 4096 + 2))

/-- Change the stream of an ID. -/
def Plane.onStream (pl : Plane) (id : StreamId) (f : Stream → Stream) : Plane :=
  { pl with streams := pl.streams.map fun (s : Stream) => if s.id = id then f s else s }

/-- Put bytes into the write stream of an ID. -/
def Plane.push (pl : Plane) (id : StreamId) (bs : List (Option Byte)) : Plane :=
  pl.onStream id fun s => { s with buf := s.buf ++ bs }

/-- The write stream of an ID has room. -/
def Plane.room (pl : Plane) (id : StreamId) : Bool := ((pl.streams.find? fun s => s.id = id).map Stream.room).getD false

/-- The unit of DST after the one that went to its stream last. -/
def Stream.nextUnit (st : Stream) : Nat := ((st.spans.getLast?).map fun x => (x.1 + x.2) / st.esize).getD 0

/-- Unit `k` of DST has gone to its stream. -/
def Stream.hasUnit (st : Stream) (k : Nat) : Bool :=
  st.spans.any fun x => decide (x.1 ≤ k * st.esize) && decide ((k + 1) * st.esize ≤ x.1 + x.2)

/-- Bytes at offset `o` of the region go to the stream of DST. -/
def Stream.put (st : Stream) (o : Nat) (bs : List (Option Byte)) : Stream :=
  { st with
    buf := st.buf ++ bs
    spans := match st.spans.getLast? with
      | some x => if x.1 + x.2 = o then st.spans.dropLast ++ [(x.1, x.2 + bs.length)] else st.spans ++ [(o, bs.length)]
      | none => [(o, bs.length)] }

/-- The walk lies in memory. -/
def Stream.isMem (st : Stream) : Bool :=
  match st.place with
  | .weld _ _ => false
  | _ => true

/-- The next unit of DST to be written (R405): the one after the last written if it is there, else the first that is there and has not been
written. A weld stream carries its elements in order (R185), so only the one after the last may go to it. -/
def PC.nextPlace (c : PC) (pl : Plane) (st : Stream) : Option (Nat × List (Option Byte) × Flags) :=
  let at_ (k : Nat) : Option (Nat × List (Option Byte) × Flags) :=
    if st.hasUnit k then none else (c.dstElem pl k).map fun r => (k, r)
  let k := st.nextUnit
  (if k < pl.dcount then at_ k else none).orElse fun _ =>
    if st.isMem then (List.range pl.dcount).findSome? at_ else none

/-- Move results into the destination's stream as they are there (R405), `fuel` units at most. -/
def PC.place (c : PC) : Nat → Plane → Plane
  | 0, pl => pl
  | fuel + 1, pl =>
    if pl.hasDst && pl.dpos < pl.dcount && pl.room .dst then
      match (pl.streams.find? fun s => s.id = .dst).bind fun st => c.nextPlace pl st with
      | none => pl
      | some (k, r) => PC.place c fuel
          (({ pl with dpos := pl.dpos + 1 }.onStream .dst fun s => s.put (k * s.esize) r.1).flag r.2)
    else pl

/-- Elements of a ROWSTAT row (R129): D0 of DST, which for LINEAR is the whole count (R181). A WELD destination has no shape: the model takes
its whole element count as one row (DESIGN CHOICE, log 65). -/
def PC.rowElems (c : PC) (n : Nat) : Nat :=
  match c.w.dstDims with
  | (d0, _) :: _ => d0
  | [] => n

/-- One ROWSTAT row, when every element of it is there (R129). -/
def PC.statRow (c : PC) (pl : Plane) (d0 row : Nat) : Option (List Byte × List Flags) :=
  let es := (List.range (min d0 (pl.dcount - row * d0))).map fun j => c.dstElem pl (row * d0 + j)
  if es.any Option.isNone then none
  else
    let vs := (List.range es.length).map fun j => match Tbl.get Res.pending pl.res (pl.dbase + row * d0 + j) with
      | .val v => some (expandPlain c.d.outFmt v).1
      | _ => none
    let r := rowStat vs
    some (toBytes r.1.1 4 ++ toBytes r.1.2 4, r.2)

/-- Rows of ROWSTAT as far as they go. -/
def PC.stats (c : PC) : Nat → Plane → Plane
  | 0, pl => pl
  | fuel + 1, pl =>
    let d0 := c.rowElems pl.dcount
    if c.d.rowstat && pl.hasDst && d0 ≠ 0 && pl.statDone * d0 < pl.dcount && pl.room .stat then
      match c.statRow pl d0 pl.statDone with
      | none => pl
      | some r =>
        PC.stats c fuel (({ pl with statDone := pl.statDone + 1 }.push .stat (r.1.map some)).lanes r.2)
    else pl

/-- Nothing is left for the streams of the destination to receive. -/
def Plane.placed (pl : Plane) : Bool := !pl.hasDst || pl.dpos = pl.dcount

end Sys2Proof.Machine
end

