-- ==== Sys2Proof/Machine/Cursors.lean ====
section
/-! DEFINITION. Cursors of a heat's streams (R183): what of SRC has been taken and committed, what a billet needs of it, and how the
streams and flows of a paused heat go back to what has been committed (R191, R193). -/

namespace Sys2Proof.Machine

/-- The view in which rows of a slot of rows are written (R145, R149). -/
def PC.rowView (c : PC) (kind : SlotKind) (width e : Nat) : PC :=
  { c with
    d := { c.d with kind := if kind = .topk then .topk else .softmax, wireFmt := c.d.outFmt }
    w := { c.w with w6 := assemble 64 [(e - 1, 16), (if kind = .topk then width else 0, 32)]
                    w7 := BitVec.ofNat 64 width } }

/-- The data plane's view of a heat. The node is that of the converting rank (R95); DRAIN_SLOT has its own (R73), and sees the rows of a slot
of rows. -/
def Heat.pc (h : Heat) : PC :=
  let c : PC :=
    { d := h.id.d, w := h.id.w, rank := h.grp.rank, size := h.grp.size
      node := if h.id.d.kind = .drainSlot then 0xFFFFFFFF else BitVec.ofNat 32 h.grp.rank }
  match h.dp.rowSlot with
  | some r => c.rowView r.1 r.2.1 r.2.2
  | none => c

/-- First index in `res` of this rank's own entries, in a kind that does not add (R38, R39, R41, R44, R45). -/
def PC.ownBase (c : PC) : Nat :=
  match c.d.kind with
  | .allgather | .partialWrite => c.rank * c.w.count / c.bn
  | .alltoall => 2 ^ 44
  | _ => 0

/-- Entries that this rank supplies, in a kind that does not add. -/
def PC.ownCount (c : PC) (pl : Plane) : Nat :=
  if c.d.kind = .alltoall then pl.sendCnt.sum / c.bn else c.w.count / c.bn

/-! ### Commits -/

/-- Committed count of a flow at a peer. -/
def FlowOut.committedBy (f : FlowOut) (r : Nat) : Nat := ((f.committed.find? fun e => e.1 = r).map Prod.snd).getD 0

/-- The flow is committed up to here: every receiving rank has committed (R219). -/
def FlowOut.done (f : FlowOut) : Nat := (f.peers.map f.committedBy).foldl min f.items.length

/-- The circuit on which a flow reaches a peer (R219). -/
def FlowOut.circuitTo (f : FlowOut) (r : Nat) : Option Nat :=
  if f.circuits.length ≤ 1 then f.circuits.head? else f.circuits[f.peers.idxOf r]?

/-- The peer whose COMMIT a flow waits for. -/
def FlowOut.slowest (f : FlowOut) : Nat := (f.peers.find? fun r => f.committedBy r = f.done).getD (f.peers.headD 0)

/-- The circuits that a heat is bound to. -/
def Plane.circuits (pl : Plane) : List Nat := pl.outs.flatMap (fun f => f.circuits) ++ pl.ins.filterMap fun f => f.circuit

/-! ### SRC -/

/-- Bytes of SRC that one of its rows takes (R137, R147). -/
def PC.srcRow (c : PC) : Nat :=
  if c.d.kind = .topk then c.w.rowLen * c.d.outFmt.bytes else c.rowBytes c.d.outFmt

/-- Byte of SRC where own row or entry `u` begins. -/
def PC.srcByte (c : PC) (u : Nat) : Nat :=
  let f := hostFmt c.d
  if c.rows then u * c.srcRow
  else if f.isInt4 then u / 2
  else if f.isPacked then u * c.wireBytes else (c.unitElems u).headD 0 * f.bytes

/-- Byte of SRC by which own row or entry `u` has ended, and with it every entry of its block row under column direction (R98). -/
def PC.srcEnd (c : PC) (u : Nat) : Nat :=
  let f := hostFmt c.d
  if c.rows then (u + 1) * c.srcRow
  else if f.isInt4 then u / 2 + 1
  else if f.isPacked then (u + 1) * c.wireBytes
  else if c.d.wireFmt.isMx && c.d.blockCol then
    let d0 := colD0 c.readsSrc c.w
    (u / d0 + 1) * (c.bn * d0) * f.bytes
  else ((c.unitElems u).getLastD 0 + 1) * f.bytes

/-- Bytes of unit `k` of a run. -/
def PC.unitLen (c : PC) (pl : Plane) (r : Run) (k : Nat) : Nat :=
  if c.d.kind = .topk then ((c.unitOut pl r k).map fun u => u.1.length).getD (8 + 8 * c.w.k) else c.unitBytes r

/-- Units of a run that its first `m` bytes hold whole. -/
def PC.unitsIn (c : PC) (pl : Plane) (r : Run) (m : Nat) : Nat :=
  let n := (c.runUnits r).2.1
  if c.d.kind = .topk then
    ((List.range n).foldl (fun (a : Nat × Nat) k =>
      let e := a.2 + c.unitLen pl r k
      (if e ≤ m && a.1 = k then k + 1 else a.1, e)) (0, 0)).1
  else min n (m / c.unitBytes r)

/-- Bytes of a run. -/
def PC.runBytes (c : PC) (pl : Plane) (r : Run) : Nat :=
  let n := (c.runUnits r).2.1
  if c.d.kind = .topk then ((List.range n).map (c.unitLen pl r)).sum else n * c.unitBytes r

/-- Of each run of a flow, how many bytes its first `n` items carry (R96: each run begins a billet). -/
def PC.runsIn (c : PC) (pl : Plane) (f : FlowOut) (n : Nat) : List (Run × Nat) :=
  (f.runs.foldl (fun (a : List (Run × Nat) × Nat) r =>
    let b := c.runBytes pl r
    let need := ceilDiv b 64
    let got := min a.2 need
    (a.1 ++ [(r, min b (got * 64))], a.2 - got)) ([], ((f.items.take n).filter fun i => !i.mask).length)).1

/-- The own row or entry of SRC that unit `k` of a run sends as it was converted, if it is one (R66, R94). -/
def PC.ownOf (c : PC) (pl : Plane) (r : Run) (k : Nat) : Option Nat :=
  match r with
  | .part si lo _ _ =>
    if single pl.segs pl.segs.length si then some (if c.rows then lo + k else lo / c.bn + k) else none
  | .data lo n | .res lo n =>
    if c.d.kind.adding then none
    else
      let u := (c.unitRes lo n k).headD 0
      if c.ownBase ≤ u && u < c.ownBase + c.ownCount pl then some (u - c.ownBase) else none
  | .held _ _ => none

/-- The first own row or entry of each run of a flow that its first `n` items do not carry whole. -/
def PC.ownLeft (c : PC) (pl : Plane) (f : FlowOut) (n : Nat) : List Nat :=
  (c.runsIn pl f n).filterMap fun r =>
    let k := c.unitsIn pl r.1 r.2
    if k < (c.runUnits r.1).2.1 then c.ownOf pl r.1 k else none

/-- The next row or entry that a segment takes of SRC, if one is left, and whether it is due. -/
def PC.ownNext (c : PC) (pl : Plane) (si : Nat) (sg : Seg) : Option (Nat × Bool) :=
  let k := sg.ins.findIdx (· = .own)
  if sg.ins.length ≤ k then none
  else if c.rows then
    if sg.took < sg.n then some (sg.lo + sg.took, c.due pl si sg k (sg.lo + sg.took)) else none
  else if sg.took < sg.n / c.bn then
    let u := sg.lo / c.bn + sg.took
    some (u, (c.unitElems u).all (c.due pl si sg k))
  else none

/-- What the segments take next of SRC. -/
def PC.ownNexts (c : PC) (pl : Plane) : List (Nat × Bool) :=
  (List.range pl.segs.length).filterMap fun si => (pl.segs[si]?).bind fun sg => c.ownNext pl si sg

/-- How far the consumer of SRC has taken it (R63, R184): an adding kind up to the first element that is not due, with that element where it
is; another kind up to the first element not yet sent. Whatever the consumer takes next it takes as its bytes come. -/
def PC.srcTaken (c : PC) (pl : Plane) (total : Nat) : Nat :=
  if c.d.kind.adding then
    ((c.ownNexts pl).map fun x => if x.2 then c.srcEnd x.1 else c.srcByte x.1).foldl min total
  else if c.d.kind.carries then
    ((pl.outs.flatMap fun f => c.ownLeft pl f f.next).map c.srcEnd).foldl min total
  else total

/-- Byte `k`, in the order in which bytes have gone to a stream, lies at this offset of its region; `o` is where the one after the last
span lies. -/
def spanOff : List (Nat × Nat) → Nat → Nat → Nat
  | [], o, k => o + k
  | x :: t, _, k => if k < x.2 then x.1 + k else spanOff t (x.1 + x.2) (k - x.2)

/-- The first `n` bytes that have gone to a stream include those at offsets [lo, hi). -/
def spanHas : List (Nat × Nat) → Nat → Nat → Nat → Bool
  | [], _, _, _ => false
  | x :: t, n, lo, hi =>
    (decide (x.1 ≤ lo) && decide (hi ≤ x.1 + min n x.2)) || (decide (x.2 ≤ n) && spanHas t (n - x.2) lo hi)

/-- The first `n` bytes of the spans. -/
def spanTake : List (Nat × Nat) → Nat → List (Nat × Nat)
  | [], _ => []
  | x :: t, n => if n = 0 then [] else (x.1, min n x.2) :: spanTake t (n - x.2)

/-- Address of element `i` of a shape. -/
def walkAddr : Nat → Int → List (Nat × Int) → Int
  | _, base, [] => base
  | rest, base, (c, st) :: t => walkAddr (rest / c) (base + (rest % c : Nat) * st) t

/-- Address of byte `k` of a stream. -/
def Stream.addr (st : Stream) (k : Nat) : Nat :=
  let o := spanOff st.spans 0 k
  match st.place with
  | .mem base [] => base + o
  | .mem base dims => (walkAddr (o / st.esize) base dims).toNat + o % st.esize
  | .at as => as.getD (o / st.esize) 0 + o % st.esize
  | .weld _ _ => o

/-- Bytes from the cursor that lie together in one line. -/
def Stream.chunkLen (st : Stream) : Nat :=
  let a := st.addr st.pos
  ((List.range 64).takeWhile fun k =>
    decide (st.pos + k < st.total) && st.addr (st.pos + k) = a + k && (a + k) / 64 = a / 64).length

/-- The host has accepted unit `k` of DST (R183). -/
def Stream.took (st : Stream) (k : Nat) : Bool :=
  decide (st.total ≤ st.pos) || spanHas st.spans st.pos (k * st.esize) ((k + 1) * st.esize)

/-- Bytes of a write stream that stay in it after a rewind: those that the host has accepted, those of the write that is under way, and the
rest of a unit that they begin. -/
def Stream.kept (st : Stream) : Nat :=
  let n := match st.wait with
    | .mem _ => st.chunkLen
    | _ => 0
  min (roundUp (st.pos + n) st.esize) (st.pos + st.buf.length)

/-- Units of a write stream that have gone to it and stay there after a rewind. -/
def Plane.goneTo (pl : Plane) (id : StreamId) : Nat :=
  ((pl.streams.find? fun s => s.id = id).map fun s => ceilDiv s.kept s.esize).getD 0

/-- The first own entry that this rank places in its own DST and the host has not accepted (R38, R45, R183). -/
def PC.ownUnplaced (c : PC) (pl : Plane) : Option Nat :=
  if pl.hasDst && (c.d.kind = .allgather || c.d.kind = .partialWrite) then
    match pl.streams.find? fun s => s.id = .dst with
    | none => none
    | some st =>
      let units (u : Nat) : List Nat :=
        if c.d.outFmt.isMx then (List.range c.wireBytes).map (u * c.wireBytes + ·)
        else if c.d.outFmt.isInt4 then [u / 2] else c.unitElems u
      ((List.range (c.ownCount pl)).find? fun u =>
        (units (c.ownBase + u)).any fun k => c.unitBase pl ≤ k && !(st.took (k - c.unitBase pl)))
  else none

/-- The cursor of SRC: the first byte of the first element not committed (R183): one that a lane here takes, when it is applied; one that
goes out in a billet as it was converted, when the receiver has committed that billet; one that this rank places itself, when the host has
accepted it. -/
def PC.srcCursor (c : PC) (pl : Plane) (total : Nat) : Nat :=
  let lanes := if c.d.kind.adding then (c.ownNexts pl).map Prod.fst else []
  ((lanes ++ (pl.outs.flatMap fun f => c.ownLeft pl f f.done) ++ (c.ownUnplaced pl).toList).map c.srcByte).foldl min total

/-- Bytes of SRC that must have been read, or read again after a rewind, before item `n` of a flow goes (R184, R193). -/
def PC.srcNeed (c : PC) (pl : Plane) (f : FlowOut) (n : Nat) : Nat :=
  ((c.runsIn pl f (n + 1)).filterMap fun r =>
    let k := min (c.runUnits r.1).2.1 (c.unitsIn pl r.1 (r.2 + c.unitBytes r.1 - 1))
    if k = 0 then none else (c.ownOf pl r.1 (k - 1)).map c.srcEnd).foldl max 0

/-- The bytes of SRC that item `n` of a flow carries are there. -/
def PC.srcThere (c : PC) (pl : Plane) (f : FlowOut) (n : Nat) : Bool :=
  match pl.streams.find? fun s => s.id = .src with
  | some st => st.total ≤ st.pos || decide (c.srcNeed pl f n ≤ st.shown)
  | none => true

/-- Bytes of the unit in which a weld stream is counted: an element, or 4 bytes of a byte stream. -/
def Stream.weldUnit (st : Stream) : Nat := st.unit

/-- A read stream goes back to byte `p`, or the weld unit that it lies in: what lies beyond is read again (R184, R193). -/
def Stream.backTo (st : Stream) (p : Nat) : Stream :=
  let p := if p < st.total && !st.isMem then p / st.weldUnit * st.weldUnit else p
  { st with pos := p, base := p, buf := st.buf.take p, granted := if st.isMem then 0 else p / st.weldUnit, beats := [], excess := false
            wait := if p < st.total then (match st.wait with
              | .done | .mem _ | .grant => .idle
              | w => w) else st.wait }

/-- Rewind SRC to its cursor: what lies beyond is read again (R193). -/
def PC.rewindSrc (c : PC) (pl : Plane) (st : Stream) : Stream := st.backTo (min st.pos (c.srcCursor pl st.total))

/-- Rewind a write stream to the first unit of which the host has accepted nothing and no write is under way: bytes of a unit accepted in
part stay to be written. -/
def Stream.rewindOut (st : Stream) : Stream :=
  { st with buf := st.buf.take (st.kept - st.pos), spans := spanTake st.spans st.kept }

/-! ### Received flows -/

/-- How far a flow's bytes have been read. -/
def FlowIn.parse (f : FlowIn) : Parse := { cur := f.cur, off := f.off, sub := f.sub, tail := f.tail, masks := f.masks }

/-- Entries of `res` that a flow has brought since its last committed billet. -/
def PC.brought (c : PC) (f : FlowIn) : List Nat :=
  (List.range (f.cur + 1 - f.base.cur)).flatMap fun j =>
    let i := f.base.cur + j
    match f.runs[i]? with
    | some r =>
      let k0 := if j = 0 then f.base.off else 0
      let k1 := if i = f.cur then f.off else (c.runUnits r).2.1
      match r with
      | .res lo n | .data lo n =>
        let k1 := if i = f.cur && !c.d.kind.adding && c.d.wireFmt.isMx && f.tail ≠ [] then k1 + 1 else k1
        (List.range (k1 - k0)).flatMap fun k =>
          if c.d.kind.adding then [(c.runUnits r).1 + k0 + k] else c.unitRes lo n (k0 + k)
      | _ => []
    | none => []

/-- A flow goes back to its last committed billet: its sender sends the others again (R191, R193). -/
def FlowIn.back (f : FlowIn) : FlowIn :=
  { f with cur := f.base.cur, off := f.base.off, sub := f.base.sub, tail := f.base.tail, masks := f.base.masks, marks := []
           next := f.applied, held := [], refused := none, resumed := false, reported := max f.reported f.applied }

/-- A paused heat goes back to what has been committed (R183, R193): SRC is read again from its cursor, the destination is written
again from its own, received flows begin after their last committed billet, sent flows at theirs. Nothing is taken from staging. -/
def PC.rewind (c : PC) (pl : Plane) : Plane :=
  let own := match c.ownUnplaced pl with
    | some u => (List.range (c.ownCount pl - u)).map (c.ownBase + u + ·)
    | none => []
  let res := (pl.ins.flatMap c.brought ++ own).foldl (fun t u => Tbl.set Res.pending t u .pending) pl.res
  { pl with
    res := res
    dpos := if pl.hasDst then pl.goneTo .dst else pl.dpos
    statDone := if pl.hasDst && c.d.rowstat then pl.goneTo .stat else pl.statDone
    streams := pl.streams.map fun (st : Stream) =>
      if st.id = StreamId.src && !st.write then c.rewindSrc pl st
      else if st.write && (st.id = StreamId.dst || st.id = StreamId.xdst || st.id = StreamId.stat) then
        st.rewindOut
      else st
    outs := pl.outs.map fun f => { f with next := f.done }
    ins := pl.ins.map FlowIn.back }

end Sys2Proof.Machine
end

