-- ==== Sys2Proof/Machine/Streams.lean ====
section
/-! DEFINITION. Streams of heats and what carries them: translation (R188 to R190), memory requests (R186, R187, R362),
staging pairs (R184), the walk of a stream (R181), its memory accesses, and its weld beats and grants (R185, R361). -/

namespace Sys2Proof.Machine

/-! ### Translation -/

/-- Pages of 4 KiB in a page of size code `n` (R368). -/
def pageUnits (n : Nat) : Nat := [1, 16, 512, 262144].getD n 1

/-- A translation serves an access to virtual page `vp` (R188). -/
def XEnt.covers (e : XEnt) (sp : Space) (vp : Nat) (w : Bool) : Bool :=
  e.space = sp && e.vpage / pageUnits e.size = vp / pageUnits e.size && (e.write || !w)

/-- The physical address of a virtual one: bits below the page size come from the virtual address (R368). -/
def XEnt.phys (e : XEnt) (va : Nat) : Nat :=
  let u := pageUnits e.size * 4096
  e.ppage / pageUnits e.size * u + va % u

/-- The translation cache holds a translation (R188). -/
def State.xlateHit (s : State) (sp : Space) (vp : Nat) (w : Bool) : Option XEnt := s.wld.cache.find? (·.covers sp vp w)

/-- Place an entry in the cache as the most recently used; the 4,097th leaves (R188). -/
def State.cacheUse (s : State) (e : XEnt) : State :=
  { s with wld := { s.wld with cache := (e :: s.wld.cache.filter (· ≠ e)).take 4096 } }

/-- Remove entries from the cache (R188, R189). -/
def State.cacheDrop (s : State) (f : XEnt → Bool) : State :=
  { s with wld := { s.wld with cache := s.wld.cache.filter fun e => !f e } }

/-- All 256 translations and page requests are outstanding (R188). -/
def State.xlFull (s : State) : Bool := (Tbl.free s.wld.xl 256).isNone

/-- All 4,096 memory tags are in use (R186). -/
def State.tagsFull (s : State) : Bool := (Tbl.free s.wld.mem 4096).isNone

/-- All 64 writes of the pick port are outstanding (R367). -/
def State.pickFull (s : State) : Bool := 64 ≤ s.wld.pick.length

/-- Issue a translation or page request, if fewer than 256 are outstanding (R188, R368); the round robin goes on after it (R410). -/
def State.askXlate (s : State) (r : XReq) : Option (Nat × State) :=
  (Tbl.free s.wld.xl 256).map fun id =>
    (id, { s with wld := { s.wld with xl := Tbl.set none s.wld.xl id (some r), xturn := r.owner.turn } })

/-- Take a new translation: it replaces one of the same address space, size and page (R188). -/
def State.cacheAdd (s : State) (e : XEnt) : State :=
  (s.cacheDrop fun x => x.space = e.space && x.size = e.size && x.vpage / pageUnits x.size = e.vpage / pageUnits e.size).cacheUse e

/-- The translation that a heat uses: a pinned heat uses its pinned pages only (R190). -/
def State.xlateFor (s : State) (c : Nat) (h : Heat) (vp : Nat) (w : Bool) : Option XEnt :=
  if h.id.d.pin then (s.wld.pins.find? fun e => e.2 = c && e.1.covers h.id.space vp w).map Prod.fst
  else s.xlateHit h.id.space vp w

/-! ### Memory requests -/

/-- The port of a line: line address bits [9:6] (R186). -/
def portOfLine (line : Nat) : Nat := line % 16

/-- wclk cycles between requests of a port at a throttle code (R187). -/
def throttleGap (level : BitVec 2) : Nat := [1, 2, 4, 16].getD level.toNat 16

/-- WCLK_MHZ of the clock plan (R17, R346): its nominal 2,000 before an image is applied. -/
def State.wclkMhz (s : State) : Nat :=
  match fieldN (s.boot.cfg.clockPlan.headD 0) 0 16 with
  | 0 => 2000
  | n + 1 => n + 1

/-- The first wclk cycle that begins now or later (R17). -/
def State.wclkNow (s : State) : Nat := ceilDiv (s.time.now * s.wclkMhz) 1000000

/-- Issue a memory request under the lowest free tag (R362), spaced by the throttle (R187): the tag, whether the throttle
held it back, and the state after; `none` when all 4,096 tags are in use. The round robin of tags goes on after it (R186, R410). HELD counts each wclk cycle in which a request of some port is held
back once (R198). -/
def State.issueMem (s : State) (r : MemReq) : Option (Nat × Bool × State) :=
  (Tbl.free s.wld.mem 4096).map fun tag =>
    let p := portOfLine r.line
    let next := Tbl.get 0 s.wld.issued p
    let now := s.wclkNow
    let free := max now next
    let t := if next = 0 then free else max free (next - 1 + throttleGap s.wld.level)
    let counted := s.wld.heldIn.filter fun k => decide (now ≤ k)
    let held := ((List.range (t - free)).map (free + ·)).filter fun k => !counted.elem k
    (tag, decide (free < t),
      { s with wld := { s.wld with
          mem := Tbl.set none s.wld.mem tag (some { r with asOf := s.wld.acks + s.wld.invs.length })
          issued := Tbl.set 0 s.wld.issued p (t + 1)
          turn := r.owner.turn
          heldIn := counted ++ held
          heldCycles := satAdd s.wld.heldCycles held.length } })

/-- Mark a heat TIMING_PERTURBED (R55, R279). -/
def State.perturb (s : State) (c : Nat) : State := s.modHeat c fun h => { h with run := { h.run with timing := true } }

/-! ### Invalidation (R189, R368) -/

/-- The address-space ID of a space on the ports. -/
def Space.id : Space → BitVec 16
  | .steward => Config.stewardAsid
  | .asid a => a

/-- An invalidation covers a page: scopes 0 ALL, 1 ASID, 2 RANGE, and 3 as ALL. -/
def invCovers (i : BitVec 2 × BitVec 16 × Nat × Nat) (sp : Space) (vp size : Nat) : Bool :=
  let u := pageUnits size
  let lo := vp / u * u
  if i.1 = 1 then sp.id = i.2.1
  else if i.1 = 2 then sp.id = i.2.1 && decide (lo ≤ i.2.2.2) && decide (i.2.2.1 < lo + u)
  else true

/-- Accesses issued before the oldest pending invalidation with a translation that it covers, or pins of one, remain. The translation of
CMPL_ADDR, which R173 has held since validation, is no access until its record is written: an invalidation that covers it does not wait for
the record, and the record is written under the held translation all the same (DESIGN CHOICE, log 43). -/
def State.invHeld (s : State) (i : BitVec 2 × BitVec 16 × Nat × Nat) : Bool :=
  (s.wld.mem.any fun e => e.2.any fun r => decide (r.asOf ≤ s.wld.acks) && invCovers i r.space r.vpage r.size) ||
    (s.wld.pick.any fun w => decide (w.asOf ≤ s.wld.acks) && invCovers i w.space w.vpage w.size) ||
    s.wld.pins.any fun e => invCovers i e.1.space e.1.vpage e.1.size

/-- Acknowledge invalidations in the order of their acceptance (R189): at most `fuel`. -/
def State.ackInvs : Nat → State → State
  | 0, s => s
  | fuel + 1, s =>
    match s.wld.invs with
    | [] => s
    | i :: rest =>
      if s.invHeld i then s
      else State.ackInvs fuel { s with wld := { s.wld with invs := rest, acks := s.wld.acks + 1 } }

/-! ### Staging (R184) -/

/-- The lowest staging pair that no stream holds (DESIGN CHOICE, log 30: the spec does not say which a stream takes). -/
def State.freePair (s : State) : Option Nat :=
  (List.range 2048).find? fun n => !(s.heatList.any fun e => e.2.dp.streams.any fun st => st.staged && st.pairNo = n)

/-- A staging pair is free, within the limit of the heat's partition; queue 0 has no limit. -/
def State.stagingFree (s : State) (h : Heat) : Bool :=
  s.freePair.isSome &&
    match h.id.part with
    | none => true
    | some p => (s.use p).staging < (s.part p).quota.staging

/-- Change stream `i` of heat `c`. -/
def State.modStream (s : State) (c i : Nat) (f : Stream → Stream) : State :=
  s.modHeat c fun h => { h with dp := { h.dp with streams := h.dp.streams.modify i f } }

/-- Stream `i` of heat `c` takes a staging pair. -/
def State.takePair (s : State) (c i : Nat) : State :=
  s.modStream c i fun x =>
    if x.staged then x else { x with staged := true, pairNo := s.freePair.getD 0, base := x.pos, wait := .idle }

/-- The half of the pair that a read stream fills next is free (R184): its consumer has taken what the half held before. -/
def Stream.mayFill (st : Stream) (taken : Nat) : Bool :=
  decide (st.pos < st.base + 8192) || decide (st.base + 4096 * ((st.pos - st.base) / 4096 - 1) ≤ taken)

/-- How far the consumer of a read stream has taken it: SRC is taken by the data plane (R63, R184), other streams as their bytes come. -/
def Heat.taken (h : Heat) (st : Stream) : Nat := if st.id = .src then h.pc.srcTaken h.dp st.total else st.total

/-- Bytes of a write stream that may leave (R184): those of full halves, or all when the stream's last is there. -/
def Stream.ready (st : Stream) : Nat :=
  let e := st.pos + st.buf.length
  if st.total ≤ e then st.buf.length else st.base + (e - st.base) / 4096 * 4096 - st.pos

/-! ### The walk (R181) -/

/-- The next page of the walk after the one at the cursor (R188), searched over a page of elements. -/
def Stream.nextPage (st : Stream) : Option Nat :=
  let vp := st.addr st.pos / 4096
  let step := min st.esize 64
  ((List.range 4097).find? fun j =>
    decide (st.pos + j * step < st.total) && st.addr (st.pos + j * step) / 4096 ≠ vp).map fun j =>
      st.addr (st.pos + j * step) / 4096

/-- All its bytes have moved. -/
def Stream.ended (st : Stream) : Bool := st.total ≤ st.pos

/-- A write stream skips bytes that are not written (R197): a chunk with no enabled byte is passed over. -/
def Stream.skipMasked : Nat → Stream → Stream
  | 0, st => st
  | fuel + 1, st =>
    let n := st.chunkLen
    if st.write && n ≠ 0 && n ≤ st.ready && (st.buf.take n).all Option.isNone then
      Stream.skipMasked fuel { st with pos := st.pos + n, buf := st.buf.drop n }
    else st

/-- The line's data and byte enables of a write of bytes `bs` at address `a`. -/
def lineOf (a : Nat) (bs : List (Option Byte)) : Payload × W64 :=
  let o := a % 64
  (payloadOf (List.replicate o 0 ++ bs.map fun x => x.getD 0),
    BitVec.ofNat 64 (((List.range bs.length).map fun k => if (bs.getD k none).isSome then 2 ^ (o + k) else 0).sum))

/-- Prefetch the translation of the next page of a walk (R188), unless it is there or asked for. -/
def State.prefetch (s : State) (c i : Nat) : State :=
  match s.heat c with
  | none => s
  | some h =>
    match h.dp.streams[i]? with
    | none => s
    | some st =>
      match st.nextPage with
      | none => s
      | some vp =>
        let asked := s.wld.xl.any fun e => match e.2 with
          | some x => x.owner = .stream c st.id && x.vpage = vp
          | none => false
        if h.id.d.pin || asked || (s.xlateHit h.id.space vp st.write).isSome then s
        else match s.askXlate { page := false, space := h.id.space, vpage := vp, write := st.write,
                                owner := .stream c st.id } with
          | some r => r.2
          | none => s

/-- A memory stream has an access to make: a write's bytes are there, or a read has room for more (R183, R184). -/
def Heat.moves (h : Heat) (st : Stream) : Bool :=
  st.isMem && st.wait = .idle && !st.ended && (if st.write then decide (st.chunkLen ≤ st.ready) else st.mayFill (h.taken st))

/-- One attempt of a memory stream to go on: take a staging pair, find the translation, issue one access. -/
def State.streamStep (s : State) (c i : Nat) : State :=
  match s.heat c with
  | none => s
  | some h =>
    match h.dp.streams[i]? with
    | none => s
    | some st =>
      if st.wait ≠ .idle || !st.isMem then s
      else
        let st := st.skipMasked (st.total + 1)
        let s := s.modStream c i fun _ => if st.ended then { st with wait := .done, staged := false } else st
        let n := st.chunkLen
        if !h.moves st then s
        else if !st.staged && !s.stagingFree h then s.modStream c i fun x => { x with wait := .staging }
        else
          let s := s.takePair c i
          let a := st.addr st.pos
          let vp := a / 4096
          match s.xlateFor c h vp st.write with
          | none =>
            let asked := s.wld.xl.find? fun e => match e.2 with
              | some x => x.owner = .stream c st.id && x.vpage = vp && !x.slag
              | none => false
            match asked with
            | some e => s.modStream c i fun x => { x with wait := .xlate e.1 }
            | none =>
              match s.askXlate { page := false, space := h.id.space, vpage := vp, write := st.write,
                                 owner := .stream c st.id } with
              | some r => r.2.modStream c i fun x => { x with wait := .xlate r.1 }
              | none => s
          | some e =>
            let s := if h.id.d.pin then s else s.cacheUse e
            let pa := e.phys a
            let ln := lineOf a (st.buf.take n)
            let rq : MemReq :=
              { write := st.write, line := pa / 64, space := h.id.space, vpage := vp, size := e.size,
                data := if st.write then ln.1 else 0, be := if st.write then ln.2 else 0, owner := .stream c st.id }
            match s.issueMem rq with
            | none => s
            | some r =>
              let s := (r.2.2.modStream c i fun x => { x with wait := .mem r.1 })
              let s := if r.2.1 then s.perturb c else s
              s.prefetch c i

/-- A memory access of a stream has been answered OK: a read's bytes enter the buffer, a write's bytes are accepted. -/
def Stream.answered (st : Stream) (rdata : Payload) : Stream :=
  let n := st.chunkLen
  let st :=
    if st.write then
      { st with written := st.written + ((st.buf.take n).filter Option.isSome).length, buf := st.buf.drop n }
    else
      let o := st.addr st.pos % 64
      { st with buf := st.buf ++ ((List.range n).map fun k => some (byteAt rdata (o + k))) }
  let st := { st with pos := st.pos + n, wait := .idle }
  if st.ended then { st with wait := .done, staged := false } else st

/-! ### Weld streams (R185, R361) -/

/-- Units of the whole stream. -/
def Stream.weldUnits (st : Stream) : Nat := ceilDiv st.total st.weldUnit

/-- Take a staging pair for a weld stream, or wait for one. -/
def State.weldStage (s : State) (c i : Nat) (h : Heat) (st : Stream) : State :=
  if st.staged then s
  else if s.stagingFree h then s.takePair c i
  else s.modStream c i fun x => { x with wait := .staging }

/-- An outbound stream puts its next beat on the port's channel (R185, R197): a full beat, or the last of the stream. A lane of 4 bytes of an
MX or INT4 stream is masked where all its bytes are, and has 0 in the place of the others (DESIGN CHOICE, log 64: no row of R197 is for these
formats). -/
def State.weldOutStep (s : State) (c i : Nat) : State :=
  match s.heat c with
  | none => s
  | some h =>
    match h.dp.streams[i]? with
    | none => s
    | some st =>
      match st.place with
      | .weld port tag =>
        let n := min 128 (st.total - st.pos)
        if st.write && st.wait = .idle && n ≠ 0 && n ≤ st.ready then
          let s := s.weldStage c i h st
          match (s.heat c).bind fun h => h.dp.streams[i]? with
          | some x =>
            if x.staged then
              let bs := st.buf.take n
              let off (k : Nat) : Bool := ((bs.drop (4 * k)).take 4).all Option.isNone
              let data : BitVec 1024 := leWord 1024 (bs.map fun b => b.getD 0)
              let mask : W32 := BitVec.ofNat 32 (((List.range 32).map fun k => if off k then 2 ^ k else 0).sum)
              let s := s.modStream c i fun x => { x with wait := .grant }
              { s with wld := { s.wld with out := s.wld.out ++ [(port, tag, data, mask, decide (st.pos + n = st.total), c)] } }
            else s
          | none => s
        else s
      | _ => s

/-- The beat of an outbound stream has been accepted: its elements are committed (R183). Lanes whose mask bit is clear
were written. -/
def Stream.beatOut (st : Stream) : Stream :=
  let n := min 128 (st.total - st.pos)
  let bs := st.buf.take n
  let wr := ((List.range 32).map fun k =>
    let l := (bs.drop (4 * k)).take 4
    if l.all Option.isNone then 0 else l.length).sum
  let st := { st with pos := st.pos + n, buf := st.buf.drop n, written := st.written + wr, wait := .idle }
  if st.ended then { st with wait := .done, staged := false } else st

/-- Units of the next grant of an inbound stream: at most one staging half (R361). -/
def Stream.grantUnits (st : Stream) : Nat := min (4096 / st.weldUnit) (st.weldUnits - st.granted)

/-- How an inbound beat's bytes enter the buffer: `keep` tells whether a set mask bit makes the bytes at an offset of the
stream absent (R196). -/
def beatBytes (data : BitVec 1024) (mask : W32) (keep : Nat → Bool) (pos n : Nat) : List (Option Byte) :=
  (List.range n).map fun k => if bit mask (k / 4) && keep (pos + k) then none else some (byteAt data k)

/-- Take an inbound beat into a stream (R185): what is received, and whether SHORT and LONG are counted. -/
def Stream.beatIn (st : Stream) (data : BitVec 1024) (mask : W32) (last : Bool) (keep : Nat → Bool)
    (absent : Nat → Option Byte) : Stream × Bool × Bool :=
  let u := st.weldUnit
  let left := st.beats.headD 0
  let take := min left (128 / u)
  let n := min (take * u) (st.total - st.pos)
  let used := ceilDiv (take * u) 4
  let extra := (List.range 32).any fun k => used ≤ k && !bit mask k
  let st1 := { st with buf := st.buf ++ beatBytes data mask keep st.pos n, pos := st.pos + n }
  let rest := left - take
  let miss := if last then min (rest * u) (st.total - st1.pos) else 0
  let st2 := { st1 with buf := st1.buf ++ (List.range miss).map (fun k => absent (st1.pos + k)), pos := st1.pos + miss }
  let long := extra && !st.excess
  let st3 := if last then { st2 with beats := st2.beats.tail, excess := false }
    else { st2 with beats := if st2.beats = [] then [] else rest :: st2.beats.tail, excess := st2.excess || extra }
  (if st3.ended && st3.beats = [] then { st3 with wait := .done, staged := false } else st3, last && rest ≠ 0, long)

end Sys2Proof.Machine
end

