-- ==== Sys2Proof/Machine/Trace.lean ====
section
/-! DEFINITION. Recording and replay (R280 to R284): entries, the Trace queue, the trace buffer, ARRIVAL runs, and what a
replay expects next. -/

namespace Sys2Proof.Machine

/-- An entry of R281: time, code, and its fields (value, lowest bit). -/
def traceWord (time : BitVec 40) (code : Nat) (fs : List (Nat × Nat)) : BitVec 128 :=
  assemble 128 ((time.toNat, 88) :: (code, 84) :: fs)

/-- The code of an entry. -/
def entCode (e : BitVec 128) : Nat := fieldN e 84 4
/-- The time of an entry. -/
def entTime (e : BitVec 128) : BitVec 40 := field e 88 40

/-- Entries of the buffer (R282). -/
def State.traceSize (s : State) : Nat := 2 ^ s.trc.log2.toNat

/-- A partition (`none`: queue 0) is in the recorded scope, and recording runs (R280). -/
def State.recorded (s : State) (part : Option Nat) : Bool :=
  s.trc.enable && s.trc.active &&
    (s.trc.all || match part with
      | some p => p = s.trc.part.toNat
      | none => false)

/-- A partition is being replayed (R283). -/
def State.replaying (s : State) (part : Option Nat) : Bool :=
  s.trc.replay && match part with
    | some p => p = s.trc.part.toNat
    | none => false

/-- Ask for the translation of a page of the trace buffer, once. -/
def State.traceAsk (s : State) (o : ReqFor) (vp : Nat) (write : Bool) : State :=
  if s.wld.xl.any fun e => e.2.any fun r => r.owner = o then s
  else match s.askXlate { page := false, space := .steward, vpage := vp, write := write, owner := o } with
    | some r => r.2
    | none => s

/-- Write entries of the queue to the trace buffer while tags are free (R282): each takes 16 bytes of a line. -/
def State.tracePump : Nat → State → State
  | 0, s => s
  | fuel + 1, s =>
    match s.trc.queue with
    | [] => s
    | e :: rest =>
      let va := s.trc.base.toNat + 16 * s.trc.issued
      match s.trc.xl.find? (·.covers .steward (va / 4096) true) with
      | none => s.traceAsk (.trace s.trc.issued) (va / 4096) true
      | some x =>
        let ln := lineOf va ((toBytes e 16).map some)
        match s.issueMem { write := true, line := x.phys va / 64, space := .steward, vpage := va / 4096, size := x.size, data := ln.1,
                           be := ln.2, owner := .trace s.trc.issued } with
        | none => s
        | some r =>
          State.tracePump fuel
            { r.2.2 with trc := { r.2.2.trc with queue := rest, issued := s.trc.issued + 1, count := satInc s.trc.count } }

/-- End the recording with a STOP entry, which takes the place of anything that would not fit (R282). -/
def State.traceStop (s : State) (full : Bool) : State :=
  let e := traceWord (s.machineTime.setWidth 40) 4 [(1, 80), (s.trc.part.toNat, 72)]
  State.tracePump 257
    { s with trc := { s.trc with queue := s.trc.queue ++ [e], active := false, full := full, runs := [] } }

/-- Record an entry (R280, R282): lost when the queue of 256 is full; the last position of the buffer is for STOP. -/
def State.traceEntry (s : State) (e : BitVec 128) : State :=
  if 256 ≤ s.trc.queue.length then
    { s with trc := { s.trc with drop := satInc s.trc.drop, incomplete := true
                                 gap := s.trc.gap <|> some (s.trc.issued + s.trc.queue.length) } }
  else if s.traceSize ≤ s.trc.issued + s.trc.queue.length + 1 then s.traceStop true
  else State.tracePump 257 { s with trc := { s.trc with queue := s.trc.queue ++ [e] } }

/-- Record an input of the recorded scope at the current machine time. -/
def State.traceInput (s : State) (part : Option Nat) (code : Nat) (fs : List (Nat × Nat)) : State :=
  if s.recorded part then s.traceEntry (traceWord (s.machineTime.setWidth 40) code fs) else s

/-- The entry of an ARRIVAL run. -/
def ArrRun.entry (r : ArrRun) : BitVec 128 :=
  traceWord r.time 2 [(r.queue, 72), (r.index.toNat, 55), (r.src, 39), (r.first.toNat, 26), (r.count, 14)]

/-- Close the ARRIVAL run of a heat. -/
def State.traceClose (s : State) (c : Nat) : State :=
  match s.trc.runs.find? (·.ctx = c) with
  | none => s
  | some r =>
    let s := { s with trc := { s.trc with runs := s.trc.runs.filter fun x => x.ctx ≠ c } }
    if s.trc.enable && s.trc.active then s.traceEntry r.entry else s

/-- Close every ARRIVAL run. -/
def State.traceCloseAll (s : State) : State := (s.trc.runs.map fun r => r.ctx).foldl State.traceClose s

/-- End a recording otherwise than by a full buffer (R282): the open runs first; if they fill the buffer, its STOP entry stands. -/
def State.recordEnd (s : State) : State :=
  let s := s.traceCloseAll
  if s.trc.active then s.traceStop false else s

/-- A routed DATA or MASK billet of rank `src` has been applied to a heat (R280). -/
def State.traceArrival (s : State) (c : Nat) (h : Heat) (src : Nat) (seq : BitVec 13) : State :=
  if s.recorded h.id.part then
    match s.trc.runs.find? (·.ctx = c) with
    | some r =>
      if r.src = src && r.count < 4095 then
        { s with trc := { s.trc with runs := s.trc.runs.map fun x => if x.ctx = c then { x with count := x.count + 1 } else x } }
      else
        let s := s.traceClose c
        { s with trc := { s.trc with runs := s.trc.runs ++
          [{ ctx := c, queue := h.id.q, index := h.id.idx, src := src, first := seq, count := 1,
             time := s.machineTime.setWidth 40 }] } }
    | none =>
      { s with trc := { s.trc with runs := s.trc.runs ++
          [{ ctx := c, queue := h.id.q, index := h.id.idx, src := src, first := seq, count := 1,
             time := s.machineTime.setWidth 40 }] } }
  else s

/-- A translation result for a data stream of a heat (R280, R281). -/
def State.traceXlate (s : State) (h : Heat) (st : StreamId) (size : Nat) (fault fail : Bool) (ppage : Nat) : State :=
  s.traceInput h.id.part 3
    [(h.id.q, 72), (h.id.idx.toNat, 55), ((streamCode st), 52), (size, 50), (b2n fault, 49), (b2n fail, 48), (ppage % 2 ^ 40, 8)]

/-! ### Replay (R283, R284) -/

/-- End the replay; the partition runs live (R284). -/
def State.replayEnd (s : State) : State :=
  { s with trc := { s.trc with replay := false, active := false, entries := [], met := [], runEnds := [] } }

/-- Stop the replay at a divergence (R284). -/
def State.diverge (s : State) (reason : Nat) (idx : Nat) : State :=
  let s := s.replayEnd
  { s with trc := { s.trc with diverged := true, divReason := BitVec.ofNat 4 reason, divIndex := BitVec.ofNat 28 idx } }

/-- The first entry that the recording has lost, where it is INCOMPLETE. -/
def TrcSt.lost (t : TrcSt) : Option Nat := if t.incomplete then t.gap else none

/-- A replay that has applied every entry before the first lost one has reached it (R284). -/
def TrcSt.atGap (t : TrcSt) : Option Nat :=
  t.lost.filter fun g => (t.readAll || decide (g ≤ t.readNext)) && t.entries.all fun e => decide (g ≤ e.1)

/-- The replay ends when every entry up to the STOP entry has been applied, or diverges at the first lost entry (R284). -/
def State.replayOver (s : State) : State :=
  if !s.trc.replay then s
  else match s.trc.atGap with
    | some g => s.diverge 4 g
    | none => if s.trc.readAll && s.trc.entries.all (fun e => entCode e.2 = 4) then s.replayEnd else s

/-- Take an entry as applied. -/
def State.replayTake (s : State) (idx : Nat) : State :=
  State.replayOver { s with trc := { s.trc with
    entries := s.trc.entries.filter fun e => e.1 ≠ idx, count := satInc s.trc.count } }

/-- The heat that an entry names: QUEUE and INDEX as one number. -/
def entHeat (e : BitVec 128) : Nat := fieldN e 55 29

/-- QUEUE and INDEX of a heat as one number. -/
def Heat.entNo (h : Heat) : Nat := h.id.q * 2 ^ 17 + h.id.idx.toNat

/-- Entries of a code that name a heat. -/
def State.replayFor (s : State) (code no : Nat) : List (Nat × BitVec 128) :=
  s.trc.entries.filter fun e => entCode e.2 = code && entHeat e.2 = no

/-- Billets of a run that the replay has applied: the low bits of its entry, where R281 names no field, count them. -/
def entDone (e : BitVec 128) : Nat := fieldN e 0 12

/-- A routed billet of rank `src` and sequence `seq` is the one that the replay lets a heat take next (R283): in the next
recorded run of the heat, which its first sequence begins. A heat with no run left in a recording read to its end takes billets as
they come. -/
def State.replayDue (s : State) (h : Heat) (src : Nat) (seq : BitVec 13) : Bool :=
  match s.replayFor 2 h.entNo with
  | e :: _ => fieldN e.2 39 16 = src && (decide (0 < entDone e.2) || seq = field e.2 26 13)
  | [] => s.trc.readAll

/-- The billet has been applied: it counts toward its run, and the last one ends the run. -/
def State.replayArrival (s : State) (h : Heat) : State :=
  match s.replayFor 2 h.entNo with
  | e :: _ =>
    if fieldN e.2 14 12 ≤ entDone e.2 + 1 then
      State.replayTake { s with trc := { s.trc with
        runEnds := (s.trc.runEnds.filter fun x => x.1 ≠ h.entNo) ++ [(h.entNo, s.machineTime.toNat)] } } e.1
    else { s with trc := { s.trc with
      entries := s.trc.entries.map fun x => if x.1 = e.1 then (x.1, x.2 + 1#128) else x } }
  | [] => s

/-- Compare a live translation result, as the fields [54:8] of R281, with the next recorded one of the heat and stream; one whose
entry has not been read waits for it (R283, R284). -/
def State.compareXlate (s : State) (no fs : Nat) : State :=
  match (s.replayFor 3 no).filter fun e => fieldN e.2 52 3 = fs / 2 ^ 44 with
  | e :: _ => if fieldN e.2 8 47 = fs then s.replayTake e.1 else s.diverge 2 e.1
  | [] => if s.trc.readAll then s else { s with trc := { s.trc with met := s.trc.met ++ [(no, fs)] } }

/-- A live translation result of a replayed heat. -/
def State.replayXlate (s : State) (h : Heat) (st : StreamId) (size : Nat) (fault fail : Bool) (ppage : Nat) : State :=
  if s.replaying h.id.part then
    s.compareXlate h.entNo ((streamCode st) * 2 ^ 44 + size % 4 * 2 ^ 42 + b2n fault * 2 ^ 41 + b2n fail * 2 ^ 40 + ppage % 2 ^ 40)
  else s

/-- The results that waited are compared with what has been read. -/
def State.compareMet (s : State) : State :=
  let ms := s.trc.met
  ms.foldl (fun s m => if s.trc.replay then s.compareXlate m.1 m.2 else s) { s with trc := { s.trc with met := [] } }

/-- Read the next line of the trace buffer for a replay: four entries a line. -/
def State.replayRead (s : State) : State :=
  let busy := s.wld.mem.any fun e => match e.2 with
    | some r => match r.owner with
      | .replay _ => true
      | _ => false
    | none => false
  if !s.trc.replay || s.trc.readAll || busy then s
  else
    let va := s.trc.base.toNat + 16 * s.trc.readNext
    match s.trc.xl.find? (·.covers .steward (va / 4096) false) with
    | none => s.traceAsk (.replay s.trc.readNext) (va / 4096) false
    | some x =>
      match s.issueMem { write := false, line := x.phys va / 64, space := .steward, vpage := va / 4096, size := x.size,
                         owner := .replay s.trc.readNext } with
      | some r => r.2.2
      | none => s

/-- Entries of a line that a replay has read: up to the STOP entry. Other MARK entries have no effect. -/
def State.replayGot (s : State) (n : Nat) (rdata : Payload) : State :=
  let off := (s.trc.base.toNat + 16 * n) / 16 % 4
  let es : List (Nat × BitVec 128) := (List.range (4 - off)).map fun k => (n + k, field rdata (128 * (off + k)) 128)
  let isStop (e : Nat × BitVec 128) : Bool := entCode e.2 = 4 && fieldN e.2 80 4 = 1
  let upto : List (Nat × BitVec 128) := es.takeWhile (fun e => !isStop e) ++ (es.find? isStop).toList
  let done := es.any isStop || decide (s.traceSize ≤ n + es.length)
  let marks := upto.filter fun (e : Nat × BitVec 128) => entCode e.2 = 4 && !isStop e
  let first (k : BitVec 40) : BitVec 40 := match es with
    | (0, e) :: _ => entTime e
    | _ => k
  let s := { s with trc := { s.trc with
      entries := s.trc.entries ++ upto.filter fun (e : Nat × BitVec 128) => entCode e.2 ≠ 4 || isStop e
      count := satAdd s.trc.count marks.length, readNext := n + es.length, readAll := done, time0 := first s.trc.time0 } }
  s.compareMet.replayRead.replayOver

end Sys2Proof.Machine
end

