-- ==== Sys2Proof/Machine/Flows.lean ====
section
/-! DEFINITION. Billets of heats: READY (R32, R202), control billets (R191, R61, R193, R194), the sending of flows (R191,
R216, R218), commit reports and resumption. -/

namespace Sys2Proof.Machine

/-- Billet kinds (R200). -/
def kData : BitVec 4 := 0
def kMask : BitVec 4 := 1
def kReady : BitVec 4 := 2
def kCommit : BitVec 4 := 3
def kHold : BitVec 4 := 4
def kResume : BitVec 4 := 5
def kBeacon : BitVec 4 := 6
def kBarrier : BitVec 4 := 7
def kCounts : BitVec 4 := 8
def kCircuit : BitVec 4 := 9
def kTime : BitVec 4 := 0xA
def kTelemetry : BitVec 4 := 0xB
def kMgmt : BitVec 4 := 0xC
def kIdle : BitVec 4 := 0xF

/-- The IDLE billet (R200). -/
def idleBillet : Billet := { dest := 0, key := 0, kind := kIdle, vc := 0, gen := 0, tag := 0, seq := 0, data := 0 }

/-- The engine's endpoint ID. -/
def State.own (s : State) : BitVec 16 := s.boot.cfg.ownId

/-- A billet of a heat: the engine fills in key and generation (R213). -/
def Heat.billet (h : Heat) (dest : BitVec 16) (kind : BitVec 4) (vc : BitVec 3) (tag seq : Nat) (data : Payload) :
    Billet :=
  { dest := dest, key := h.id.key, kind := kind, vc := vc, gen := h.id.gen, tag := BitVec.ofNat 12 tag,
    seq := BitVec.ofNat 13 seq, data := data }

/-- The endpoint of a rank, as the heat knows it. -/
def Heat.ep (h : Heat) (r : Nat) : Option (BitVec 16) := (h.grp.eps.find? fun e => e.1 = r).map Prod.snd

/-- The context of a peer rank, when it is known (R32). -/
def Heat.peerCtx (h : Heat) (r : Nat) : Option (BitVec 12) := (h.grp.peers.find? fun e => e.1 = r).bind Prod.snd

/-- Send a control billet of a heat; a DRAIN_VC hold keeps it in the heat (R222). -/
def State.sendCtl (s : State) (c : Nat) (b : Billet) : State :=
  if s.heldBack b then s.modHeat c fun h => { h with grp := { h.grp with ctl := h.grp.ctl ++ [b] } }
  else s.inject b

/-- Send the control billets that a hold has kept, as far as it lets them go. -/
def State.flushCtl (s : State) (c : Nat) : State :=
  match s.heat c with
  | none => s
  | some h =>
    let s := s.modHeat c fun x => { x with grp := { x.grp with ctl := [] } }
    h.grp.ctl.foldl (fun s b => s.sendCtl c b) s

/-! ### READY (R32, R202) -/

/-- The BLOCK code of a descriptor (R97). -/
def Desc.blockCode (d : Desc) : Nat :=
  if d.wireFmt.isMx then ((List.range 6).findIdx fun k => blockSizeOf k = d.blockSize) + 8 * b2n d.blockCol else 0

/-- The OP code (R22). -/
def Op.code : Op → Nat
  | .sum => 0
  | .max => 1
  | .min => 2

/-- The tag that a flow's sender holds for a peer, and the tag that the peer holds for the flow. -/
def FlowOut.tagOf (f : FlowOut) (r : Nat) : Nat := f.tags.getD (f.peers.idxOf r) 0
def FlowOut.peerTag (f : FlowOut) (r : Nat) : Option Nat := (f.peerTags.find? fun e => e.1 = r).map Prod.snd

/-- Flow tags of a heat for the pair with rank `r`, in the order of R202: flows received from `r` first. -/
def Heat.pairTags (h : Heat) (r : Nat) : List Nat :=
  (h.dp.ins.filter fun f => f.peer = r).map (fun f => f.tag) ++ (h.dp.outs.filter fun f => f.peers.elem r).map fun f => f.tagOf r

/-- ROOT or PEER of a heat, in the kinds that have one (R202). -/
def Heat.rootOrPeer (h : Heat) : Nat :=
  if usesRoot h.id.d || h.id.d.kind = .send || h.id.d.kind = .recv then fieldN h.id.w.w6 0 16 else 0

/-- The fields of a READY that a heat compares or fills in (R202). -/
def Heat.readyData (h : Heat) (c : Nat) (own : BitVec 16) (r : Nat) : Payload :=
  let ts := h.pairTags r
  payloadAt
    ([(h.grp.digest.toNat, 0), (h.id.w.heatSeq.toNat, 8), (h.id.d.kind.code, 10),
      (h.id.d.op.code + 16 * h.id.d.wireFmt.code, 11), (h.id.d.blockCode, 12), (h.rootOrPeer, 14),
      (h.id.w.count, 16), (own.toNat, 20), (h.grp.rank, 22), (c, 24), (ts.length, 26)] ++
      (List.range ts.length).map fun k => (ts.getD k 0, 28 + 2 * k))

/-- Send READY to a rank. -/
def State.sendReady (s : State) (c r : Nat) : State :=
  match s.heat c with
  | none => s
  | some h =>
    match h.ep r with
    | some e => s.sendCtl c (h.billet e kReady 0 0 0 (h.readyData c s.own r))
    | none => s

/-- Send a READY reply, with MISMATCH as given. -/
def State.sendReply (s : State) (c r : Nat) (dest : BitVec 16) (mismatch : Bool) : State :=
  match s.heat c with
  | none => s
  | some h => s.sendCtl c (h.billet dest kReady 1 0 (1 + 2 * b2n mismatch) (h.readyData c s.own r))

/-- The tags that a READY carries. -/
def readyTags (d : Payload) : List Nat := (List.range (min (pAt d 26 1) 16)).map fun k => pAt d (28 + 2 * k) 2 % 4096

/-- Record a peer's context index and its flow tags, unless they are held already (R32). -/
def Heat.learn (h : Heat) (r : Nat) (d : Payload) : Heat :=
  if (h.peerCtx r).isSome then h
  else
    let ts := readyTags d
    let nOut := (h.dp.outs.filter fun f => f.peers.elem r).length
    let outs := (List.range h.dp.outs.length).filterMap fun i => (h.dp.outs[i]?).map fun f =>
      if f.peers.elem r then
        let k := ((h.dp.outs.take i).filter fun g => g.peers.elem r).length
        match ts[k]? with
        | some t => { f with peerTags := f.peerTags ++ [(r, t)] }
        | none => f
      else f
    let ins := (List.range h.dp.ins.length).filterMap fun i => (h.dp.ins[i]?).map fun f =>
      if f.peer = r then
        let k := ((h.dp.ins.take i).filter fun g => g.peer = r).length
        { f with peerTag := f.peerTag <|> ts[nOut + k]? }
      else f
    { h with dp := { h.dp with outs := outs, ins := ins }
             grp := { h.grp with peers := h.grp.peers.map fun e =>
               if e.1 = r then (r, some (BitVec.ofNat 12 (pAt d 24 2))) else e } }

/-- A READY agrees with its counterpart (R32). -/
def Heat.agrees (h : Heat) (d : Payload) : Bool :=
  let k := h.id.d.kind
  let p2p (x : Kind) : Bool := x = .send || x = .recv
  match Kind.ofCode (pAt d 10 1) with
  | none => false
  | some k2 =>
    pAt d 11 1 / 16 = h.id.d.wireFmt.code && pAt d 12 1 % 16 = h.id.d.blockCode &&
      if p2p k || p2p k2 then
        ((k = .send && k2 = .recv) || (k = .recv && k2 = .send)) && pAt d 14 2 = h.grp.rank &&
          pAt d 22 2 = fieldN h.id.w.w6 0 16
      else
        k = k2 && pAt d 16 4 = h.id.w.count && pAt d 11 1 % 16 = h.id.d.op.code &&
          pAt d 14 2 = h.rootOrPeer

/-- A heat has not ended. -/
def Heat.live (h : Heat) : Bool :=
  match h.run.phase with
  | .ended _ => false
  | _ => true

/-- A live heat is the READY's counterpart (R32). -/
def Heat.counterpart (h : Heat) (part : Option Nat) (d : Payload) : Bool :=
  h.live && h.id.part = part && part.isSome && h.id.d.kind.group && h.grp.digest = BitVec.ofNat 64 (pAt d 0 8) &&
    h.id.w.heatSeq = BitVec.ofNat 16 (pAt d 8 2) && h.grp.peers.any (fun e => e.1 = pAt d 22 2)

/-- The counterpart of a READY: the heat dispatched first (R32). -/
def State.counterpart (s : State) (part : Option Nat) (d : Payload) : Option (Nat × Heat) :=
  (s.heatList.filter fun e => e.2.counterpart part d).foldl (fun b e => match b with
    | some x => if e.2.id.order < x.2.id.order then some e else b
    | none => some e) none

/-! ### Sending flows -/

/-- Raise a peer's committed count. -/
def FlowOut.commit (f : FlowOut) (r n : Nat) : FlowOut :=
  { f with committed := (f.committed.filter fun e => e.1 ≠ r) ++ [(r, max n (f.committedBy r))] }

/-- Everything has been sent and committed. -/
def FlowOut.finished (f : FlowOut) : Bool := f.cur = f.runs.length && f.tail = [] && f.done = f.items.length

/-- The heat is paused (R193). -/
def Heat.paused (h : Heat) : Bool := h.run.pausedAt.isSome

/-- A billet of a flow on circuit `i`, with the tag that peer `r` holds, and the port of the circuit (R216). -/
def State.onCircuit (s : State) (h : Heat) (f : FlowOut) (n : Nat) (it : Item) (i r : Nat) : Option (Billet × Option Nat) :=
  (s.circ i).bind fun e => e.out.map fun p =>
    (h.billet (BitVec.ofNat 16 i) (if it.mask then kMask else kData) (nextVc 4 e.dateline e.newring) ((f.peerTag r).getD 0) n it.data,
      some p.val)

/-- The billets of item `n` of a flow, each with the port of its circuit if it travels on one (R216): one, or in a board stage one for each
peer, all of them in one wheel period (R219). Empty while it cannot be sent. -/
def State.flowBillets (s : State) (h : Heat) (f : FlowOut) (n : Nat) (it : Item) : List (Billet × Option Nat) :=
  match f.circuits, f.peers with
  | _, [] => []
  | [], r :: _ =>
    match h.ep r, f.peerTag r with
    | some e, some t => [(h.billet e (if it.mask then kMask else kData) 2 t n it.data, none)]
    | _, _ => []
  | [i], r :: _ => (s.onCircuit h f n it i r).toList
  | cs, rs =>
    let all := (cs.zip rs).filterMap fun x => s.onCircuit h f n it x.1 x.2
    if all.length = cs.length then all else []

/-- Give the billets of an item to their circuits, or to the route. -/
def State.sendAll (s : State) (bs : List (Billet × Option Nat)) : State :=
  bs.foldl (fun s x => match x.2 with
    | some p => s.queueOut p x.1
    | none => s.inject x.1) s

/-- Send the billets of flow `i` that may go: the peers' contexts are known, the window of 4,096 is open, no HOLD, no
pause, no DRAIN_VC hold, and what of SRC they carry as it is has been read (R32, R61, R191, R193, R222). -/
def State.sendFlow (s : State) (c i : Nat) : Nat → State
  | 0 => s
  | fuel + 1 =>
    match s.heat c with
    | none => s
    | some h =>
      match h.dp.outs[i]? with
      | none => s
      | some f =>
        if f.stopped || h.paused || !(f.peers.all fun r => (h.peerCtx r).isSome) || f.done + 4096 ≤ f.next ||
            !(h.pc.srcThere h.dp f f.next) then s
        else
          match f.items[f.next]? with
          | none => s
          | some it =>
            let bs := s.flowBillets h f f.next it
            if bs = [] || bs.any fun x => x.2.isNone && s.heldBack x.1 then s
            else
              State.sendFlow ((s.sendAll bs).modHeat c fun h =>
                { h with dp := { h.dp with outs := h.dp.outs.modify i fun f => { f with next := f.next + 1 } } }) c i fuel

/-- Send on every flow. -/
def State.sendFlows (s : State) (c : Nat) : State :=
  match s.heat c with
  | none => s
  | some h => (List.range h.dp.outs.length).foldl (fun s i => s.sendFlow c i 4097) s

/-! ### Receiving flows -/

/-- A control billet to the sender of an in-flow: TAG is the tag that the sender holds for it (R201). -/
def State.flowReply (s : State) (c i : Nat) (kind : BitVec 4) (val : Nat) : State :=
  match s.heat c with
  | none => s
  | some h =>
    match h.dp.ins[i]? with
    | none => s
    | some f =>
      match h.ep f.peer, f.peerTag with
      | some e, some t => s.sendCtl c (h.billet e kind 1 t 0 (payloadAt [(val % 2 ^ 32, 0)]))
      | _, _ => s

/-- Change in-flow `i`. -/
def State.modIn (s : State) (c i : Nat) (g : FlowIn → FlowIn) : State :=
  s.modHeat c fun h => { h with dp := { h.dp with ins := h.dp.ins.modify i g } }

/-- Change out-flow `i`. -/
def State.modOut (s : State) (c i : Nat) (g : FlowOut → FlowOut) : State :=
  s.modHeat c fun h => { h with dp := { h.dp with outs := h.dp.outs.modify i g } }

/-- Send a COMMIT naming the last committed sequence (R191). -/
def State.sendCommit (s : State) (c i : Nat) : State :=
  match (s.heat c).bind fun h => h.dp.ins[i]? with
  | none => s
  | some f =>
    if f.applied = 0 || f.applied = f.reported then s
    else (s.flowReply c i kCommit (f.applied - 1)).modIn c i fun f => { f with reported := f.applied }

/-- The host has accepted unit `u` of the destination, counted from that of entry 0 of `res`; a unit of an earlier step has been. -/
def PC.accepted (c : PC) (pl : Plane) (u : Nat) : Bool :=
  decide (u < c.unitBase pl) || (pl.streams.find? fun s => s.id = .dst).any fun st => st.took (u - c.unitBase pl)

/-- Commit `k` more billets of a flow. -/
def FlowIn.commit (f : FlowIn) (k : Nat) : FlowIn :=
  { f with marks := f.marks.drop k, applied := f.applied + k, base := (((f.marks.take k).getLast?).map Prod.snd).getD f.base }

/-- Commit the accepted billets of in-flows whose writes have been accepted (R191). -/
def PC.commitIns (c : PC) (pl : Plane) : Plane :=
  { pl with ins := pl.ins.map fun f => f.commit (f.marks.takeWhile fun m => m.1.all (c.accepted pl)).length }

/-- Report commits where R191 asks for it: at a multiple of 256, and with the flow's last billet. -/
def State.reportIns (s : State) (c : Nat) : State :=
  match s.heat c with
  | none => s
  | some h =>
    (List.range h.dp.ins.length).foldl (fun s i => match h.dp.ins[i]? with
      | some f =>
        if f.reported / 256 < f.applied / 256 || (h.pc.inDone f && f.runs ≠ [] && f.applied = f.next) then s.sendCommit c i
        else s
      | none => s) s

/-- Heats that contribute to the slot of a heat, the heat among them. -/
def State.slotHeats (s : State) (h : Heat) : List (Nat × Heat) :=
  s.heatList.filter fun e => e.2.live && e.2.id.part = h.id.part && e.2.id.d.kind.adding && e.2.id.w.slot = h.id.w.slot

/-- Entries of the reorder stage that the slot of a heat has in use (R61): billets held, and the entries kept for resumed sources. -/
def State.reorderHeld (s : State) (h : Heat) : Nat :=
  ((s.slotHeats h).map fun e => e.2.dp.heldCount + (e.2.dp.ins.filter FlowIn.resumed).length).sum

/-- Contribution index of a flow, the lowest over the segments it enters (R59). -/
def Plane.contribution (pl : Plane) (f : Nat) : Nat :=
  (pl.segs.filterMap fun g => if g.ins.elem (.flow f) then some (g.ins.idxOf (.flow f)) else none).foldl min 64

/-- Tell the sender of an in-flow to go on from the first sequence not committed, which reports the commits too (R191, R193). -/
def State.sendResume (s : State) (c i : Nat) : State :=
  match (s.heat c).bind fun h => h.dp.ins[i]? with
  | none => s
  | some f => (s.flowReply c i kResume f.applied).modIn c i fun f => { f with reported := max f.reported f.applied }

/-- Whether one key of two comes before the other: contribution index, then the order of the heats, then the flow. -/
def before (a b : Nat × Nat × Nat) : Bool :=
  decide (a.1 < b.1) || (a.1 = b.1 && (decide (a.2.1 < b.2.1) || (a.2.1 = b.2.1 && decide (a.2.2 < b.2.2))))

/-- The refused source of the slot of a heat that is resumed first: the one of the lowest contribution index (R61); of several, the one of
the heat dispatched first. -/
def State.refusedFirst (s : State) (h : Heat) : Option (Nat × Nat) :=
  let all : List ((Nat × Nat × Nat) × Nat × Nat) := (s.slotHeats h).flatMap fun e =>
    if e.2.paused then []
    else (List.range e.2.dp.ins.length).filterMap fun i => (e.2.dp.ins[i]?).bind fun f =>
      f.refused.map fun _ => ((e.2.dp.contribution i, e.2.id.order, i), e.1, i)
  (all.foldl (fun b e => match b with
    | some x => if before e.1 x.1 then some e else b
    | none => some e) none).map Prod.snd

/-- Resume refused sources of the slot of a heat one at a time, each with an entry kept for it, while the slot has a free one (R61): at
most `fuel`. -/
def State.resumeRefused (s : State) (c : Nat) : Nat → State
  | 0 => s
  | fuel + 1 =>
    match s.heat c with
    | none => s
    | some h =>
      if s.reorderHeld h < 8 then
        match s.refusedFirst h with
        | some e => State.resumeRefused
            ((s.sendResume e.1 e.2).modIn e.1 e.2 fun f => { f with refused := none, resumed := true }) c fuel
        | none => s
      else s

/-! ### Beacons (R194) -/

/-- Send a beacon to every peer whose context is known, except `skip`. -/
def State.sendBeacons (s : State) (c : Nat) (origin : Nat) (count : BitVec 16) (paused : Bool) (skip : Option Nat) :
    State :=
  match s.heat c with
  | none => s
  | some h =>
    h.grp.peers.foldl (fun s e => match e.2 with
      | some _ =>
        let tag := ((h.dp.outs.find? fun f => f.peers.elem e.1).bind fun f => f.peerTag e.1).orElse fun _ =>
          (h.dp.ins.find? fun f => f.peer = e.1).bind fun f => f.peerTag
        match h.ep e.1, tag with
        | some ep, some t =>
          if skip = some e.1 then s
          else s.sendCtl c (h.billet ep kBeacon 0 t 0
            (payloadAt [(origin, 0), (count.toNat, 2), (b2n paused, 4)]))
        | _, _ => s
      | none => s) s

end Sys2Proof.Machine
end

