-- ==== Sys2Proof/Machine/Ending.lean ====
section
/-! DEFINITION. The end of a heat: release of its tags, pins, staging, streams and set (R125, R302, R307, R308), and its
completion record (R176 to R180). -/

namespace Sys2Proof.Machine

/-- The heats that Anvil serves: those with elements or rows that it adds or its converters read (R13, R56, R94). -/
def Kind.needsAnvil (k : Kind) : Bool := k.carries || k = .preload || k = .drainSlot

/-- Change the set of a slot. -/
def State.modSet (s : State) (p k i : Nat) (f : SetSt → SetSt) : State :=
  match s.slot p k with
  | none => s
  | some sl => s.setSlot p k (some { sl with sets := sl.sets.modify i f })

/-- Change the state of the set that a heat has taken. -/
def State.heatSet (s : State) (h : Heat) (f : SetSt → SetSt) : State :=
  match h.id.part with
  | some p => s.modSet p h.id.w.slot h.dp.setIdx f
  | none => s

/-- An object is clean (R257). -/
def Bar.isClean (b : Bar) : Bool := b.count = 0 && !b.armed && !b.held

/-- Release the flow tags of a heat: free at once, or held until a time (R308). -/
def State.freeTags (s : State) (c : Nat) (held : Option (Nat × Nat)) : State :=
  let mine (t : TagUse) : Bool := match t with
    | .recv x _ => x = c
    | .send x _ => x = c
    | _ => false
  (s.tab.tags.filter fun e => mine e.2).foldl (fun s e => s.setTag e.1 (match held with
    | some (p, t) => .held p t
    | none => .free)) s

/-- Unbind the circuits bound to a heat's tags (R218): no heat is bound from then on. -/
def State.unbind (s : State) (h : Heat) : State :=
  h.dp.ins.foldl (fun s f => match f.circuit with
    | some i => s.setCirc i ((s.circ i).map fun e =>
        if e.tag = some (BitVec.ofNat 12 f.tag) then { e with tag := none } else e)
    | none => s) s

/-- Beats of a heat that its port has not raised yet are dropped; a raised one stays until its transfer (R358). -/
def dropBeats (c : Nat) (out : List (BitVec 5 × BitVec 16 × BitVec 1024 × W32 × Bool × Nat)) :
    List (BitVec 5 × BitVec 16 × BitVec 1024 × W32 × Bool × Nat) :=
  (out.foldl (fun a e => if e.2.2.2.2.2 ≠ c || !(a.2.elem e.1) then (a.1 ++ [e], e.1 :: a.2) else (a.1, e.1 :: a.2))
    (([], []) : List (BitVec 5 × BitVec 16 × BitVec 1024 × W32 × Bool × Nat) × List (BitVec 5))).1

/-- The requests that a heat leaves behind become slag (R306, R307): reads, translations and page requests. Writes go on
to their responses. -/
def State.abandon (s : State) (c : Nat) : State :=
  let mine (o : ReqFor) : Bool := match o with
    | .stream x _ => x = c
    | .pin x _ => x = c
    | _ => false
  { s with wld := { s.wld with
      mem := s.wld.mem.map fun e => (e.1, e.2.map fun r => if mine r.owner && !r.write then { r with slag := true } else r)
      xl := s.wld.xl.map fun e => (e.1, e.2.map fun r => if mine r.owner then { r with slag := true } else r)
      pins := s.wld.pins.filter fun e => e.2 ≠ c
      out := dropBeats c s.wld.out } }

/-- Grants of an inbound weld stream whose last beat has not come. -/
def Stream.lateGrants (st : Stream) : List (BitVec 5 × BitVec 16 × Nat) :=
  match st.place with
  | .weld p t => if st.write then [] else st.beats.map fun n => (p, t, n)
  | _ => []

/-- Grants of a heat's inbound weld streams whose last beat has not come stay live (R361). -/
def State.lateGrants (s : State) (h : Heat) : State :=
  { s with wld := { s.wld with late := s.wld.late ++ h.dp.streams.flatMap Stream.lateGrants } }

/-- The reads of SRC that a heat has issued complete, and their data is discarded. -/
def State.dropSrc (s : State) (c : Nat) : State :=
  { s with wld := { s.wld with
      mem := s.wld.mem.map fun e => (e.1, e.2.map fun r =>
        if r.owner = .stream c .src && !r.write && !r.slag then { r with drop := true } else r) } }

/-- Milliseconds of the tag hold, in ps: max(1 ms, 2 × the watchdog period) (R308). -/
def State.tagHold (s : State) (p : Nat) : Nat := max msPs (2 * (s.part p).wdogUs.toNat * usPs)

/-- A heat that has ended in this tclk, with a status of a higher code: the lower code is written (R179). -/
def State.endsLower (s : State) (h : Heat) (st : Status) : Bool :=
  match h.run.phase with
  | .ended x => decide (st.code < x.code) && h.run.endAt / 1000 = s.time.now / 1000 && h.run.record.isNone
  | _ => false

/-- End a heat with a status; the first status stands, and of two in one tclk the one of the lower code (R179). Any status but OK takes it apart (R307): its set becomes
VOID (R125), its tags are held (R308), its reads and translations become slag. A barrier object that it holds becomes clean (R259). A set
that the heat has given up already stays as it is: R125 leaves ACTIVE and DRAINING by an abort, but not OPEN, where a heat of END HOLD has made
its last addition and ends with another status before its record (DESIGN CHOICE, log 67). -/
def State.endHeat (s : State) (c : Nat) (st : Status) : State :=
  match s.heat c with
  | none => s
  | some h =>
    if !h.live then
      if s.endsLower h st then s.modHeat c fun h => { h with run := { h.run with phase := .ended st } } else s
    else
      let s := s.traceClose c
      let s := (s.abandon c).unbind h
      let s := if st = .ok then s.freeTags c none
        else match h.id.part with
          | some p => s.freeTags c (some (p, s.time.now + s.tagHold p))
          | none => s
      let s := if st ≠ .ok && h.dp.slotHeld && !h.dp.setDone then
          s.heatSet h fun x => { x with st := if x.st = .poisoned then .poisoned else .void, cells := [] } else s
      let s := s.lateGrants h
      let s : State := if h.id.d.kind.needsAnvil then { s with power := { s.power with anvilIdle := s.time.now } } else s
      let s := match h.run.obj with
        | some b => s.setBar b Bar.clean
        | none => s
      s.modHeat c fun h =>
        { h with run := { h.run with phase := .ended st, endAt := s.time.now }
                 dp := { h.dp with streams := h.dp.streams.map fun x => { x with staged := false, beats := [], wait :=
                           match x.wait with
                           | .mem t => if x.write then .mem t else .done
                           | _ => .done } } }

/-- A memory write of the heat, a STEP_WORD, or one of its outbound beats has not been answered (R54, R186, R307). -/
def State.writesLeft (s : State) (c : Nat) : Bool :=
  (s.wld.mem.any fun e => match e.2 with
    | some r => r.write && (match r.owner with
        | .stream x _ => x = c
        | .crash x => x = c
        | _ => false)
    | none => false) || s.wld.out.any (fun e => e.2.2.2.2.2 = c) || s.wld.pick.any fun w => w.step = some c

/-- BYTES: bytes written to DST (R176). -/
def Heat.bytes (h : Heat) : Nat := ((h.dp.streams.filter fun x => x.id = .dst).map fun x => x.written).sum

/-- A completion record (R176). -/
def recordOf (epoch : W64) (bytes : Nat) (idx : BitVec 17) (q gen : Nat) (timing trunc : Bool) (f : Flags) (st : Status) :
    BitVec 128 :=
  assemble 128
    [(fieldN epoch 0 40, 88), (min bytes (2 ^ 36 - 1), 52), (idx.toNat, 32), (q, 20), (gen, 16),
     (128 + 32 * b2n timing + 16 * b2n trunc + f.toBits.toNat, 8), (st.code, 0)]

/-- The record of a heat now. -/
def State.record (s : State) (h : Heat) (st : Status) : BitVec 128 :=
  recordOf s.epoch h.bytes h.id.idx h.id.q (if h.id.q = 0 then 0 else h.id.gen.toNat) h.run.timing h.run.truncated
    h.dp.flags st

/-- The two writes of a record on the pick port: bytes 8 to 15 first (R177), with the page and page size of CMPL_ADDR's translation. -/
def State.writeRecord (s : State) (pa : Nat) (page : Nat × Nat) (sp : Space) (q : Nat) (notify : Bool) (r : BitVec 128) : State :=
  let half (off : Nat) : PickWr :=
    { addr := pa + off, space := sp, data := field r (8 * off) 64, be := 0xFF, queue := q, last := off = 0, notify := notify
      ok := true, vpage := page.1, size := page.2, asOf := s.wld.acks + s.wld.invs.length }
  { s with wld := { s.wld with pick := s.wld.pick ++ [half 8, half 0] } }

/-- Room for two writes among the 64 outstanding (R367). -/
def State.pickRoom (s : State) : Bool := s.wld.pick.length + 2 ≤ 64

/-- A queue has no chain under validation and no dispatched heat without its record (R155). -/
def Queue.idle (q : Queue) : Bool := q.under = [] && q.ready.isNone && q.heats = []

/-- A DRAINING queue whose last record is written becomes DISABLED; so does its REASON clear (R155, R161). -/
def Queue.settle (q : Queue) : Queue :=
  if q.st = .draining && q.heats = [] then { q with st := .disabled, reason := 0 } else q

/-- A billet that a heat has sent: to the tag that a peer holds for one of its flows, on a circuit of its own, a READY that names its context,
or, of PLAN_LOAD and PLAN_UNLOAD, a CIRCUIT billet of this engine for the plan (R26, R28). -/
def State.sentBy (s : State) (c : Nat) (h : Heat) (b : Billet) : Bool :=
  b.key = h.id.key && b.gen = h.id.gen &&
    if b.kind = kReady then pAt b.data 24 2 = c && pAt b.data 20 2 = s.own.toNat
    else if b.kind = kCircuit then
      (h.id.d.kind = .planLoad || h.id.d.kind = .planUnload) && pAt b.data 0 2 = s.own.toNat &&
        pAt b.data 8 8 = h.grp.digest.toNat
    else
      (h.dp.outs.any fun f =>
        (f.peers.any fun r => f.circuitTo r = some b.dest.toNat && (f.peerTag r).getD 0 = b.tag.toNat) ||
        f.peers.any fun r => f.peerTag r = some b.tag.toNat && h.ep r = some b.dest) ||
      h.dp.ins.any fun f => f.peerTag = some b.tag.toNat && h.ep f.peer = some b.dest

/-- A billet of the heat has not been acknowledged by the next hop (R54): it waits here, for the end of a hold of DRAIN_VC too, or in a frame
kept for replay. -/
def State.billetsLeft (s : State) (c : Nat) (h : Heat) : Bool :=
  h.grp.ctl ≠ [] || (s.route.hold.any fun x => x.waiting.any (s.sentBy c h)) || s.ports.any fun e =>
    e.2.tx.queue.any (s.sentBy c h) || e.2.tx.kept.any fun k => k.pos.any (s.sentBy c h)

/-- Write the record of an ended heat and release its context (R177). -/
def State.complete (s : State) (c : Nat) : State :=
  match s.heat c with
  | none => s
  | some h =>
    match h.run.phase with
    | .ended st =>
      let s := s.writeRecord h.id.cmplPa h.id.cmplPage h.id.space h.id.q h.id.d.notify (h.run.record.getD (s.record h st))
      let s := s.setHeat c none
      s.modQueue h.id.q fun q => { q with heats := q.heats.filter (· ≠ c) }.settle
    | _ => s

end Sys2Proof.Machine
end

