-- ==== Sys2Proof/Machine/Hearth.lean ====
section
/-! DEFINITION. Hearth words (R110, R111, R113): where the bytes of a set lie, what a word holds, bits that flip, and the check of every
read (R131, R132). Bits that have flipped are kept by word in `hrt.upsets`, until the word is corrected or written. -/

namespace Sys2Proof.Machine

/-! ### Where bytes lie (R110, R113) -/

/-- Bytes of a unit of a slot (R113). -/
def slotUnit (k : SlotKind) (width : Nat) : Nat :=
  match k with
  | .fp32 => 4
  | .assay => 48
  | .topk => roundUp (8 + 8 * width) 64
  | .softmax => roundUp (8 + 4 * width) 64

/-- A set that nothing has used. -/
def SetSt.new (is : List Nat) : SetSt := { st := .empty, cells := [], blank := .fp 0, ingots := is }

/-- The cell at a position of a set. -/
def SetSt.at_ (x : SetSt) (q : Nat) : Cell := Tbl.get { val := x.blank } x.cells q

/-- Key of word `w` of a bank's stripe. -/
def wordKey (stripe bank w : Nat) : Nat := stripe * 512 + bank * 64 + w

/-- The word that holds byte `o` of a region: ingot ⌊o / 4,096⌋ of it, bank ⌊(o mod 4,096) / 512⌋ (R110). -/
def wordAt (is : List Nat) (o : Nat) : Option Nat :=
  (is[o / 4096]?).map fun i => wordKey i (o % 4096 / 512) (o % 512 / 8)

/-- The words that hold bytes [o, o + len) of a region. -/
def hearthWords (is : List Nat) (o len : Nat) : List Nat :=
  if len = 0 then []
  else (List.range ((o + len - 1) / 8 - o / 8 + 1)).filterMap fun j => wordAt is ((o / 8 + j) * 8)

/-- The words of the unit at position `q` of set `i` of a slot. -/
def Slot.unitWords (sl : Slot) (i q : Nat) : List Nat :=
  let u := slotUnit sl.kind sl.width
  hearthWords (sl.sets.getD i (SetSt.new [])).ingots (q * u) u

/-! ### Bits that flip, and reads (R131) -/

/-- The bits of a word that have flipped since it was written. -/
def State.upset (s : State) (k : Nat) : BitVec 74 := Tbl.get 0 s.hrt.upsets k

/-- How many bits of a mask are set. -/
def ones (x : BitVec 74) : Nat := ((List.range 74).filter (bit x)).length

/-- Bits of words flip. -/
def State.flips (s : State) (fs : List Flip) : State :=
  { s with hrt := { s.hrt with upsets := fs.foldl (fun t f =>
      let k := wordKey f.stripe.toNat f.bank.toNat f.word.toNat
      Tbl.set 0 t k (Tbl.get 0 t k ^^^ f.bits)) s.hrt.upsets } }

/-- Words are written anew, with valid check bits. -/
def State.written (s : State) (p : Nat → Bool) : State :=
  { s with hrt := { s.hrt with upsets := s.hrt.upsets.filter fun e => !p e.1 } }

/-- Ingots are written anew, as a scrub (R133) or a fresh start (R125) does. -/
def State.ingotsWritten (s : State) (is : List Nat) : State := s.written fun k => is.elem (k / 512)

/-- An uncorrectable error is counted, and logged if the log is free (R131, R135). -/
def State.eccLog (s : State) (k : Nat) (patrol : Bool) : State :=
  let s : State := { s with hrt := { s.hrt with uncorr := satInc s.hrt.uncorr } }
  if s.hrt.logValid then s
  else { s with hrt := { s.hrt with
      logValid := true, logPatrol := patrol, logBank := BitVec.ofNat 3 (k / 64), logStripe := BitVec.ofNat 15 (k / 512)
      logWord := BitVec.ofNat 6 k } }

/-- A read of a word (R131): one flipped bit is corrected, in the word too; two or more are uncorrectable. SECDED corrects one and detects
two; of three or more the spec says nothing, and the model takes them as uncorrectable (DESIGN CHOICE, log 68). -/
def State.readWord (s : State) (k : Nat) (patrol : Bool) : State × Bool :=
  match ones (s.upset k) with
  | 0 => (s, true)
  | 1 => ({ s with hrt := { s.hrt with corr := satInc s.hrt.corr, upsets := Tbl.erase k s.hrt.upsets } }, true)
  | _ => (s.eccLog k patrol, false)

/-- Reads of words in order, up to the first that is uncorrectable. -/
def State.readAll : List Nat → State → State × Bool
  | [], s => (s, true)
  | k :: ks, s =>
    let r := s.readWord k false
    if r.2 then State.readAll ks r.1 else r

/-- Reads of the units at positions `qs` of set `i` of a slot. -/
def State.readUnits (s : State) (sl : Slot) (i : Nat) (qs : List Nat) : State × Bool :=
  if s.hrt.upsets = [] then (s, true) else State.readAll (qs.flatMap (sl.unitWords i)) s

/-- Reads of the bias region of a slot. -/
def State.readBias (s : State) (sl : Slot) : State × Bool :=
  if s.hrt.upsets = [] then (s, true)
  else State.readAll (hearthWords sl.biasIngots 0 ((sl.bias.map List.length).getD 0)) s

/-- An uncorrectable error in the set of a heat (R132): the set is POISONED, and the heat ends with HEARTH_ECC. -/
def State.eccEnds (s : State) (c : Nat) (h : Heat) : State :=
  (s.heatSet h fun x => { x with st := .poisoned, cells := [] }).endHeat c .hearthEcc

/-- Set positions of the elements and rows whose accumulation has moved. -/
def Plane.touched (a b : Plane) : List Nat :=
  (List.range b.segs.length).flatMap fun si => match b.segs[si]? with
    | some sg => (List.range sg.n).filterMap fun k =>
        let key := cellKey si (sg.lo + k)
        if Tbl.get {} a.cells key = Tbl.get {} b.cells key then none else setPos b.ranges (sg.lo + k)
    | none => []

/-- Set positions of the elements and rows that have been drained, or have gone into a flow as partials, which are read on their way (R127,
R131); a contribution that goes on as it was converted is not read from the set. -/
def PC.leaving (c : PC) (a b : Plane) : List Nat :=
  let pos (i : Nat) : Option Nat := setPos b.ranges i
  ((List.range b.segs.length).flatMap fun si => match b.segs[si]? with
    | some sg =>
      if sg.fin then (List.range sg.n).filterMap fun k =>
        if Tbl.get Res.pending a.res (sg.lo + k) = Tbl.get Res.pending b.res (sg.lo + k) then none else pos (sg.lo + k)
      else []
    | none => []) ++
  (List.range b.outs.length).flatMap fun i => match a.outs[i]?, b.outs[i]? with
    | some f, some g => (List.range (g.cur + 1 - f.cur)).flatMap fun j => match g.runs[f.cur + j]? with
      | some (.part si lo n wire) =>
        let r : Run := .part si lo n wire
        let k0 := if j = 0 then f.off else 0
        let k1 := if f.cur + j = g.cur then g.off else (c.runUnits r).2.1
        if single b.segs b.segs.length si then []
        else (List.range (k1 - k0)).flatMap fun k =>
          if wire && !c.rows then (c.unitElems ((c.runUnits r).1 + k0 + k)).filterMap pos else (pos (lo + k0 + k)).toList
      | _ => []
    | _, _ => []

/-- The set of a heat. -/
def State.slotOf (s : State) (h : Heat) : Option Slot := h.id.part.bind fun p => s.slot p h.id.w.slot

/-- The data plane of a heat goes on to `pl` (R131, R132): the words that its additions, its drain and its partials read are checked; one that
is uncorrectable ends the heat, and nothing of `pl` is applied, written or sent. -/
def State.goOn (s : State) (c : Nat) (h : Heat) (pl : Plane) : State × Bool :=
  let r : State × Bool := match s.slotOf h with
    | some sl => if h.id.d.kind.adding && s.hrt.upsets ≠ [] then s.readUnits sl h.dp.setIdx (h.dp.touched pl ++ h.pc.leaving h.dp pl) else (s, true)
    | none => (s, true)
  if r.2 then (r.1.modHeat c fun x => { x with dp := pl }, true) else (r.1.eccEnds c h, false)

/-! ### What a word holds (R111, R113) -/

/-- The bytes of a unit of a slot (R76, R113, R138). -/
def unitView (k : SlotKind) (width : Nat) (v : Val) : List Byte :=
  let b := match v with
    | .fp x => toBytes x 4
    | .asy a => a.toBytes
    | .topk recs => natBytes recs.length 8 ++ recs.flatMap fun r => toBytes r.1 4 ++ toBytes r.2 4
    | .soft m l o => toBytes m 4 ++ toBytes l 4 ++ o.flatMap fun x => toBytes x 4
  slice b 0 (slotUnit k width)

/-- What a heat that adds into a set has at a position of it: the element in the last of the segments that have begun it. -/
def Heat.atPos (h : Heat) (q : Nat) : Option Cell :=
  let xs : List Cell := (List.range h.dp.segs.length).filterMap fun si => (h.dp.segs[si]?).bind fun sg =>
    ((List.range sg.n).find? fun k => setPos h.dp.ranges (sg.lo + k) = some q).map fun k => h.pc.cell h.dp si sg (sg.lo + k)
  (xs.filter fun x => x.cnt ≠ 0).getLast?.orElse fun _ => xs.head?

/-- The cell at position `q` of set `i` of a slot: that of the heat that is adding into it, or the set's own. -/
def State.setCell (s : State) (p k i q : Nat) : Cell :=
  let own := ((s.slot p k).bind fun sl => (sl.sets[i]?).map fun x => x.at_ q).getD {}
  match s.heatList.find? fun e => e.2.live && e.2.id.part = some p && e.2.id.w.slot = k && e.2.id.d.kind.adding &&
      e.2.dp.slotHeld && !e.2.dp.setDone && e.2.dp.setIdx = i with
  | some e => (e.2.atPos q).getD own
  | none => own

/-- Byte `o` of set `i` of a slot, with the PRESENT bit of its 32-bit half. -/
def State.setByte (s : State) (p k : Nat) (sl : Slot) (i o : Nat) : Byte × Bool :=
  let u := slotUnit sl.kind sl.width
  if sl.e ≤ o / u then (0, false)
  else
    let x := s.setCell p k i (o / u)
    ((unitView sl.kind sl.width x.val).getD (o % u) 0, x.present)

/-- Byte `o` of an ingot: of a set, of a bias region, or 0 in one that is free and scrubbed. -/
def State.ingotByte (s : State) (i o : Nat) : Byte × Bool :=
  let hit := s.hrt.slots.findSome? fun e => e.2.bind fun sl =>
    if sl.biasIngots.elem i then some ((sl.bias.getD []).getD (sl.biasIngots.idxOf i * 4096 + o) 0, false)
    else ((List.range sl.sets.length).find? fun j => (sl.sets[j]?).any fun x => x.ingots.elem i).map fun j =>
      s.setByte (e.1 / 65536) (e.1 % 65536) sl j ((sl.sets.getD j (SetSt.new [])).ingots.idxOf i * 4096 + o)
  hit.getD (0, false)

/-- A Hearth word as it was written (R111): 64 data bits, the PRESENT bits of its halves, 8 check bits. -/
def State.wordGood (s : State) (k : Nat) : BitVec 74 :=
  let bs := (List.range 8).map fun j => s.ingotByte (k / 512) (k % 512 * 8 + j)
  let t : BitVec 66 := BitVec.ofNat 66
    (leNat (bs.map Prod.fst) + 2 ^ 64 * b2n (bs.getD 0 (0, false)).2 + 2 ^ 65 * b2n (bs.getD 4 (0, false)).2)
  Config.checkBits t ++ t

/-- A Hearth word as it stands, with the bits that have flipped. -/
def State.hearthWord (s : State) (k : Nat) : BitVec 74 := s.wordGood k ^^^ s.upset k

end Sys2Proof.Machine
end

