-- ==== Sys2Proof/Machine/Advance.lean ====
section
/-! DEFINITION. How a heat's data plane goes on (R60 to R66, R94, R183, R186, R191): local contributions, held billets,
flows, the destination, the last addition into its slot (R119, R126, R127), and when all that it does is done. -/

namespace Sys2Proof.Machine

/-- ALLTOALL: copy this rank's own segment to where it is placed (R39). -/
def PC.ownSegment (c : PC) (pl : Plane) : Plane :=
  if c.d.kind = .alltoall && pl.sendCnt ≠ [] && pl.recvLeft = 0 then
    let from_ := 2 ^ 44 + (pl.sendCnt.take c.rank).sum / c.bn
    let cnt (i : Nat) : Nat := (Tbl.get none pl.recvCnt i).getD 0
    let pre := ((List.range c.rank).map cnt).sum / c.bn
    (List.range (pl.sendCnt.getD c.rank 0 / c.bn)).foldl (fun pl k =>
      match Tbl.get Res.pending pl.res (from_ + k) with
      | .pending | .part _ _ => pl
      | v => { pl with res := Tbl.set Res.pending pl.res (pre + k) v }) pl
  else pl

/-- One round of what needs nothing from outside: local contributions, or this rank's own units. -/
def PC.round (c : PC) (pl : Plane) : Plane :=
  if c.d.kind.adding then c.locals pl
  else if c.d.kind = .drainSlot then pl
  else
    let pl := c.ownCopy c.ownBase (c.ownCount pl) 0 pl
    c.ownSegment pl

/-- Rounds until nothing moves. -/
def PC.rounds (c : PC) : Nat → Plane → Plane
  | 0, pl => pl
  | fuel + 1, pl => let x := c.round pl; if x = pl then pl else PC.rounds c fuel x

/-- The FP8 E4M3 byte of an INT4 element (R43). -/
def PC.expand4 (c : PC) (q : Nat) : Nat × Flags :=
  if c.d.wireFmt = .int4tbl then ((c.w.int4Table.getD q 0).toNat, {}) else int4Szp c.w.int4Scale c.w.int4Zp q c.d.ovf

/-- XDST of ROTATE (R43): the expanded bytes of the elements of the current step's shard that are there, `fuel` at most, while a half of its
staging pair has room (R184). -/
def PC.expandX (c : PC) : Nat → Plane → Plane
  | 0, pl => pl
  | fuel + 1, pl =>
    match pl.streams.find? fun x => x.id = .xdst with
    | none => pl
    | some st =>
      let k := st.pos + st.buf.length
      if st.room && decide (k < c.w.count) then
        match Tbl.get Res.pending pl.res ((pl.stepNo + 1) * c.w.count + k) with
        | .val v => let r := c.expand4 (v % 16); PC.expandX c fuel ((pl.push .xdst [some (BitVec.ofNat 8 r.1)]).flag r.2)
        | _ => pl
      else pl

/-- The data plane as far as it goes by itself. -/
def PC.settle (c : PC) (pl : Plane) : Plane :=
  let pl := c.drainReady (c.rounds (2 * (pl.segs.length + pl.ins.length) + 66) pl)
  let pl := c.fill pl
  let pl := c.place (pl.dcount + 1) pl
  let pl := c.stats (pl.dcount + 1) pl
  c.commitIns (c.expandX (c.w.count + 1) pl)

/-! ### The slot after the last addition -/

/-- This engine holds a result of the heat in its set (R59). -/
def Heat.holds (h : Heat) : Bool := h.dp.segs.any fun g => g.fin
/-- A start value enters at this engine. -/
def Heat.enters (h : Heat) : Bool := h.dp.segs.any fun g => g.start

/-- What a position of the set of a heat holds where no start value has been written and nothing has been added: the neutral value of OP, or an
empty row (R118, R144, R148). -/
def Heat.blank (h : Heat) : Val :=
  match (h.pc.base .empty { lo := 0, n := 0, ins := [], node := 0, start := false, fin := false } 0).val with
  | .asy a => .asy { a with negz := false }
  | v => v

/-- Cells of the results, by set position (R415). -/
def Heat.heldCells (h : Heat) : List (Nat × Cell) :=
  let c := h.pc
  (List.range h.dp.segs.length).flatMap fun si => match h.dp.segs[si]? with
    | some sg =>
      if sg.fin then (List.range sg.n).filterMap fun k =>
        (setPos h.dp.ranges (sg.lo + k)).map fun p => (p, { c.cell h.dp si sg (sg.lo + k) with cnt := 0 })
      else []
    | none => []

/-- Write cells into a set. -/
def SetSt.put (x : SetSt) (cs : List (Nat × Cell)) : SetSt :=
  { x with cells := cs.foldl (fun t e => Tbl.set { val := x.blank } t e.1 e.2) x.cells }

/-- Change the data plane of a heat. -/
def State.modDp (s : State) (c : Nat) (f : Plane → Plane) : State := s.modHeat c fun h => { h with dp := f h.dp }

/-- The last addition of a heat at this engine (R119, R125 to R127): a set that holds a result follows END; any other set
drains its partial. What drains has left as it came to be complete (R405). -/
def State.lastAddition (s : State) (c : Nat) : State :=
  match s.heat c with
  | none => s
  | some h =>
    if !h.id.d.kind.adding || h.dp.added || !h.dp.slotHeld || !(h.pc.allComplete h.dp) then s
    else if !h.holds then (s.heatSet h fun x => { x with st := .draining }).modDp c fun pl => { pl with added := true }
    else if h.id.d.endp = .hold then
      (s.heatSet h fun x => { x with st := .opened }.put h.heldCells).modDp c fun pl => { pl with added := true, setDone := true }
    else
      let s := (s.heatSet h fun x => { x with st := .draining }).modDp c fun pl =>
        { h.pc.drainReady pl with added := true, drained := true }
      match h.id.part with
      | some p =>
        match s.slot p h.id.w.slot with
        | some sl =>
          if h.id.d.endp = .shadow && sl.sets.length = 2 then
            s.setSlot p h.id.w.slot (some { sl with fill := 1 - h.dp.setIdx })
          else s
        | none => s
      | none => s

/-! ### What is done -/

/-- Every flow that the heat sends is committed in full (R186, R192). -/
def Plane.outsDone (pl : Plane) : Bool := pl.outs.all FlowOut.finished

/-- Every flow that the heat receives has arrived and is committed. -/
def PC.insDone (c : PC) (pl : Plane) : Bool := pl.ins.all fun f => c.inDone f && f.marks = []

/-- Every write stream has been accepted. -/
def PC.writesDone (c : PC) (pl : Plane) : Bool :=
  let d0 := c.rowElems pl.dcount
  pl.placed && (!(c.d.rowstat && pl.hasDst) || decide (pl.dcount ≤ pl.statDone * d0)) &&
    pl.streams.all fun st => !st.write || st.ended

/-- Partials that a flow carries. -/
def Run.isPart : Run → Bool
  | .part _ _ _ _ => true
  | _ => false

/-- The partials that a flow carries have left and are acknowledged (R127); results that it forwards after them do not matter. -/
def PC.partsDone (c : PC) (pl : Plane) (f : FlowOut) : Bool :=
  let n := f.runs.length - (f.runs.reverse.takeWhile fun r => !r.isPart).length
  n ≤ f.cur && decide ((((f.runs.take n).map fun r => ceilDiv (c.runBytes pl r) 64).sum) ≤
    ((f.items.take f.done).filter fun i => !i.mask).length)

/-- The drain of the heat's set has finished (R127): its results have been written, or its partial has left and is acknowledged, whatever
else the heat still forwards or writes (R126). R125 does not say when a drain that holds results is finished. The model takes it that
every flow of the heat must be committed and every write of it accepted, the results of other ranks that pass here included
(DESIGN CHOICE, log 79). -/
def Heat.drainOver (h : Heat) : Bool :=
  h.dp.added &&
    if h.holds || h.id.d.kind = .drainSlot then h.dp.outsDone && h.pc.writesDone h.dp else h.dp.outs.all (h.pc.partsDone h.dp)

end Sys2Proof.Machine
end

