-- ==== Sys2Proof/Machine/Circuits.lean ====
section
/-! DEFINITION. Circuits (R214 to R219): the table and the schedule wheel, reservation at a hop, SETUP and RELEASE billets,
and the release of a plan's circuits. -/

namespace Sys2Proof.Machine

/-- The payload of a CIRCUIT billet (R217). -/
structure CircMsg where
  src : BitVec 16
  dst : BitVec 16
  w : Nat
  kind : Nat
  digest : W64
  req : Nat
  label : Nat
deriving DecidableEq, Repr

/-- Read a CIRCUIT payload. -/
def CircMsg.of (d : Payload) : CircMsg :=
  { src := BitVec.ofNat 16 (pAt d 0 2), dst := BitVec.ofNat 16 (pAt d 2 2), w := pAt d 4 2, kind := pAt d 6 1,
    digest := BitVec.ofNat 64 (pAt d 8 8), req := pAt d 16 2, label := pAt d 18 2 % 1024 }

/-- The payload of SETUP and RELEASE. -/
def CircMsg.data (m : CircMsg) : Payload :=
  payloadAt [(m.src.toNat, 0), (m.dst.toNat, 2), (m.w, 4), (m.kind, 6), (b2n (m.kind = 5), 7), (m.digest.toNat, 8),
    (m.req, 16), (m.label, 18)]

/-- The payload of CONFIRM and REFUSE from the engine `own`. -/
def CircMsg.reply (m : CircMsg) (own : BitVec 16) (reason : Nat) : Payload :=
  payloadAt [(m.src.toNat, 0), (own.toNat, 2), (reason, 4), (m.digest.toNat, 8), (m.req, 16)]

/-- Subtypes of a CIRCUIT billet in SEQ[2:0] (R217). -/
def circSetup : BitVec 13 := 0
def circConfirm : BitVec 13 := 1
def circRefuse : BitVec 13 := 2
def circRelease : BitVec 13 := 3

/-- A CIRCUIT billet. -/
def circBillet (dest : BitVec 16) (key : BitVec 12) (gen : BitVec 4) (vc : BitVec 3) (sub : BitVec 13) (d : Payload) :
    Billet :=
  { dest := dest, key := key, kind := kCircuit, vc := vc, gen := gen, tag := 0, seq := sub, data := d }

/-- The lowest free slots of a port's wheel (R217). -/
def State.freeSlots (s : State) (p n : Nat) : List Nat :=
  ((List.range 256).filter fun k => Tbl.get 0 (s.port p).tx.wheel k = 0).take n

/-- What a hop does with a SETUP (R217): its entry, and where it forwards. -/
inductive Reserve where
  | refused (reason : Nat)
  | dropped (l : Lookup)
  | here (idx : Nat) (s : State)
  | onward (idx port : Nat) (s : State)

/-- Reserve an entry, and slots of the output port, for a SETUP that came in at `ingress` (R217). -/
def State.reserve (s : State) (ingress : Option (Fin 40)) (m : CircMsg) (key : BitVec 12) (gen : BitVec 4) : Reserve :=
  let e : Circ :=
    { ingress := ingress, upLabel := BitVec.ofNat 10 m.label, out := none, slots := [], deliver := ingress.isSome,
      tag := none, key := key, gen := gen, dateline := false, newring := false, srcEp := m.src, dstEp := m.dst,
      digest := m.digest, req := BitVec.ofNat 16 m.req }
  match s.lookup m.dst with
  | .here =>
    match Tbl.free s.route.circ 1024 with
    | none => .refused 2
    | some i => .here i (s.setCirc i (some e))
  | .out p dl nr =>
    match Tbl.free s.route.circ 1024 with
    | none => .refused 2
    | some i =>
      let sl := s.freeSlots p m.w
      if sl.length < m.w then .refused 1
      else if h : p < 40 then
        let s := s.setCirc i (some { e with out := some ⟨p, h⟩, slots := sl, dateline := dl, newring := nr,
                                            deliver := ingress.isSome && m.kind = 5 })
        .onward i p (s.modPort p fun x =>
          { x with tx := { x.tx with wheel := sl.foldl (fun t k => Tbl.set 0 t k (i + 1)) x.tx.wheel } })
      else .dropped .noroute
  | l => .dropped l

/-- Free an entry and its slots. -/
def State.freeCirc (s : State) (i : Nat) : State :=
  match s.circ i with
  | none => s
  | some e =>
    let s := s.setCirc i none
    match e.out with
    | none => s
    | some p => s.modPort p.val fun x =>
        { x with tx := { x.tx with wheel := e.slots.foldl (fun t k => Tbl.set 0 t k 0) x.tx.wheel } }

/-- The entry that a RELEASE names (R217). -/
def State.findCirc (s : State) (m : CircMsg) : Option Nat :=
  (s.route.circ.find? fun e => match e.2 with
    | some x => x.srcEp = m.src && x.digest = m.digest && x.req = BitVec.ofNat 16 m.req
    | none => false).map Prod.fst

/-- The SETUP or RELEASE message of request `i` of a plan at its source. -/
def State.circMsg (s : State) (p : Plan) (i label : Nat) : CircMsg :=
  let q := p.reqs.getD i (0, 0, 0, 0)
  { src := s.own, dst := ((p.dests.find? fun e => e.1 = i).map Prod.snd).getD 0, w := q.2.2.1, kind := q.2.2.2,
    digest := p.digest, req := i, label := label }

/-- Requests of a plan whose source is this rank. -/
def Plan.mine (p : Plan) : List Nat := (List.range p.reqs.length).filter fun i => (p.reqs.getD i (0, 0, 0, 0)).1 = p.rank

/-- Key and generation of a partition. -/
def State.keyGen (s : State) (part : Nat) : BitVec 12 × BitVec 4 := ((s.part part).key, (s.part part).gen)

/-- Release every circuit that this rank reserved, or asked for, under a plan (R28, R217). -/
def State.releaseCircuits (s : State) (p : Plan) : State :=
  let kg := s.keyGen p.part
  p.mine.foldl (fun s i =>
    let label := ((p.circs.find? fun e => e.1 = i).map Prod.snd).getD 0
    let m := s.circMsg p i label
    let s := s.inject (circBillet m.dst kg.1 kg.2 0 circRelease m.data)
    match p.circs.find? fun e => e.1 = i with
    | some e => s.freeCirc e.2
    | none => s) s

/-- The table key of a loaded plan of a partition (R25). -/
def State.planKey (s : State) (part id : Nat) : Option Nat :=
  (s.tab.plans.find? fun e => match e.2 with
    | some p => p.part = part && p.id = id && p.ready && p.leaving.isNone
    | none => false).map Prod.fst

/-- Unload a plan (R28): its circuits are released and its ID is free. -/
def State.unloadPlan (s : State) (k : Nat) : State :=
  match s.plan k with
  | none => s
  | some p => (s.releaseCircuits p).setPlan k none

/-- The plan that the PLAN_UNLOAD in context `c` takes away (R28). -/
def State.leavingPlan (s : State) (c : Nat) : Option (Nat × Plan) :=
  s.tab.plans.findSome? fun e => match e.2 with
    | some p => if p.leaving = some c then some (e.1, p) else none
    | none => none

/-- The circuits that the plan reserved for a kind's flows to `peers`, by request number (R26, R219). -/
def Plan.circuitsTo (p : Plan) (k : Kind) (peers : List Nat) : List Nat :=
  (p.circs.filter fun e =>
    let q := p.reqs.getD e.1 (0, 0, 0, 0)
    q.2.2.2 = k.code && (if k = .broadcast then peers.all (p.path q.1 q.2.1).tail.elem else peers = [q.2.1])).map Prod.snd

/-- The circuits of the `n`-th flow of a kind to `peers` (R216, R219): the one that serves them all; of a board stage, that to each. -/
def Plan.flowCircuits (p : Plan) (k : Kind) (peers : List Nat) (n : Nat) : List Nat :=
  match (p.circuitsTo k peers)[n]? with
  | some i => [i]
  | none =>
    let each := peers.filterMap fun r => (p.circs.find? fun e =>
      let q := p.reqs.getD e.1 (0, 0, 0, 0)
      q.2.2.2 = k.code && (p.path q.1 q.2.1).tail = [r]).map Prod.snd
    if k = .broadcast && 1 < peers.length && each.length = peers.length then each else []

/-- The entries at this engine that deliver flows of a kind from an endpoint, by request number (R218). -/
def State.circuitsFrom (s : State) (p : Plan) (k : Kind) (srcEp : BitVec 16) : List Nat :=
  (List.range p.reqs.length).filterMap fun i =>
    if (p.reqs.getD i (0, 0, 0, 0)).2.2.2 = k.code then
      (s.route.circ.find? fun e => match e.2 with
        | some x => x.deliver && x.srcEp = srcEp && x.digest = p.digest && x.req.toNat = i
        | none => false).map Prod.fst
    else none

end Sys2Proof.Machine
end

