-- ==== Sys2Proof/Machine/Start.lean ====
section
/-! DEFINITION. The start of a heat (R26 to R32, R36, R190, R201, R413): its context, streams, flows and tags, the checks
against its plan, pinning, endpoints from the rank map, and READY. -/

namespace Sys2Proof.Machine

/-! ### An empty data plane and heat -/

/-- A heat that has just taken its context, its watchdog armed with the period of its partition (R309). -/
def Heat.fresh (id : HeatId) (now periodUs : Nat) : Heat :=
  { id := id
    grp := { planKey := 0, digest := 0, rank := 0, size := 1, eps := [], need := [], peers := [], up := none, ctl := [], arrived := [],
             sentUp := false, releaseT := none, released := false }
    run := { phase := .run, wdog := now + periodUs * usPs, wdogStopped := false, waking := false, periodUs := periodUs, pausedAt := none,
             pausedTotal := 0, capped := false, lastBeacon := 0, beacons := 0, seen := [], timing := false,
             truncated := false, endAt := 0, obj := none, sample := [], header := none, record := none, crashSeq := 0, due := 0,
             confirms := [], pinWait := [], pinNeed := [] }
    dp := .empty }

/-! ### Streams (R181, R185) -/

/-- Where a region lies. -/
def placeOf (mode : Mode) (word : W64) (dims : List (Nat × Int)) (dense : Bool) : Place :=
  match mode with
  | .weld => .weld (field word 0 5) (field word 5 16)
  | .strided => .mem word.toNat (if dense then [] else dims)
  | _ => .mem word.toNat []

/-- Bytes that a weld port counts as one for a format (R185). -/
def weldUnitOf (f : Fmt) : Nat := if f.isPacked then 4 else f.bytes

/-- Elements that this rank reads from SRC (R34). -/
def PC.srcElems (c : PC) : Nat := if c.d.kind = .reduceScatter then c.size * c.w.count else c.w.count

/-- Bytes of SRC. -/
def PC.srcTotal (c : PC) : Nat :=
  if c.d.kind = .softmax then c.w.rows * c.rowBytes c.d.outFmt
  else if c.d.kind = .alltoall then 0 else (hostFmt c.d).size c.d.blockSize c.srcElems

/-- The stream of SRC. -/
def PC.srcStream (c : PC) : Stream :=
  let f := hostFmt c.d
  { id := .src, write := false, place := placeOf c.d.srcMode c.w.src c.w.srcDims c.rows,
    esize := if c.rows || f.isPacked then 1 else f.bytes, unit := if c.d.kind = .softmax then 4 else weldUnitOf f,
    total := c.srcTotal }

/-- First index in `res` and number of the elements, rows or units of DST at this rank (R34). -/
def PC.dstRange (c : PC) : Nat × Nat :=
  match c.d.kind with
  | .reduceScatter => (c.rank * c.w.count, c.w.count)
  | .allgather | .partialWrite => (0, c.dstUnits (c.size * c.w.count))
  | .topk | .softmax => (0, c.w.rows)
  | .rotate => (c.w.count / c.bn, c.dstUnits c.w.count)
  | .alltoall | .recv => (0, c.dstUnits c.w.capacity)
  | _ => (0, c.dstUnits c.w.count)

/-- The stream of DST, `n` elements long, at byte offset `off` of the region. Rows of a top-k or softmax slot are written one after
the other. The strides of a STRIDED DST of a DRAIN_SLOT of such a slot are ignored: R136 holds only the merges' own DST to a dense
layout (DESIGN CHOICE, log 72). -/
def PC.dstStream (c : PC) (n off : Nat) : Stream :=
  { id := .dst, write := true, place := placeOf c.d.dstMode (c.w.dst + BitVec.ofNat 64 off) c.w.dstDims c.rows,
    esize := c.dstSize, unit := if c.rows then 4 else weldUnitOf c.d.outFmt, total := n * c.dstSize }

/-- A stream over memory of `total` bytes in 4-byte words. -/
def wordStream (id : StreamId) (write : Bool) (addr : W64) (total : Nat) : Stream :=
  { id := id, write := write, place := .mem addr.toNat [], esize := 4, total := total }

/-- The streams of a group heat that are known at its start. -/
def PC.streams (c : PC) (addrsOther : List Nat) : List Stream :=
  let rg := c.dstRange
  let d0 := c.rowElems rg.2
  (if c.readsSrc then [c.srcStream] else []) ++
  (if c.writesDst && c.d.kind ≠ .alltoall && c.d.kind ≠ .recv then
    [c.dstStream rg.2 (if c.d.kind = .rotate then roundUp (c.d.wireFmt.size c.d.blockSize c.w.count) 64 else 0)] else []) ++
  (if c.writesDst && c.d.rowstat then [{ wordStream .stat true c.w.w7 (8 * ceilDiv rg.2 d0) with esize := 8 }] else []) ++
  (if c.d.kind = .alltoall then [wordStream .cntVec false c.w.w7 (4 * c.size)] else []) ++
  (if c.d.kind = .rotate then
    (if c.d.expand then [{ id := .xdst, write := true, place := .mem c.w.xdst.toNat [], esize := 1, total := c.w.count }]
      else []) ++
    [{ id := .other, write := true, place := .at addrsOther, esize := 4, total := 4 * addrsOther.length }]
  else [])

/-- Pages of a stream's walk (R190). -/
def Stream.pages (st : Stream) : List Nat :=
  match st.place with
  | .weld _ _ => []
  | .mem base [] =>
    if st.total = 0 then []
    else (List.range ((base + st.total - 1) / 4096 - base / 4096 + 1)).map (base / 4096 + ·)
  | _ =>
    ((List.range (st.total / st.esize)).flatMap fun i =>
      [st.addr (i * st.esize) / 4096, (st.addr (i * st.esize) + st.esize - 1) / 4096]).eraseDups

/-- The pages that a stream uses: its ID, the page, whether it writes (R190). -/
def Stream.uses (st : Stream) : List (StreamId × Nat × Bool) := st.pages.map fun v => (st.id, v, st.write)

/-- Pages that a group heat pins besides those of the streams it starts with: its counted destination, RCV_CNT, and the
second buffer of ROTATE (R190). SRC of ALLTOALL follows when its counts have been read. -/
def PC.latePages (c : PC) : List (StreamId × Nat × Bool) :=
  match c.d.kind with
  | .alltoall => (c.dstStream c.dstRange.2 0).uses ++ (wordStream .rcvCnt true c.w.aux (4 * c.size)).uses
  | .recv => (c.dstStream c.dstRange.2 0).uses ++ (wordStream .rcvCnt true c.w.w7 4).uses
  | .rotate => (wordStream .dst true c.w.dst (c.d.wireFmt.size c.d.blockSize c.w.count)).uses
  | _ => []

/-! ### Checks against the plan (R29, R413) -/

/-- The rules of R182 and R98 that depend on the group or on this rank's place in it: regions that only some ranks touch, a BROADCAST's columns,
lengths that contain P, and the chunks of a column-direction ALLREDUCE, each of which must be a multiple of n × D0. The spec calls a breach
malformed without saying where the check is made; R413 puts what depends on P or on the rank at dispatch (DESIGN CHOICE, log 62). -/
def groupRegionsOk (c : PC) (p : Plan) (weldPorts : W32) : Bool :=
  let d := c.d
  let w := c.w
  let all := p.size * w.count
  (!c.writesDst || d.dstAlways || dstRegionOk d w weldPorts) &&
    (d.kind ≠ .broadcast || ((!c.readsSrc || srcRegionOk d w weldPorts) && columnsOk d w c.readsSrc)) &&
    (!(d.rowstat && c.writesDst && d.kind = .reduce) || noWrap w.w7 (statBytes w w.count)) &&
    (d.kind ≠ .reduceScatter || d.srcMode ≠ .linear || noWrap w.src ((hostFmt d).size d.blockSize all)) &&
    ((d.kind ≠ .allgather && d.kind ≠ .partialWrite) || d.dstMode ≠ .linear || noWrap w.dst (d.outFmt.size d.blockSize all)) &&
    (d.kind ≠ .alltoall || (noWrap w.w7 (4 * p.size) && noWrap w.aux (4 * p.size))) &&
    (d.kind ≠ .allreduce || !d.wireFmt.isMx || p.alg d.kind = 0 || p.size = 1 ||
      (List.range p.size).all fun o => (chunk d w p.size o).2 % blockSpan d w true = 0)

/-- The checks of R413, with those of ROTATE's ring and steps (R21, R41). In a group of one the range of STEPS, 1 to P - 1, is empty: the model
does not check RING and STEPS there (DESIGN CHOICE, log 69). -/
def atDispatch (p : Plan) (d : Desc) (w : Words) (weldPorts : W32) : Bool :=
  let c : PC := { d := d, w := w, rank := p.rank, size := p.size, node := 0 }
  let mul (r : CountRule) (ds : List (Nat × Int)) (m : Mode) : Bool := match r, m with
    | .mul n, .strided => prodCnt ds = p.size * n
    | .mul n, .weld => CountRule.weldOk (.eq (p.size * n))
    | _, _ => true
  (!(usesRoot d) || decide (w.root < p.size)) && (!(d.kind = .send || d.kind = .recv) || decide (w.root < p.size)) &&
    mul (srcCount d w) w.srcDims d.srcMode && mul (dstCount d w) w.dstDims d.dstMode &&
    (!c.writesDst || d.dstMode ≠ .none) && (!c.readsSrc || d.srcMode ≠ .none) && groupRegionsOk c p weldPorts &&
    (d.kind ≠ .rotate || p.size = 1 ||
      (decide (fieldN w.w6 0 2 < p.dims p.rank) &&
        decide (fieldN w.w6 2 16 + 1 ≤ (p.ring p.rank (fieldN w.w6 0 2)).length)))

/-- The plan serves the kind (R29). -/
def Plan.serves (p : Plan) (k : Kind) : Bool := !k.noTree || p.alg k ≠ 0

/-- Flows of a heat, as its tags count them (R201). -/
def flowCount (p : Plan) (d : Desc) (w : Words) (weldPorts : W32) : Nat :=
  if p.serves d.kind && atDispatch p d w weldPorts then
    let g := progOf p d w
    (g.outs.map fun o => o.1.length).sum + g.ins.length
  else 0

/-- A heat needs the circuit of a request of its plan at this engine, as source or where it is delivered. -/
def needsReq (p : Plan) (d : Desc) (w : Words) (i : Nat) : Bool :=
  let g := progOf p d w
  let r := p.reqs.getD i (0, 0, 0, 0)
  r.2.2.2 = d.kind.code &&
    if r.1 = p.rank then g.outs.any fun o => o.1.elem r.2.1 else g.ins.any fun f => f.1 = r.1

/-- A heat needs a circuit at this engine that a port loss has freed (R252). -/
def needsLost (p : Plan) (d : Desc) (w : Words) : Bool := p.lost.any (needsReq p d w)

/-! ### Flow tags (R201) -/

/-- The lowest free flow tags. -/
def State.freeTagList (s : State) (n : Nat) : List Nat :=
  ((List.range 4096).filter fun t => s.tag t = .free).take n

/-- Give a heat's flows their tags: those received first, then those sent, one for each peer of a flow. -/
def State.giveTags (s : State) (c : Nat) : State :=
  match s.heat c with
  | none => s
  | some h =>
    let ni := h.dp.ins.length
    let owner : List Nat := (List.range h.dp.outs.length).flatMap fun i =>
      List.replicate (((h.dp.outs[i]?).map fun f => f.peers.length).getD 0) i
    let ts := s.freeTagList (ni + owner.length)
    let s := (List.range ts.length).foldl (fun s i =>
      s.setTag (ts.getD i 0) (if i < ni then .recv c i else .send c (owner.getD (i - ni) 0))) s
    s.modDp c fun pl =>
      { pl with ins := (List.range ni).filterMap fun i => (pl.ins[i]?).map fun f => { f with tag := ts.getD i 0 }
                outs := (List.range pl.outs.length).filterMap fun i => (pl.outs[i]?).map fun f =>
                  { f with tags := (ts.drop (ni + owner.idxOf i)).take f.peers.length } }

/-- Bind the circuits of a heat's flows (R216, R218): the n-th flow to a rank takes the n-th circuit that serves it. -/
def State.bindCircuits (s : State) (c : Nat) (p : Plan) : State :=
  match s.heat c with
  | none => s
  | some h =>
    let k := h.id.d.kind
    let outs := (List.range h.dp.outs.length).filterMap fun i => (h.dp.outs[i]?).map fun f =>
      let n := ((h.dp.outs.take i).filter fun g => g.peers = f.peers).length
      { f with circuits := p.flowCircuits k f.peers n }
    let ins := (List.range h.dp.ins.length).filterMap fun i => (h.dp.ins[i]?).map fun f =>
      let n := ((h.dp.ins.take i).filter fun g => g.peer = f.peer).length
      { f with circuit := match h.ep f.peer with
                | some e => (s.circuitsFrom p k e)[n]?
                | none => none }
    let s := s.modDp c fun pl => { pl with outs := outs, ins := ins }
    ins.foldl (fun s f => match f.circuit with
      | some i => s.setCirc i ((s.circ i).map fun e => { e with tag := some (BitVec.ofNat 12 f.tag) })
      | none => s) s

/-! ### Heats over a port (R250, R252, R279) -/

/-- A circuit entry passes through a port. -/
def Circ.via (e : Circ) (p : Nat) : Bool := (e.out.any fun x => x.val = p) || e.ingress.any fun x => x.val = p

/-- A heat has a circuit through a port. -/
def State.heatVia (s : State) (p : Nat) (h : Heat) : Bool :=
  h.dp.circuits.any fun i => (s.circ i).any (·.via p)

/-- A heat that pins its pages or reads its endpoints, and so has bound no circuit yet, needs one through a port. -/
def State.unboundVia (s : State) (p : Nat) (h : Heat) : Bool :=
  (h.run.phase = .pin || h.run.phase = .map) && h.id.d.kind.group && (s.plan h.grp.planKey).any fun pl =>
    s.route.circ.any fun e => e.2.any fun x => x.via p && x.digest = pl.digest && (x.ingress.isNone || x.deliver) &&
      needsReq pl h.id.d h.id.w x.req.toNat

/-- A heat uses a circuit through a port, bound to it or not yet. -/
def State.heatOver (s : State) (p : Nat) (h : Heat) : Bool := s.heatVia p h || s.unboundVia p h

/-- Mark a heat that has a circuit through a port that is degraded, or that resends frames (R250, R279). -/
def State.perturbDegraded (s : State) (c : Nat) : State :=
  match s.heat c with
  | none => s
  | some h => if s.ports.any fun e => (e.2.degraded || e.2.tx.resend ≠ []) && s.heatOver e.1 h then s.perturb c else s

/-! ### The group start -/

/-- Send READY to every peer (R32); a heat with a slot then waits for it (R52). One whose circuit passes a degraded port, or one that resends
frames, is marked (R250, R279). -/
def State.meet (s : State) (c : Nat) : State :=
  match s.heat c with
  | none => s
  | some h =>
    let s := match s.plan h.grp.planKey with
      | some p => (s.bindCircuits c p).perturbDegraded c
      | none => s
    let s := h.grp.peers.foldl (fun s e => s.sendReady c e.1) s
    s.modHeat c fun h => { h with run := { h.run with phase := if h.id.d.kind.adding then .slot else .run } }

/-- Endpoints against the bitmap (R27): a failure ends the heat with PLAN_INVALID before any billet goes there. -/
def State.checkEps (s : State) (c : Nat) (es : List (Nat × BitVec 16)) : Bool :=
  match (s.heat c).bind fun h => h.id.part with
  | some p => es.all fun e => s.inBitmap p e.2
  | none => true

/-- The rank map's entries of the ranks needed (R27). -/
def mapStream (p : Plan) (need : List Nat) : Stream :=
  { id := .plan, write := false, place := .at (need.map fun r => p.addr.toNat + p.rankmapOff + 2 * r), esize := 2,
    total := 2 * need.length }

/-- Read the endpoints that the node entry does not give, then meet the peers (R27, R32). -/
def State.readMap (s : State) (c : Nat) : State :=
  match s.heat c with
  | none => s
  | some h =>
    if h.grp.need = [] then s.meet c
    else
      match s.plan h.grp.planKey with
      | none => s.endHeat c .planInvalid
      | some p => s.modHeat c fun h =>
          { h with run := { h.run with phase := .map }
                   dp := { h.dp with streams := h.dp.streams ++ [mapStream p h.grp.need] } }

/-- The rank map has been read: check and keep the endpoints (R27). -/
def State.mapRead (s : State) (c : Nat) : State :=
  match s.heat c with
  | none => s
  | some h =>
    match h.run.phase, h.dp.streams.find? fun x => x.id = .plan with
    | .map, some st =>
      if st.ended then
        let bs := st.buf.map fun b => b.getD 0
        let es := (List.range h.grp.need.length).map fun i => (h.grp.need.getD i 0, BitVec.ofNat 16 (leAt bs (2 * i) 2))
        let s := s.modHeat c fun h =>
          { h with grp := { h.grp with eps := h.grp.eps ++ es, need := [] }
                   dp := { h.dp with streams := h.dp.streams.filter fun x => x.id ≠ .plan } }
        if s.checkEps c es then s.meet c else s.endHeat c .planInvalid
      else s
    | _, _ => s

/-- The flows of a program as the heat holds them. -/
def Prog.flows (g : Prog) : List FlowOut × List FlowIn :=
  (g.outs.map fun e => { peers := e.1, runs := e.2 }, g.ins.map fun e => { peer := e.1, runs := e.2 })

/-- A group heat that passes the checks made at dispatch: the barrier object that a ROTATE holds, its flows, streams and tags
(R26 to R32, R36, R259, R413). A ROTATE in a group of one has no step to run: it reads and writes nothing, writes no STEP_WORD and completes
with OK (DESIGN CHOICE, log 69: R36 gives "the single rank's result", and R41 no step). -/
def State.enterGroup (s : State) (c k : Nat) (p : Plan) (d : Desc) (w : Words) (obj : Option Nat) : State :=
  let s := match obj with
    | some b => s.setBar b { s.bar b with target := 1, armed := true, held := true }
    | none => s
  let g := progForms p d w
  let fl := g.flows
  let pc : PC := { d := d, w := w, rank := p.rank, size := p.size, node := BitVec.ofNat 32 p.rank }
  let steps := fieldN w.w6 2 16
  let rg := pc.dstRange
  let peers := g.peers
  let known := peers.filterMap fun r => p.eps.find? fun e => e.1 = r
  let need := peers.filter fun r => !(p.eps.any fun e => e.1 = r)
  let rotating := d.kind = .rotate && p.size ≠ 1
  let streams := if d.kind = .rotate && !rotating then []
    else pc.streams (List.replicate steps w.w7.toNat)
  let s := s.modHeat c fun h =>
    { h with
      grp := { h.grp with planKey := k, digest := p.digest, rank := p.rank, size := p.size, eps := known,
                          need := need, peers := peers.map fun r => (r, none),
                          up := if p.rank = p.root then none else some (p.par p.rank) }
      run := { h.run with obj := obj
                          pinWait := if d.pin then
                            streams.flatMap Stream.uses ++ pc.latePages ++ (mapStream p need).uses else [] }
      dp := { h.dp with
        segs := g.segs, outs := fl.1, ins := fl.2, streams := streams
        ranges := if d.kind.adding then setRanges p d w else []
        heldIn := d.kind.adding && d.start = .continue && g.ins.any fun e => e.2.any fun r => match r with
          | .held _ _ => true
          | _ => false
        hasDst := pc.writesDst && d.kind ≠ .alltoall && d.kind ≠ .recv && (d.kind ≠ .rotate || rotating)
        dbase := rg.1, dcount := rg.2
        recvLeft := if d.kind = .alltoall then p.size else if d.kind = .recv then 1 else 0
        stepGo := if d.kind = .rotate then 1 else 0 } }
  let s := s.giveTags c
  if !s.checkEps c known then s.endHeat c .planInvalid
  else if d.pin then s.modHeat c fun h => { h with run := { h.run with phase := .pin } }
  else s.readMap c

/-- Enter a group heat (R26 to R32, R36, R259, R413): the checks made at dispatch, then its flows, streams and tags. -/
def State.startGroup (s : State) (c : Nat) : State :=
  match s.heat c with
  | none => s
  | some h =>
    match h.id.part with
    | none => s
    | some part =>
      let d := h.id.d
      let w := h.id.w
      match s.planKey part d.plan with
      | none => s.endHeat c .planInvalid
      | some k =>
        match s.plan k with
        | none => s.endHeat c .planInvalid
        | some p =>
          if !p.serves d.kind then s.endHeat c .planInvalid
          else if !atDispatch p d w (s.part part).weldPorts then s.endHeat c .malformed
          else
            let objUsed := d.kind = .rotate && bit w.w6 32
            let ob := fieldN w.w6 18 14
            if objUsed && !(s.bar ob).isClean then s.endHeat c .malformed
            else s.enterGroup c k p d w (if objUsed then some ob else none)

/-! ### Pinning (R190) -/

/-- Pages that other heats of a partition are pinning now and do not hold. -/
def State.pinning (s : State) (part c : Nat) : Nat :=
  ((s.heatList.filter fun e => e.1 ≠ c && e.2.live && e.2.id.part = some part).map fun e => e.2.run.pinNeed.length).sum

/-- Ask for the translation of the next page that a pinned heat needs. -/
def State.pinAsk (s : State) (c : Nat) (h : Heat) : State :=
  match h.run.pinNeed with
  | [] => s
  | (id, v, w) :: _ =>
    let asked := s.wld.xl.any fun e => match e.2 with
      | some x => !x.slag && (match x.owner with
          | .pin y _ => y = c
          | _ => false)
      | none => false
    if asked then s
    else match s.askXlate { page := false, space := h.id.space, vpage := v, write := w, owner := .pin c id } with
      | some r => r.2
      | none => s

/-- What a pinned heat goes on to when its pages are held: an ALLTOALL first reads its counts, which tell how far its SRC reaches, and pins that
too, before it sends READY (R39, R190). -/
def State.pinned (s : State) (c : Nat) (h : Heat) : State :=
  if h.id.d.kind.group && !(h.id.d.kind = .alltoall && h.dp.sendCnt = []) then s.readMap c
  else s.modHeat c fun h => { h with run := { h.run with phase :=
    if h.id.d.kind = .preload || h.id.d.kind = .drainSlot then .slot else .run } }

/-- The pages that a heat still has to pin: those it has begun that none of its translations covers (one entry a page, of
whatever size, R188). -/
def State.pinLeft (s : State) (c : Nat) (h : Heat) : List (StreamId × Nat × Bool) :=
  h.run.pinNeed.filter fun x => !(s.wld.pins.any fun e => e.2 = c && e.1.covers h.id.space x.2.1 x.2.2)

/-- Each page once: for writing if some stream writes it, for the first stream that uses it so. -/
def pagesOnce (l : List (StreamId × Nat × Bool)) : List (StreamId × Nat × Bool) :=
  l.foldl (fun a x =>
    if a.any (fun y => y.2 = x.2) || (!x.2.2 && l.any fun y => y.2.1 = x.2.1 && y.2.2) then a else a ++ [x]) []

/-- Go on with pinning: beyond the limit the heat ends; while other heats hold the entries it waits (R190). A heat begins when
no other of its partition pins, or when there is room for both at 4 KiB a page. -/
def State.pinStep (s : State) (c : Nat) : State :=
  match s.heat c with
  | none => s
  | some h =>
    match h.run.phase, h.id.part with
    | .pin, some part =>
      let lim := (s.part part).quota.pins
      let want := pagesOnce h.run.pinWait
      let others := s.pinning part c
      let s :=
        if want ≠ [] && (others = 0 || decide ((s.use part).pins + others + want.length ≤ lim)) then
          s.modHeat c fun h => { h with run := { h.run with pinWait := [], pinNeed := want } }
        else s
      match s.heat c with
      | none => s
      | some h =>
        if h.run.pinWait ≠ [] then s
        else
          let left := s.pinLeft c h
          let s := s.modHeat c fun h => { h with run := { h.run with pinNeed := left } }
          if left = [] then s.pinned c h
          else if lim ≤ (s.wld.pins.filter fun e => e.2 = c).length then s.endHeat c .quotaExceeded
          else if lim ≤ (s.use part).pins then s
          else s.pinAsk c { h with run := { h.run with pinNeed := left } }
    | _, _ => s

end Sys2Proof.Machine
end

