-- ==== Sys2Proof/Machine/Slots.lean ====
section
/-! DEFINITION. Hearth slots: sizes and allocation (R112 to R117), the judgement of a set (R118, R120, R125, R126), start
values, PRELOAD_SLOT (R121, R122) and DRAIN_SLOT (R124, R127). -/

namespace Sys2Proof.Machine

/-! ### Sizes and allocation -/

/-- The element kind that a heat's slot has (R113). -/
def Desc.slotKind (d : Desc) : SlotKind :=
  if d.kind = .topk then .topk else if d.kind = .softmax then .softmax else if d.assay then .assay else .fp32

/-- K or ROW_LEN, for slots of rows. -/
def slotWidth (d : Desc) (w : Words) : Nat := if d.kind = .topk then w.k else if d.kind = .softmax then w.rowLen else 0

/-- Ingots of one set (R114). -/
def setIngots (k : SlotKind) (width e : Nat) : Nat := ceilDiv (e * slotUnit k width) 4096

/-- What obtaining a slot comes to: wait, end the heat, or the state with the slot taken. -/
inductive Obtain where
  | wait
  | fail (st : Status)
  | ok (s : State)
deriving DecidableEq, Repr

/-- Cut a list of ingots into `n` lists of `k`. -/
def cut (k : Nat) : Nat → List Nat → List (List Nat)
  | 0, _ => []
  | n + 1, is => is.take k :: cut k n (is.drop k)

/-- Allocate a slot (R114, R116): within the quota, from ingots that are free now. `bias` and its ingots are those of a
region that is kept; `biasNew` is the size of a region to be allocated. -/
def State.allocSlot (s : State) (p k : Nat) (kind : SlotKind) (width e sets : Nat) (old : Option Slot) (biasNew : Nat) :
    Obtain :=
  let u := s.use p
  let q := (s.part p).quota
  let per := setIngots kind width e
  let n := sets * per + biasNew
  let kept := match old with
    | some o => o.biasIngots.length
    | none => 0
  if q.ingots < u.ingots + n + kept || q.slots < u.slots + 1 || 65536 ≤ s.hrt.slots.length then .fail .quotaExceeded
  else
    let is := s.freeIngots n
    if is.length < n then .wait
    else
      .ok ((s.takeIngots is).setSlot p k (some
        { part := p, gen := (s.part p).gen, kind := kind, e := e, width := width
          sets := (cut per sets is).map SetSt.new, fill := 0
          bias := old.bind fun o => o.bias, biasFmt := (old.map fun o => o.biasFmt).getD .fp32
          biasBad := (old.map fun o => o.biasBad).getD false
          biasIngots := (old.map fun o => o.biasIngots).getD (is.drop (sets * per)) }))

/-- Release a slot but keep its bias region for the slot that takes its place (R124). -/
def State.releaseSets (s : State) (p k : Nat) : State :=
  match s.slot p k with
  | none => s
  | some sl =>
    let s := s.setSlot p k none
    { s with hrt := { s.hrt with scrub := s.hrt.scrub ++ (sl.sets.map fun x => x.ingots).flatten } }

/-- Allocate an allocated slot again for a heat (R124): it is released first, with its bias region kept or not. An allocation
within the quota goes on by `f`; one beyond it leaves the slot unallocated (R116); one that waits for the scrub leaves at most the
region that is kept. -/
def State.reallocSlot (s : State) (c p k : Nat) (sl : Slot) (kind : SlotKind) (width e sets : Nat) (keep : Bool)
    (biasNew : Nat) (f : State → State) : Obtain :=
  let r := if keep then s.releaseSets p k else s.releaseSlot p k
  match r.allocSlot p k kind width e sets (if keep then some sl else none) biasNew with
  | .ok t => .ok (f t)
  | .fail st => .ok ((s.releaseSlot p k).endHeat c st)
  | .wait => .ok (if keep && sl.biasIngots ≠ [] then r.setSlot p k (some { sl with sets := [], e := 0 }) else r)

/-- A set is in use by a heat. -/
def SetState.busy : SetState → Bool
  | .active | .draining => true
  | _ => false

/-- A set holds something that a later heat needs. -/
def SetState.kept : SetState → Bool
  | .opened | .preloaded => true
  | _ => false

/-- The set that the next heat fills. -/
def Slot.fillSet (sl : Slot) : SetSt := sl.sets.getD sl.fill (SetSt.new [])

/-- Heats dispatched earlier that still have the slot before this one (R52, R123). -/
def State.slotBehind (s : State) (c : Nat) (h : Heat) : Bool :=
  s.heatList.any fun e =>
    e.1 ≠ c && e.2.live && e.2.id.part = h.id.part && e.2.id.d.kind.usesSlot && e.2.id.w.slot = h.id.w.slot &&
      decide (e.2.id.order < h.id.order) && !(e.2.id.d.kind.adding && e.2.dp.added)

/-! ### The judgement of a set (R120, R125, R126) -/

/-- The start that an adding heat is judged by at this engine; `none` where the set is not judged. -/
def Heat.judged (h : Heat) : Option StartPol :=
  if h.id.d.start = .continue then if h.holds then some .continue else if h.enters then some .zero else none
  else if h.holds || h.enters then some h.id.d.start else none

/-- The fill set, and the bias region, against a start (R126): `none` if the heat may take the set. -/
def judge (st : SetState) (bias : Option (List Byte)) (biasBad : Bool) (j : Option StartPol) : Option Status :=
  let fresh : Option Status := if st = .empty || st = .void || st = .poisoned then none else some .malformed
  match j with
  | none => none
  | some .zero => fresh
  | some .bias => if bias.isNone then some .malformed else if biasBad then some .hearthEcc else fresh
  | some .residual => if st = .preloaded then none else if st = .poisoned then some .hearthEcc else some .malformed
  | some .continue => if st = .opened then none else if st = .poisoned then some .hearthEcc else some .malformed

/-! ### Start values (R118, R122) -/

/-- The start of element `i` from the bias region. -/
def biasCell (c : PC) (sl : Slot) (i : Nat) : Cell × Flags :=
  match sl.bias with
  | none => ({}, {})
  | some b =>
    let n := b.length / sl.biasFmt.bytes
    let pos := if c.d.kind = .reduceScatter then i % c.w.count else i
    let e := readPlain sl.biasFmt (leAt b (pos % n * sl.biasFmt.bytes) sl.biasFmt.bytes)
    let o := c.operand e.1
    ({ val := o.1, present := true, cnt := 0 }, e.2.or o.2)

/-- The start values of a heat from its slot, by element: those that enter here, and those held here for a transfer
(R120). -/
def Heat.startTable (h : Heat) (sl : Slot) : Tbl (Option Cell) × Flags :=
  let c := h.pc
  let els (p : Seg → Bool) : List Nat := (h.dp.segs.filter p).flatMap fun g => (List.range g.n).map (g.lo + ·)
  let fromSet (is : List Nat) (f : Cell → Cell) : Tbl (Option Cell) := is.foldl (fun t i => match setPos h.dp.ranges i with
    | some p => Tbl.set none t i (some (f (sl.fillSet.at_ p)))
    | none => t) []
  match h.id.d.start with
  | .zero => ([], {})
  | .bias => (els fun g => g.start).foldl (fun a i => let r := biasCell c sl i; (Tbl.set none a.1 i (some r.1), a.2.or r.2)) ([], {})
  | .residual => (fromSet (els fun g => g.start) fun x => { x with present := true, cnt := 0 }, {})
  | .continue => (fromSet (els fun g => g.fin) fun x => { x with cnt := 0 }, {})

/-- The start reads the fill set (R118, R120). -/
def Heat.readsSet (h : Heat) : Bool := h.judged = some .residual || h.judged = some .continue

/-- The set positions that the start reads. -/
def Heat.startPos (h : Heat) : List Nat :=
  (h.dp.segs.filter fun g => if h.id.d.start = .residual then g.start else g.fin).flatMap fun g =>
    (List.range g.n).filterMap fun k => setPos h.dp.ranges (g.lo + k)

/-- What a start reads of its slot is checked (R131, R132): the bias region, or the set. -/
def State.startReads (s : State) (h : Heat) (sl : Slot) : State × Bool :=
  if h.judged = some .bias && h.enters then s.readBias sl
  else if h.readsSet then s.readUnits sl sl.fill h.startPos else (s, true)

/-- A start has found an uncorrectable error (R132): the region or the set is poisoned, and the heat ends with HEARTH_ECC. -/
def State.startEcc (s : State) (c p : Nat) (h : Heat) (sl : Slot) : State :=
  let k := h.id.w.slot
  (if h.judged = some .bias then s.setSlot p k (some { sl with biasBad := true })
    else s.modSet p k sl.fill fun x => { x with st := .poisoned, cells := [] }).endHeat c .hearthEcc

/-- Take the fill set for an adding heat: ACTIVE, rewritten unless it starts from what the set holds (R125). Held values that have come
from another engine before it (R120) stay. -/
def State.takeSet (s : State) (c p : Nat) (h : Heat) : State :=
  match s.slot p h.id.w.slot with
  | none => s
  | some sl =>
    let r := s.startReads h sl
    if r.2 then
      let st := h.startTable sl
      let s := if h.readsSet then r.1.modSet p h.id.w.slot sl.fill fun x => { x with st := .active }
        else (r.1.ingotsWritten sl.fillSet.ingots).modSet p h.id.w.slot sl.fill fun x =>
          { x with st := .active, cells := [], blank := h.blank }
      s.modHeat c fun h =>
        { h with run := { h.run with phase := .run }
                 dp := ({ h.dp with
                   slotHeld := true, setIdx := sl.fill, starts := h.dp.starts.foldl (fun t (e : Nat × Option Cell) => Tbl.set none t e.1 e.2) st.1 }).flag st.2 }
    else r.1.startEcc c p h sl

/-- An adding heat obtains its slot (R52, R116, R124, R126). One that must allocate the slot again waits for a drain of the other set, which
R119 lets finish, though R123 has a heat wait for its fill set alone (DESIGN CHOICE, log 71). -/
def State.obtainAdding (s : State) (c p : Nat) (h : Heat) : Obtain :=
  let d := h.id.d
  let k := h.id.w.slot
  let kind := d.slotKind
  let width := slotWidth d h.id.w
  let e := rangesLen h.dp.ranges
  let sets := if d.endp = .shadow then 2 else 1
  let finish (o : Obtain) : Obtain := match o with
    | .ok s => .ok (s.takeSet c p h)
    | o => o
  match s.slot p k with
  | none =>
    match judge .empty none false h.judged with
    | some st => .fail st
    | none => finish (s.allocSlot p k kind width e sets none 0)
  | some sl =>
    if sl.fillSet.st.busy then .wait
    else if sl.kind ≠ kind || sl.width ≠ width || sl.e < e || sl.sets = [] then
      if sl.sets.any fun x => x.st.kept then .fail .malformed
      else if sl.sets.any fun x => x.st.busy then .wait
      else
        match judge .empty sl.bias sl.biasBad h.judged with
        | some st => .fail st
        | none => s.reallocSlot c p k sl kind width e sets true 0 (State.takeSet · c p h)
    else
      match judge sl.fillSet.st sl.bias sl.biasBad h.judged with
      | some st => .fail st
      | none => finish (.ok s)

/-! ### PRELOAD_SLOT (R121, R122) -/

/-- Bytes of the bias region that a PRELOAD_SLOT fills. -/
def biasBytes (d : Desc) (w : Words) : Nat := w.rowLen * d.wireFmt.bytes

/-- PRELOAD_SLOT obtains its slot: its source is read after this. A bias region is "of the same size" where its bytes are as many (R122 does
not say whether ingots, elements or bytes are compared: DESIGN CHOICE, log 70). A slot that must be allocated again waits for a drain of its
other set (DESIGN CHOICE, log 71). A residual is in the making until its heat ends: an abort leaves its set VOID (R125). -/
def State.obtainPreload (s : State) (c p : Nat) (h : Heat) : Obtain :=
  let d := h.id.d
  let w := h.id.w
  let k := w.slot
  let kind : SlotKind := if d.assay then .assay else .fp32
  let sets := if d.endp = .shadow then 2 else 1
  let isBias := d.start = .bias
  let bn := if isBias then ceilDiv (biasBytes d w) 4096 else 0
  let hold (s : State) : State := s.modHeat c fun h =>
    { h with run := { h.run with phase := .run }
             dp := { h.dp with slotHeld := true, setDone := isBias, setIdx := ((s.slot p k).map fun sl => sl.fill).getD 0 } }
  let finish (o : Obtain) : Obtain := match o with
    | .ok s => .ok (hold s)
    | o => o
  match s.slot p k with
  | none => finish (s.allocSlot p k kind 0 w.count sets none bn)
  | some sl =>
    let sameBias := match sl.bias with
      | some b => b.length = biasBytes d w
      | none => false
    if sl.fillSet.st.busy then .wait
    else if sl.kind ≠ kind || sl.e < w.count || sl.sets = [] || (isBias && sl.bias.isSome && !sameBias) then
      if sl.sets.any fun x => x.st.kept then .fail .malformed
      else if sl.sets.any fun x => x.st.busy then .wait
      else if isBias && !sameBias then
        s.reallocSlot c p k sl kind 0 w.count sets false bn hold
      else s.reallocSlot c p k sl kind 0 w.count sets true 0 hold
    else if isBias then
      if sl.bias.isSome then .ok (hold s)
      else
        -- a region that was never filled is of use only if it has the size
        if sl.biasIngots.length = bn then .ok (hold s)
        else if (s.part p).quota.ingots < (s.use p).ingots - sl.biasIngots.length + bn then .fail .quotaExceeded
        else
          let is := s.freeIngots bn
          if is.length < bn then .wait
          else
            let t := (s.takeIngots is).setSlot p k (some { sl with biasIngots := is })
            .ok (hold { t with hrt := { t.hrt with scrub := t.hrt.scrub ++ sl.biasIngots } })
    else if sl.fillSet.st = .opened then .fail .malformed
    else .ok (hold s)

/-- PRELOAD_SLOT has read its source: the bias as it stands, or the residual expanded (R122). -/
def State.preloadDone (s : State) (c : Nat) : State :=
  match s.heat c with
  | none => s
  | some h =>
    match h.id.part, h.dp.streams.find? fun x => x.id = .src with
    | some p, some st =>
      match s.slot p h.id.w.slot with
      | none => s
      | some sl =>
        let k := h.id.w.slot
        let bs := st.buf.map fun b => b.getD 0
        let f := h.id.d.wireFmt
        if h.id.d.start = .bias then
          ((s.ingotsWritten sl.biasIngots).setSlot p k (some { sl with bias := some bs, biasFmt := f, biasBad := false })).endHeat c .ok
        else
          let vs := (List.range h.id.w.count).map fun i =>
            let e := readPlain f (leAt bs (i * f.bytes) f.bytes)
            let o := h.pc.operand e.1
            (o.1, e.2.or o.2)
          let cells : Tbl Cell := (List.range vs.length).map fun i =>
            (i, { val := (vs.getD i (.fp 0, {})).1, present := true, cnt := 0 })
          let s := (s.ingotsWritten sl.fillSet.ingots).modSet p k sl.fill fun x =>
            { x with st := .preloaded, cells := cells, blank := if h.id.d.assay then .asy { acc := 0, st := .finite, negz := false } else .fp 0 }
          let s := s.modDp c fun pl => pl.flag (vs.foldl (fun a x => a.or x.2) {})
          s.endHeat c .ok
    | _, _ => s

/-! ### DRAIN_SLOT (R124, R127) -/

/-- The streams that a DRAIN_SLOT writes, once it knows the slot (R113, R124, R129). -/
def Heat.drainStreams (h : Heat) (sl : Slot) : List Stream :=
  let rows := sl.kind = .topk || sl.kind = .softmax
  let pc := if rows then h.pc.rowView sl.kind sl.width sl.e else h.pc
  pc.dstStream sl.e 0 :: (if h.id.d.rowstat then [{ wordStream .stat true h.id.w.w7 (8 * ceilDiv sl.e (pc.rowElems sl.e)) with esize := 8 }] else [])

/-- Begin the drain of an open set: its results, and the streams that take them (R127, R131, R132). -/
def State.beginDrain (s : State) (c p : Nat) (h : Heat) (sl : Slot) : State :=
  let rows := sl.kind = .topk || sl.kind = .softmax
  let x : Heat := { h with dp := { h.dp with rowSlot := if rows then some (sl.kind, sl.width, sl.e) else none, setIdx := sl.fill } }
  let r := s.readUnits sl sl.fill (List.range sl.e)
  if r.2 then
    let pl := (List.range sl.e).foldl (fun pl i => x.pc.drainOne pl i (sl.fillSet.at_ i)) { x.dp with dbase := 0, dcount := sl.e }
    (r.1.modSet p h.id.w.slot sl.fill fun x => { x with st := .draining }).modHeat c fun h =>
      { h with run := { h.run with phase := .run }
               dp := { pl with hasDst := true, slotHeld := true, added := true, drained := true, streams := h.drainStreams sl } }
  else
    (r.1.modSet p h.id.w.slot sl.fill fun x => { x with st := .poisoned, cells := [] }).endHeat c .hearthEcc

/-- The pages of a pinned DRAIN_SLOT, known when it obtains its slot, that it does not hold yet (R190). -/
def State.drainUnpinned (s : State) (c : Nat) (h : Heat) (sl : Slot) : List (StreamId × Nat × Bool) :=
  if h.id.d.pin then ((h.drainStreams sl).flatMap Stream.uses).filter fun x =>
    !(s.wld.pins.any fun e => e.2 = c && e.1.covers h.id.space x.2.1 x.2.2) else []

/-- The regions of a DRAIN_SLOT, whose lengths the slot gives, do not wrap (R182). -/
def Heat.drainFits (h : Heat) (sl : Slot) : Bool :=
  (h.drainStreams sl).all fun x => match x.place with
    | .mem base [] => decide (base + x.total ≤ 2 ^ 64)
    | _ => true

/-- DRAIN_SLOT obtains its slot. A DST whose count does not give the slot's elements, or a DST or STAT_DST that wraps, is found here, where R182
has no place for it: the heat ends with MALFORMED and drains nothing, as a conflict does; a softmax row has its stride from R137 and is not held
to the count (DESIGN CHOICE, log 72). With DRAIN_FREE it waits for a drain of the other set (DESIGN CHOICE, log 71). -/
def State.obtainDrain (s : State) (c p : Nat) (h : Heat) : Obtain :=
  let d := h.id.d
  let free := d.endp = .drainFree
  match s.slot p h.id.w.slot with
  | none => if free then .ok (s.endHeat c .ok) else .fail .malformed
  | some sl =>
    let rows := sl.kind = .topk || sl.kind = .softmax
    let fmtOk := !rows || ((d.outFmt = .fp32 || d.outFmt = .bf16 || d.outFmt = .fp16) && !d.rowstat)
    let rndOk := sl.kind = .fp32 || d.rnd ≠ .sr
    let dimsOk := d.dstMode ≠ .strided || prodCnt h.id.w.dstDims = (if sl.kind = .topk then sl.e * sl.width else sl.e) ||
      sl.kind = .softmax
    if sl.fillSet.st.busy then .wait
    else if !fmtOk || !rndOk then .fail .malformed
    else if sl.fillSet.st = .opened then
      let ps := s.drainUnpinned c h sl
      if !dimsOk || !h.drainFits sl then .fail .malformed
      else if ps ≠ [] then .ok (s.modHeat c fun h => { h with run := { h.run with phase := .pin, pinWait := ps } })
      else .ok (s.beginDrain c p h sl)
    else if free then
      if sl.sets.any fun x => x.st.busy then .wait else .ok ((s.releaseSlot p h.id.w.slot).endHeat c .ok)
    else .fail (if sl.fillSet.st = .poisoned then .hearthEcc else .malformed)

/-- A heat obtains its slot, if its turn has come and no bank of Hearth is under reset (R52, R304). -/
def State.obtain (s : State) (c : Nat) : Obtain :=
  match s.heat c with
  | none => .wait
  | some h =>
    match h.run.phase, h.id.part with
    | .slot, some p =>
      if h.paused || s.hrt.resetting || s.slotBehind c h then .wait
      else if h.id.d.kind = .preload then s.obtainPreload c p h
      else if h.id.d.kind = .drainSlot then s.obtainDrain c p h
      else s.obtainAdding c p h
    | _, _ => .wait

/-! ### The end of a drain -/

/-- A draining set leaves its heat (R119, R126, R127): EMPTY, or released under DRAIN_FREE. A release waits for a drain
of the other set. -/
def State.drainDone (s : State) (c : Nat) : State :=
  match s.heat c with
  | none => s
  | some h =>
    match h.id.part with
    | none => s
    | some p =>
      let k := h.id.w.slot
      let st := ((s.slot p k).bind fun sl => sl.sets[h.dp.setIdx]?).map fun x => x.st
      if h.live && h.dp.slotHeld && !h.dp.setDone && st = some .draining && h.drainOver then
        if h.id.d.endp = .drainFree then
          let others : Bool := match s.slot p k with
            | some sl => (List.range sl.sets.length).any fun i => i ≠ h.dp.setIdx && ((sl.sets[i]?).any fun x => x.st.busy)
            | none => false
          if others then s else (s.releaseSlot p k).modDp c fun pl => { pl with setDone := true }
        else
          (s.heatSet h fun x => { x with st := .empty, cells := [] }).modDp c fun pl => { pl with setDone := true }
      else s

end Sys2Proof.Machine
end

