-- ==== Sys2Proof/Machine/Special.lean ====
section
/-! DEFINITION. What the kinds do that have steps of their own: barrier objects (R257, R259), BARRIER (R263, R269),
ALLTOALL (R39, R40), SEND and RECV (R44), ROTATE (R41 to R43), PLAN_LOAD (R26, R217). -/

namespace Sys2Proof.Machine

/-- Picoseconds of four tclk cycles at the nominal 1.0 GHz (R260). -/
def wakePs : Nat := 4000

/-! ### Barrier objects (R257) -/

/-- The release check: the object after, and whether it released. -/
def Bar.check (b : Bar) : Bar × Bool :=
  if b.armed && b.target.toNat ≤ b.count.toNat then
    ({ b with count := b.count - b.target, armed := false, releases := b.releases + 1 }, true)
  else (b, false)

/-- Check object `i` for release, and wake the heat that uses it (R257, R260). -/
def State.barCheck (s : State) (i : Nat) : State :=
  let r := (s.bar i).check
  if r.2 then
    let s := s.setBar i r.1
    match s.heatList.find? fun e => e.2.live && e.2.run.obj = some i with
    | some e => s.modHeat e.1 fun h =>
        { h with grp := { h.grp with released := true }, run := { h.run with due := s.time.now + wakePs } }
    | none => s
  else s

/-- One arrival: counted, or dropped at 65,535 (R257). -/
def State.barArrive (s : State) (i : Nat) : State :=
  let b := s.bar i
  if b.count = 0xFFFF then { s with tng := { s.tng with barOver := satInc s.tng.barOver } }
  else (s.setBar i { b with count := b.count + 1 }).barCheck i

/-- Arm with a target; a target of 0 makes the object clean (R257). -/
def State.barArm (s : State) (i : Nat) (n : BitVec 16) : State :=
  if n = 0 then s.setBar i Bar.clean
  else (s.setBar i { s.bar i with armed := true, target := n }).barCheck i

/-! ### BARRIER (R262, R263, R269) -/

/-- The tag that a peer rank holds for a flow of this heat to it. -/
def Heat.tagTo (h : Heat) (r : Nat) : Option Nat := (h.dp.outs.find? fun f => f.peers.elem r).bind fun f => f.peerTag r

/-- The payload of a BARRIER billet (R262). -/
def Heat.barrierData (h : Heat) (t : W64) : Payload :=
  payloadAt [(h.grp.digest.toNat, 0), (h.id.w.heatSeq.toNat, 8), (h.grp.rank, 10), (t.toNat, 16)]

/-- Send ARRIVE or RELEASE to a rank (R262). -/
def State.sendBarrier (s : State) (c r : Nat) (release : Bool) (d : Payload) : State :=
  match s.heat c with
  | none => s
  | some h =>
    match h.ep r, h.tagTo r with
    | some e, some t => s.sendCtl c (h.billet e kBarrier 0 t (b2n release) d)
    | _, _ => s

/-- The tree children of a BARRIER heat's rank. -/
def Heat.kids (h : Heat) : List Nat := (h.grp.peers.map Prod.fst).filter fun r => some r ≠ h.grp.up

/-- Machine time has reached the release time T, in lclk units (R269). -/
def State.timeReached (s : State) (t : W64) : Bool := decide (t.toNat * 10 ≤ s.machineTime.toNat)

/-- A rank releases (R263, R269): in step at T, at once where T is 0 or has passed, the last with TIMING_PERTURBED. -/
def State.barrierRelease (s : State) (c : Nat) (t : W64) : State :=
  let go (s : State) : State := s.modHeat c fun h =>
    { h with grp := { h.grp with released := true, releaseT := some t }, run := { h.run with due := s.time.now + wakePs } }
  if t = 0 then go s
  else if s.timeReached t then go (s.perturb c)
  else s.modHeat c fun h => { h with grp := { h.grp with releaseT := some t } }

/-- A BARRIER heat goes on: its own arrival, or the release at the root (R263). -/
def State.barrierStep (s : State) (c : Nat) : State :=
  match s.heat c with
  | none => s
  | some h =>
    if h.grp.sentUp || h.grp.releaseT.isSome then s
    else if h.grp.peers = [] then s.endHeat c .ok
    else if !(h.grp.peers.all fun e => e.2.isSome) || !(h.kids.all h.grp.arrived.elem) then s
    else
      match h.grp.up with
      | some r =>
        (s.sendBarrier c r false (h.barrierData 0)).modHeat c fun h => { h with grp := { h.grp with sentUp := true } }
      | none =>
        let lead := match h.id.part with
          | some p => (s.part p).instep.toNat
          | none => 0
        let t : W64 := if lead = 0 then 0 else BitVec.ofNat 64 (ceilDiv s.machineTime.toNat 10 + lead)
        let s := h.kids.foldl (fun s r => s.sendBarrier c r true (h.barrierData t)) s
        s.barrierRelease c t

/-! ### Counted segments: ALLTOALL and RECV (R39, R40, R44) -/

/-- What an ALLTOALL count must be a multiple of (R39, R98): only the MX formats restrict it. An odd count of an INT4 format is sent with a last
byte of one element, and the next segment begins in the other half of the byte where it ends, in SRC as in DST (DESIGN CHOICE, log 31). -/
def PC.countSpan (c : PC) : Nat := if c.d.wireFmt.isMx then blockSpan c.d c.w c.readsSrc else 1

/-- The heat has opened its destination: the received counts are known. -/
def Heat.opened (h : Heat) : Bool := h.dp.streams.any fun x => x.id = .rcvCnt

/-- Open the destination for received counts `cnts`, given in source order: RCV_CNT is written, each flow's segment has
its place, and units beyond the total are masked (R39, R40, R51). -/
def State.openCounted (s : State) (c : Nat) (cnts : List Nat) (rcv : W64) : State :=
  match s.heat c with
  | none => s
  | some h =>
    let pc := h.pc
    let total := cnts.sum
    let cap := h.id.w.capacity
    let rg := pc.dstRange
    let seg (r : Nat) : Nat × Nat :=
      if h.id.d.kind = .recv then (0, cnts.headD 0) else ((cnts.take r).sum, cnts.getD r 0)
    let bytes := cnts.flatMap fun n => (natBytes n 4).map some
    let tail := (List.range (pc.entriesFor cap - total / pc.bn)).map (total / pc.bn + ·)
    s.modHeat c fun h =>
      { h with
        run := { h.run with truncated := h.run.truncated || decide (cap < total) }
        dp := { h.dp with
          ins := h.dp.ins.map fun f => { f with runs := [.data (seg f.peer).1 (seg f.peer).2] }
          streams := h.dp.streams ++
            [{ wordStream .rcvCnt true rcv bytes.length with buf := bytes }, pc.dstStream rg.2 0]
          res := tail.foldl (fun t u => Tbl.set Res.pending t u .masked) h.dp.res
          hasDst := true, dbase := 0, dcount := rg.2, dpos := 0 } }

/-- SRC holds `n` elements without wrap, or below 2^32 at a weld port (R182). -/
def PC.srcHolds (c : PC) (n : Nat) : Bool :=
  match c.d.srcMode with
  | .weld => CountRule.weldOk (.eq n)
  | .linear => noWrap c.w.src ((hostFmt c.d).sizeUp c.d.blockSize n)
  | _ => true

/-- ALLTOALL has read its counts: it sends each to its rank, then its segments may move (R39). A count that breaks the
block rule, or counts whose sum a SRC in WELD or LINEAR mode cannot hold (R182), end the heat here with MALFORMED (log 63). -/
def State.sendCounts (s : State) (c : Nat) (h : Heat) : State :=
  let pc := h.pc
  let cnts := h.dp.sendCnt
  let s := h.grp.peers.foldl (fun s e => match h.ep e.1, h.tagTo e.1 with
    | some ep, some t => s.sendCtl c (h.billet ep kCounts 1 t 0 (payloadAt [(cnts.getD e.1 0, 0)]))
    | _, _ => s) s
  if (cnts.any fun n => n % pc.countSpan ≠ 0) || !pc.srcHolds cnts.sum then s.endHeat c .malformed
  else s.modHeat c fun h =>
    { h with
      grp := { h.grp with sentUp := true }
      dp := { h.dp with
        outs := h.dp.outs.map fun f => { f with runs := (f.peers.map fun r =>
          .data (2 ^ 44 * pc.bn + (cnts.take r).sum) (cnts.getD r 0)) }
        recvCnt := Tbl.set none h.dp.recvCnt h.grp.rank (some (cnts.getD h.grp.rank 0))
        recvLeft := h.dp.recvLeft - 1 } }

/-- An ALLTOALL heat goes on with its counts (R39). -/
def State.alltoallStep (s : State) (c : Nat) : State :=
  let s := match s.heat c with
    | some h =>
      match h.dp.streams.find? fun (x : Stream) => x.id = StreamId.cntVec with
      | some st =>
        if h.dp.sendCnt = [] && st.ended then
          let bs : List Byte := st.buf.map fun (b : Option Byte) => b.getD 0
          let cnts := (List.range h.grp.size).map fun i => leAt bs (4 * i) 4
          let total := (hostFmt h.id.d).sizeUp h.id.d.blockSize cnts.sum
          let src (x : Stream) : Stream := { x with total := total, wait := .idle }
          s.modHeat c fun h =>
            { h with
              run := { h.run with
                phase := if h.id.d.pin then Phase.pin else h.run.phase
                pinWait := if h.id.d.pin then
                  ((h.dp.streams.filter fun (x : Stream) => x.id = StreamId.src).map src).flatMap Stream.uses else [] }
              dp := { h.dp with
                sendCnt := cnts, streams := h.dp.streams.map fun (x : Stream) => if x.id = StreamId.src then src x else x } }
        else s
      | none => s
    | none => s
  let s := match s.heat c with
    | some h => if h.run.phase = Phase.run && h.dp.sendCnt ≠ [] && !h.grp.sentUp && h.grp.peers.all (fun e => e.2.isSome) then s.sendCounts c h else s
    | none => s
  match s.heat c with
  | some h =>
    if h.live && h.dp.sendCnt ≠ [] && h.dp.recvLeft = 0 && !h.opened then
      s.openCounted c ((List.range h.grp.size).map fun i => (Tbl.get none h.dp.recvCnt i).getD 0) h.id.w.aux
    else s
  | none => s

/-- A received ALLTOALL count (R39): one that breaks the block rule ends the heat with PLAN_INVALID. -/
def State.takeCount (s : State) (c r n : Nat) : State :=
  match s.heat c with
  | none => s
  | some h =>
    if (Tbl.get none h.dp.recvCnt r).isSome then s
    else if n % h.pc.countSpan ≠ 0 then s.endHeat c .planInvalid
    else s.modDp c fun pl =>
      { pl with recvCnt := Tbl.set none pl.recvCnt r (some n), recvLeft := pl.recvLeft - 1 }

/-! ### SEND and RECV (R44) -/

/-- The SEND that a RECV from this rank itself matches. -/
def State.localSend (s : State) (h : Heat) : Option (Nat × Heat) :=
  (s.heatList.filter fun e => e.2.live && e.2.id.d.kind = .send && e.2.id.part = h.id.part &&
    e.2.grp.digest = h.grp.digest && e.2.id.w.heatSeq = h.id.w.heatSeq && e.2.id.w.root = h.grp.rank &&
    e.2.run.phase = .run && !e.2.grp.released).head?

/-- The peer is this rank itself. -/
def Heat.toSelf (h : Heat) : Bool := (h.id.d.kind = .send || h.id.d.kind = .recv) && h.id.w.root = h.grp.rank

/-- A RECV goes on: it opens its destination when the sent count is known; from this rank itself it takes what the SEND
has read. -/
def State.recvStep (s : State) (c : Nat) : State :=
  match s.heat c with
  | none => s
  | some h =>
    if h.toSelf then
      match s.localSend h with
      | none => s
      | some e =>
        if e.2.id.d.wireFmt ≠ h.id.d.wireFmt || e.2.id.d.blockCode ≠ h.id.d.blockCode then
          (s.endHeat c .planInvalid).endHeat e.1 .planInvalid
        else
          let s := if h.opened then s else s.openCounted c [e.2.id.w.count] h.id.w.w7
          s.modDp c fun pl =>
            { pl with res := (List.range (e.2.id.w.count / h.pc.bn)).foldl (fun t u =>
                match Tbl.get Res.pending e.2.dp.res u with
                | .pending | .part _ _ => t
                | v => Tbl.set Res.pending t u v) pl.res }
    else if h.opened then s
    else
      match Tbl.get none h.dp.recvCnt 0 with
      | some n => s.openCounted c [n] h.id.w.w7
      | none => s

/-- A RECV from this rank itself that has ended releases its SEND. -/
def State.recvOver (s : State) (c : Nat) : State :=
  match s.heat c with
  | none => s
  | some h =>
    if h.toSelf && h.id.d.kind = .recv && !h.live then
      match s.localSend h with
      | some e => s.modHeat e.1 fun x => { x with grp := { x.grp with released := true } }
      | none => s
    else s

/-! ### ROTATE (R41 to R43) -/

/-- STEPS of ROTATE (R170). -/
def Words.steps (w : Words) : Nat := fieldN w.w6 2 16

/-- Begin the next step: its buffer, its part of XDST, the object armed for the step after (R41, R42). -/
def State.rotateNext (s : State) (c : Nat) : State :=
  match s.heat c with
  | none => s
  | some h =>
    let pc := h.pc
    let n := h.dp.stepGo + 1
    let off := if n % 2 = 1 then roundUp (h.id.d.wireFmt.size h.id.d.blockSize h.id.w.count) 64 else 0
    let s := s.modHeat c fun h =>
      { h with
        grp := { h.grp with released := false }
        dp := { h.dp with
          stepGo := n, dbase := n * pc.dstRange.1, dpos := 0
          streams := h.dp.streams.map fun (x : Stream) =>
            if x.id = StreamId.dst then { pc.dstStream pc.dstRange.2 off with written := x.written }
            else if x.id = StreamId.xdst then { x with pos := 0, buf := [], wait := .idle }
            else x } }
    match h.run.obj with
    | some b => if n < h.id.w.steps then s.barArm b 1 else s
    | none => s

/-- The step that runs has finished, its send and its receive (R42). -/
def Heat.stepOver (h : Heat) : Bool :=
  h.dp.stepNo < h.dp.stepGo &&
    h.dp.outs.all (fun f => f.cur = h.dp.stepGo && f.tail = [] && f.done = f.items.length) &&
    h.dp.ins.all (fun f => decide (h.dp.stepGo ≤ f.cur) && f.marks = []) && h.dp.placed &&
    h.dp.streams.all fun x => (x.id ≠ .dst && x.id ≠ .xdst) || x.ended

/-- Write owed STEP_WORDs through the pick port, once its page is translated and there is room (R42). -/
def State.stepWord (s : State) (c : Nat) : State :=
  match s.heat c with
  | none => s
  | some h =>
    match h.dp.streams.findIdx? fun x => x.id = .other with
    | none => s
    | some i =>
      match h.dp.streams[i]? with
      | none => s
      | some st =>
        if h.dp.stepNo * 4 ≤ st.pos || st.wait ≠ .idle || s.pickFull then s
        else
          let a := st.addr st.pos
          match s.xlateFor c h (a / 4096) true with
          | none =>
            match s.askXlate { page := false, space := h.id.space, vpage := a / 4096, write := true,
                               owner := .stream c .other } with
            | some r => r.2.modStream c i fun x => { x with wait := .xlate r.1 }
            | none => s
          | some e =>
            let s := if h.id.d.pin then s else s.cacheUse e
            let o := a % 8
            let s := s.modStream c i fun x =>
              let x := { x with pos := x.pos + 4 }
              if x.ended then { x with wait := .done } else x
            { s with wld := { s.wld with pturn := (ReqFor.stream c .other).turn, pick := s.wld.pick ++
                [{ addr := e.phys a / 8 * 8, space := h.id.space, data := BitVec.ofNat 64 ((st.pos / 4 + 1) * 256 ^ o),
                   be := BitVec.ofNat 8 (15 * 2 ^ o), queue := h.id.q, last := false, notify := false, ok := true,
                   step := some c, vpage := a / 4096, size := e.size, asOf := s.wld.acks + s.wld.invs.length }] } }

/-- A ROTATE heat goes on: a finished step is reported, and the next begins unless the host must release it. -/
def State.rotateStep (s : State) (c : Nat) : State :=
  match s.heat c with
  | none => s
  | some h =>
    if h.grp.size = 1 then s
    else
      let s :=
        if h.stepOver then
          let s := s.modDp c fun pl => { pl with stepNo := pl.stepNo + 1 }
          if h.dp.stepNo + 1 < h.id.w.steps && (h.run.obj.isNone || h.grp.released) then s.rotateNext c else s
        else s
      s.stepWord c

/-! ### PLAN_LOAD (R26, R217) -/

/-- Endpoints that a loaded plan keeps: those of its rank's node entry (R27). -/
def Plan.kept (p : Plan) (b : List Byte) : List (Nat × BitVec 16) :=
  let m := planMap b
  let rs := p.nbrs p.rank ++ (p.rings.getD p.rank []).flatMap fun x => [x.1, x.2]
  (rs.eraseDups.filter fun r => r < p.size && r ≠ p.rank).map fun r => (r, BitVec.ofNat 16 (m.getD r 0))

/-- Endpoints that the SETUPs of this rank's circuits name (R26). -/
def Plan.setupDests (p : Plan) (b : List Byte) : List (Nat × BitVec 16) :=
  let m := planMap b
  p.mine.map fun i => (i, BitVec.ofNat 16 (m.getD (p.reqs.getD i (0, 0, 0, 0)).2.1 0))

/-- PLAN_LOAD gives up: circuits are released and the ID is free again (R26, R217). -/
def State.planFail (s : State) (c : Nat) (st : Status) : State :=
  match s.heat c with
  | none => s
  | some h => (if h.grp.sentUp then s.unloadPlan h.grp.planKey else s).endHeat c st

/-- Every request of the plan has its CONFIRM: the plan is loaded. -/
def State.planReady (s : State) (c : Nat) : State :=
  match s.heat c with
  | none => s
  | some h =>
    match s.plan h.grp.planKey with
    | none => s
    | some p =>
      if p.mine.all h.run.confirms.elem then (s.setPlan h.grp.planKey (some { p with ready := true })).endHeat c .ok
      else s

/-- Reserve this rank's circuits hop by hop from here: each SETUP leaves under the label of this engine's entry (R217).
The result says whether this engine itself refused one. -/
def State.setups (s : State) (c k : Nat) : List Nat → State × Bool
  | [] => (s, false)
  | i :: t =>
    match s.plan k with
    | none => (s, false)
    | some p =>
      let kg := s.keyGen p.part
      let m := s.circMsg p i 0
      match s.reserve none m kg.1 kg.2 with
      | .refused _ => (s, true)
      | .dropped .noroute => State.setups s.dropNoroute c k t
      | .dropped _ => State.setups s.dropPortdown c k t
      | .here idx s => State.setups (s.setPlan k (some { p with circs := p.circs ++ [(i, idx)] })) c k t
      | .onward idx _ s =>
        let s := s.setPlan k (some { p with circs := p.circs ++ [(i, idx)] })
        State.setups (s.sendCtl c (circBillet m.dst kg.1 kg.2 0 circSetup { m with label := idx }.data)) c k t

/-- The image has been read: steps 3 to 7 of R26. -/
def State.planInstall (s : State) (c part : Nat) (h : Heat) (b : List Byte) : State :=
  let p := parsePlan part h.id.d.plan h.id.w.src s.own.toNat b
  if !planChecks b s.own.toNat (fun e => s.inBitmap part (BitVec.ofNat 16 e)) p then s.endHeat c .planInvalid
  else if s.tab.plans.any fun e => match e.2 with
      | some x => x.part = part && x.id = h.id.d.plan
      | none => false then s.endHeat c .planInvalid
  else
    match Tbl.free s.tab.plans 1024 with
    | none => s.endHeat c .quotaExceeded
    | some k =>
      if (s.part part).quota.plans < (s.use part).plans + 1 then s.endHeat c .quotaExceeded
      else
        let p := { p with eps := p.kept b, dests := p.setupDests b }
        let s := s.setPlan k (some p)
        let s := s.modHeat c fun h =>
          { h with grp := { h.grp with planKey := k, digest := p.digest, rank := p.rank, size := p.size, sentUp := true }
                   run := { h.run with due := s.time.now + msPs }
                   dp := { h.dp with streams := [] } }
        let r := s.setups c k p.mine
        if r.2 then r.1.planFail c .noSlots else r.1.planReady c

/-- A PLAN_LOAD heat goes on: the header, then the rest of the image (R26). -/
def State.planStep (s : State) (c : Nat) : State :=
  match s.heat c with
  | none => s
  | some h =>
    match h.id.part, h.dp.streams.find? fun x => x.id = .plan with
    | some part, some st =>
      if st.ended then
        let b := st.buf.map fun x => x.getD 0
        if st.total = 64 then
          if !planHeaderOk b then s.endHeat c .planInvalid
          else
            let full := { st with total := planEnd b, wait := .idle }
            s.modHeat c fun h =>
              { h with
                run := { h.run with phase := if h.id.d.pin then .pin else .run
                                    pinWait := if h.id.d.pin then
                                      full.uses.filter fun v => !(st.pages.elem v.2.1) else [] }
                dp := { h.dp with streams := [full] } }
        else s.planInstall c part h b
      else s
    | _, _ => s

end Sys2Proof.Machine
end

