-- ==== Sys2Proof/Machine/Quench.lean ====
section
/-! DEFINITION. Quench capture (R314 to R317), the reasons of R311, notices (R319) and crash samples (R318). -/

namespace Sys2Proof.Machine

/-- Island codes (R315). -/
def islandCode : Island → Nat
  | .link n => n.val
  | .anvil n => 8 + n.val
  | .hearth n => 0x10 + n.val
  | .tongs => 0x18
  | .weld => 0x19
  | .sibling => 0x1A
  | .trace => 0x1B
  | .control => 0x1C

/-- The island of a code (R315). -/
def islandOfCode (n : Nat) : Option Island :=
  if h : n < 8 then some (.link ⟨n, h⟩)
  else if h : n - 8 < 5 ∧ 8 ≤ n then some (.anvil ⟨n - 8, h.1⟩)
  else if h : n - 16 < 8 ∧ 16 ≤ n then some (.hearth ⟨n - 16, h.1⟩)
  else if n = 0x18 then some .tongs
  else if n = 0x19 then some .weld
  else if n = 0x1A then some .sibling
  else if n = 0x1B then some .trace
  else if n = 0x1C then some .control
  else none

/-- Island and unit of a port (R315). -/
def portUnit (p : Nat) : Nat × Nat := if p < 32 then (p / 4, p % 4) else (0x1A, p - 32)

/-- The ports of an island. -/
def islandPorts : Island → List Nat
  | .link n => (List.range 4).map (4 * n.val + ·)
  | .sibling => (List.range 8).map (32 + ·)
  | _ => []

/-! ### What a heat waits for (R311) -/

/-- The port toward a peer: that of the circuit of the flow, else that of the route. -/
def State.portToward (s : State) (h : Heat) (circuit : Option Nat) (peer : Nat) : Option Nat :=
  match circuit.bind s.circ with
  | some e => (e.out.map fun p => p.val).orElse fun _ => e.ingress.map fun p => p.val
  | none =>
    match h.ep peer with
    | some d => match s.lookup d with
      | .out p _ _ => some p
      | _ => none
    | none => none

/-- A billet of a heat waits for credit: at which port. -/
def State.creditWait (s : State) (c : Nat) (h : Heat) : Option Nat :=
  (s.ports.find? fun e => e.2.tx.queue.any fun b =>
    s.sentBy c h b && Tbl.get 0 e.2.tx.credit (s.pairOfBillet b) = 0).map Prod.fst

/-- A reason of R311, the island and unit it names, and PEER. -/
structure Why where
  reason : Nat
  island : Nat
  unit : Nat
  peer : Nat
deriving DecidableEq, Repr

/-- The units of a port toward a peer, or Tongs. -/
def State.whyPort (s : State) (h : Heat) (reason : Nat) (circuit : Option Nat) (peer : Nat) : Why :=
  match s.portToward h circuit peer with
  | some p => ⟨reason, (portUnit p).1, (portUnit p).2, peer⟩
  | none => ⟨reason, 0x18, 0, peer⟩

/-- A billet of the heat is held by DRAIN_VC. -/
def State.drainHolds (s : State) (h : Heat) : Bool :=
  h.grp.ctl ≠ [] || h.dp.outs.any fun f =>
    match f.items[f.next]? with
    | some it => (s.flowBillets h f f.next it).any fun x => x.2.isNone && s.heldBack x.1
    | none => false

/-- A translation or page request of this requester is outstanding. -/
def State.xlAsked (s : State) (f : XReq → Bool) : Bool := s.wld.xl.any fun e => e.2.any f

/-- A stream of a heat waits at an in-flight bound: staging, translations, memory tags or the pick port (R409). -/
def State.atBound (s : State) (c : Nat) (h : Heat) (st : Stream) : Bool :=
  let vp := st.addr st.pos / 4096
  let here := (s.xlateFor c h vp st.write).isSome
  let xl := !here && s.xlFull && !(s.xlAsked fun x => x.owner = .stream c st.id && x.vpage = vp && !x.slag)
  if st.wait = .staging then true
  else if st.id = .other then decide (st.pos < h.dp.stepNo * 4) && st.wait = .idle && (s.pickFull || xl)
  else h.moves st && (xl || (here && s.tagsFull))

/-- A heat that pins waits at a bound: the partition's pins that other heats hold, or the outstanding translations (R190, R409). One whose
translation is under way is at none. -/
def State.pinBound (s : State) (c : Nat) (h : Heat) : Bool :=
  let asked := s.xlAsked fun x => !x.slag && match x.owner with
    | .pin y _ => y = c
    | _ => false
  h.run.phase = .pin && (h.run.pinWait ≠ [] || (h.run.pinNeed ≠ [] && !asked))

/-- The first row of R311 that matches the heat's state, from HOLD on; `none` where no wait is identified. -/
def State.waitOf (s : State) (c : Nat) (h : Heat) : Option Why :=
  let pc := h.pc
  let ready := h.grp.peers.find? fun e => e.2.isNone
  let running : Bool := h.run.phase = .run
  let inWait := h.dp.ins.find? fun f => running && (!(pc.inDone f) || (f.runs = [] && h.id.d.kind ≠ .barrier))
  let outWait := h.dp.outs.find? fun f => running && (f.stopped || decide (f.done < f.next))
  let memWait := s.wld.mem.find? fun e => match e.2 with
    | some r => match r.owner with
      | .stream x _ => x = c
      | _ => false
    | none => false
  if !h.live then none
  else if s.drainHolds h then some ⟨0x0A, 0x18, 0, 0⟩
  else if h.paused && h.run.capped then some ⟨0x06, 0x19, 16, 0⟩
  else if ready.isSome then
    some ⟨0x01, 0x18, 0, (ready.map fun e => e.1).getD 0⟩
  else
    match s.creditWait c h with
    | some p => some ⟨0x04, (portUnit p).1, (portUnit p).2, p⟩
    | none =>
      if h.id.d.kind = .barrier then some ⟨0x07, 0x18, 0, h.grp.up.getD 0⟩
      else if h.run.obj.isSome && h.dp.stepNo = h.dp.stepGo then some ⟨0x07, 0x18, 0, h.run.obj.getD 0⟩
      else if h.run.phase = .slot then some ⟨0x08, 0x10, 0, h.id.w.slot⟩
      else
        match inWait with
        | some f => some (s.whyPort h 0x02 f.circuit f.peer)
        | none =>
          match outWait with
          | some f => some (s.whyPort h 0x03 (f.circuitTo f.slowest) f.slowest)
          | none =>
            match memWait.bind Prod.snd with
            | some r => some ⟨0x05, 0x19, portOfLine r.line, portOfLine r.line⟩
            | none =>
              if !h.paused && h.dp.streams.any (s.atBound c h) then some ⟨0x09, 0x19, 0, 0⟩
              else if s.pinBound c h then some ⟨0x09, 0x19, 0, 0⟩
              else none

/-- The reason of a fault entry where no row before NONE matches. -/
def whyNone : Why := ⟨0x0B, 0x18, 0, 0⟩

/-! ### Entries (R315) -/

/-- FAULT. -/
def faultEntry (c : Nat) (h : Heat) (w : Why) : BitVec 128 :=
  assemble 128 [(2, 124), (h.id.q, 112), (h.id.idx.toNat, 95), (c, 83), (w.island, 77), (w.unit, 72), (w.reason, 67),
    (w.peer % 65536, 51)]

/-- What is left of a watchdog, in µs. -/
def State.wdogLeft (s : State) (h : Heat) : Nat :=
  if h.id.q = 0 then 0 else if h.run.wdogStopped then h.run.wdog / usPs else (h.run.wdog - s.time.now) / usPs

/-- Cumulative pause, in ps (R195). -/
def State.pauseTotal (s : State) (h : Heat) : Nat :=
  h.run.pausedTotal + match h.run.pausedAt with
    | some t => s.time.now - t
    | none => 0

/-- HEAT. -/
def State.heatEntry (s : State) (c : Nat) (h : Heat) : BitVec 128 :=
  assemble 128 [(3, 124), (h.id.q, 112), (h.id.idx.toNat, 95), (c, 83), (h.id.d.kind.code, 75),
    (((s.waitOf c h).map fun w => w.reason).getD 0, 70), (h.id.w.heatSeq.toNat, 54),
    (min (s.wdogLeft h) (2 ^ 26 - 1), 28), (min (s.pauseTotal h / msPs) 65535, 12)]

/-- QUEUE. -/
def queueEntry (n : Nat) (q : Queue) : BitVec 128 :=
  assemble 128 [(4, 124), (n, 112), (q.st.code, 109), (q.head.toNat, 92), ((q.pendTail.getD q.tail).toNat, 75), (q.reason.toNat, 71),
    (min q.cache.length 8, 67), (b2n q.hold, 66), (b2n q.enable, 65)]

/-- BARRIER. -/
def barEntry (n : Nat) (b : Bar) (left : Bool) : BitVec 128 :=
  assemble 128 [(5, 124), (n, 110), (b.count.toNat, 94), (b.target.toNat, 78), (b2n b.armed, 77), (b2n b.held, 76),
    (b2n left, 75)]

/-- CRASH. -/
def crashEntry (n : Nat) (skipped nobuf : Bool) : BitVec 128 :=
  assemble 128 [(6, 124), (n, 120), (b2n skipped, 119), (b2n nobuf, 118)]

/-- Running heats of a partition (`none`: queue 0), but those in `but`. -/
def State.runningOf (s : State) (part : Option Nat) (but : List Nat) : List (Nat × Heat) :=
  s.heatList.filter fun e => e.2.live && e.2.id.part = part && !(but.elem e.1)

/-- HEAT, QUEUE and BARRIER entries of a partition (R316). -/
def State.partEntries (s : State) (part : Option Nat) (but : List Nat) (left : Bool) : List (BitVec 128) :=
  ((s.runningOf part but).map fun e => s.heatEntry e.1 e.2) ++
  match part with
  | none => [queueEntry 0 (s.queue 0)]
  | some p =>
    let x := s.part p
    ((List.range x.qcount).map fun i => queueEntry (x.qbase + i) (s.queue (x.qbase + i))) ++
    ((s.tab.bars.filter fun e => x.bbase ≤ e.1 && e.1 < x.bbase + x.bcount && !e.2.isClean).map fun e =>
      barEntry e.1 e.2 (left && !e.2.held))

/-! ### Units (R315, R316) -/

/-- A heat holds a unit of an island: a circuit through a port; an Anvil island that serves it, while it holds its set, but not while it is
paused (R193, log 26); a slot. -/
def State.holdsUnit (s : State) (h : Heat) (i : Island) : Bool :=
  let viaPort (ps : List Nat) : Bool :=
    h.dp.circuits.any fun k => match s.circ k with
      | some e => (e.out.any fun p => ps.elem p.val) || e.ingress.any fun p => ps.elem p.val
      | none => false
  h.live && match i with
  | .link _ | .sibling => viaPort (islandPorts i)
  | .anvil n =>
    (h.id.d.kind.adding || h.id.d.kind = .drainSlot) && h.dp.slotHeld && !h.dp.setDone && !h.paused &&
      !(s.ctl.islBusy && ((s.ctl.islNow, s.ctl.islOrder) :: s.ctl.islMore).any fun x =>
        x.1 = BitVec.ofNat 6 (islandCode (.anvil n)) && decide (x.2 ≤ h.id.order))
  | .hearth _ => h.dp.slotHeld
  | _ => false

/-- Units of an island (R57, R315). -/
def State.unitsOf (s : State) (i : Island) : List Nat :=
  match i with
  | .link _ => List.range 4
  | .sibling => List.range 8
  | .weld => List.range 17
  | .anvil n =>
    let bad := s.hrt.repair.toNat
    (((List.range 5).map (5 * n.val + ·)).filter (· ≠ bad)).map fun k => if bad < k then k - 1 else k
  | _ => [0]

/-- Heats that hold a unit of an island (R315): those with a circuit through the port that it is; a heat that holds an Anvil island holds
each of its units. -/
def State.unitHeld (s : State) (i : Island) (u : Nat) : Nat :=
  match islandPorts i with
  | [] => (s.heatList.filter fun e => s.holdsUnit e.2 i).length
  | ps =>
    let p := ps.getD u 40
    (s.heatList.filter fun e => e.2.live &&
      e.2.dp.circuits.any fun k => (s.circ k).any fun x =>
        x.out.any (fun q => q.val = p) || x.ingress.any fun q => q.val = p).length

/-- UNIT entries of an island, whose units are in these states. -/
def State.unitEntries (s : State) (i : Island) (ustate : Nat → Nat) : List (BitVec 128) :=
  (s.unitsOf i).map fun u =>
    assemble 128 [(7, 124), (islandCode i, 118), (u, 113), (ustate u, 109), (s.unitHeld i u, 96)]

/-! ### Capture and notices (R314, R319) -/

/-- Causes of R315. -/
def causeWatchdog : Nat := 1
def causePortLost : Nat := 2
def causeHalt : Nat := 3
def causePartReset : Nat := 4
def causeRelease : Nat := 5
def causeIslandFault : Nat := 6
def causeIslandReset : Nat := 7
def causeStateEcc : Nat := 8

/-- The notice of a capture. -/
def State.notice (s : State) (cause : Nat) (part : Option Nat) (time : BitVec 40) (fault : BitVec 128) : State :=
  if s.ctl.notifyValid then
    let p := part.getD 0
    s.inject
      { dest := s.ctl.notifyDest, key := 0, kind := kMgmt, vc := 6, gen := 0, tag := 0, seq := 1
        data := payloadAt
          [(s.own.toNat, 0), (cause, 2), (p, 3), (if part.isSome then (s.part p).key.toNat else 0, 4),
           (if part.isSome then (s.part p).gen.toNat else 0, 6), (time.toNat, 8), (fault.toNat, 16)] }
  else s

/-- Write a quench record (R314): it replaces the one held, which is counted lost if unread. -/
def State.publish (s : State) (cause : Nat) (part : Option Nat) (nopart : Bool) (es : List (BitVec 128)) : State :=
  let n := min es.length 1023
  let p := part.getD 0
  let time : BitVec 40 := s.machineTime.setWidth 40
  let hd := assemble 128 [(1, 124), (time.toNat, 84), (cause, 80), (p, 72),
    (if part.isSome then (s.part p).gen.toNat else 0, 68), (b2n nopart, 67), (b2n (1023 < es.length), 66), (n, 55)]
  let s := { s with quench := { s.quench with
      record := hd :: es.take 1023, valid := true, unread := true, word := 0
      lost := if s.quench.unread then satInc s.quench.lost else s.quench.lost, seq := s.quench.seq + 1 } }
  (s.tngEvent 0x02).notice cause part time (((es.find? fun e => fieldN e 124 4 = 2)).getD 0)

/-- Capture a quench record (R314). While no sequencer runs it waits (R342), with the entries that its event found (log 27). -/
def State.capture (s : State) (cause : Nat) (part : Option Nat) (nopart : Bool) (es : List (BitVec 128)) : State :=
  if s.seqStopped then
    { s with quench := { s.quench with waiting := s.quench.waiting ++ [(cause, part, nopart, es)] } }
  else s.publish cause part nopart es

/-- A sequencer runs again: the captures that waited are written, oldest first. -/
def State.publishWaiting (s : State) : State :=
  s.quench.waiting.foldl (fun s x => s.publish x.1 x.2.1 x.2.2.1 x.2.2.2) { s with quench := { s.quench with waiting := [] } }

/-- Capture for heats of one partition that an event ends, with CRASH where the cause has it (R316). -/
def State.captureHeats (s : State) (cause : Nat) (part : Option Nat) (fs : List (Nat × Why)) (crash : List (BitVec 128)) :
    State :=
  let faults := fs.filterMap fun e => (s.heat e.1).map fun h => faultEntry e.1 h e.2
  s.capture cause part part.isNone (faults ++ s.partEntries part (fs.map fun e => e.1) false ++ crash)

/-! ### Crash samples (R318) -/

/-- What half `h` of a staging pair shows (R184, R318): the last 4 KiB of the stream that it was filled with since the stream took the pair,
as far as it was; a byte of a write stream that has left, and every byte beyond the fill, is 0 (log 30). -/
def Stream.half (st : Stream) (h : Nat) : List Byte :=
  let from_ := if st.write then st.pos else 0
  let e := from_ + st.buf.length - st.base
  let n := ceilDiv e 4096
  let j := if n % 2 = h then n - 2 else n - 1
  if n = 0 || (n = 1 && h = 1) then List.replicate 4096 0
  else slice ((List.range (min 4096 (e - 4096 * j))).map fun k =>
    let o := st.base + 4096 * j + k
    if o < from_ then 0 else (st.buf.getD (o - from_) none).getD 0) 0 4096

/-- The 8 KiB that a staging pair holds of a stream: half 0, then half 1. -/
def Stream.pair (st : Stream) : List Byte := st.half 0 ++ st.half 1

/-- Put a stream into a list by its staging pair. -/
def insertPair (st : Stream) : List Stream → List Stream
  | [] => [st]
  | x :: t => if st.pairNo < x.pairNo then st :: x :: t else x :: insertPair st t

/-- Staging pairs of a heat that a sample takes, in ascending order. -/
def Heat.pairs (h : Heat) : List Stream := ((h.dp.streams.filter (·.staged)).foldl (fun l x => insertPair x l) []).take 8

/-- Begin the crash sample of a heat: the lines of its pairs, and its header (R318). -/
def State.beginSample (s : State) (c : Nat) : State :=
  match s.heat c with
  | none => s
  | some h =>
    match h.id.part with
    | none => s
    | some p =>
      let buf := (s.part p).crash.toNat
      if buf = 0 then s
      else
        let ps := h.pairs
        let lines := (List.range ps.length).flatMap fun i =>
          let b := ((ps[i]?).map Stream.pair).getD []
          (List.range 128).map fun k => (buf + 4096 + 8192 * i + 64 * k, payloadOf ((b.drop (64 * k)).take 64))
        let n := (s.part p).samples + 1
        let hd := payloadAt ([(n.toNat, 16), (ps.length, 20)] ++ (List.range 8).map fun i =>
          (((ps[i]?).map fun x => streamCode x.id).getD 0xFF, 24 + i))
        let s := s.modPart p fun x => { x with samples := n }
        s.modHeat c fun h =>
          { h with run := { h.run with sample := lines, header := some hd, crashSeq := s.quench.seq + BitVec.ofNat 16 s.quench.waiting.length } }

/-- The CRASH entry of a heat about to end: the samples it will write, or NOBUF. -/
def State.crashOf (s : State) (h : Heat) : BitVec 128 :=
  match h.id.part with
  | some p => if (s.part p).crash = 0 then crashEntry 0 false true else crashEntry h.pairs.length false false
  | none => crashEntry 0 false true

/-- Give up a sample: SKIPPED in the record that tells of it. -/
def State.skipSample (s : State) (c : Nat) : State :=
  match s.heat c with
  | none => s
  | some h =>
    let s := s.modHeat c fun h => { h with run := { h.run with sample := [], header := none } }
    let skip (es : List (BitVec 128)) : List (BitVec 128) :=
      es.map fun e => if fieldN e 124 4 = 6 then crashEntry 0 true (bit e 118) else e
    let k := (h.run.crashSeq - s.quench.seq).toNat
    if k = 0 then { s with quench := { s.quench with record := skip s.quench.record } }
    else { s with quench := { s.quench with
      waiting := s.quench.waiting.modify (k - 1) fun x => (x.1, x.2.1, x.2.2.1, skip x.2.2.2) } }

/-- The next write of a crash sample, one at a time; the header last, with the record that will follow. -/
def State.crashStep (s : State) (c : Nat) : State :=
  match s.heat c with
  | none => s
  | some h =>
    let busy := (s.wld.mem.any fun e => (e.2.map fun r => r.owner) = some (.crash c)) ||
      s.wld.xl.any fun e => (e.2.map fun r => r.owner) = some (.crash c)
    if busy then s
    else
      match h.run.phase, h.id.part with
      | .ended st, some p =>
        let buf := (s.part p).crash.toNat
        let next : Option (Nat × Payload × Option (BitVec 128)) := match h.run.sample, h.run.header with
          | l :: _, _ => some (l.1, l.2, none)
          | [], some hd => let r := s.record h st; some (buf, hd ||| r.setWidth 512, some r)
          | [], none => none
        match next with
        | none => s
        | some (va, d, r) =>
          match s.xlateHit h.id.space (va / 4096) true with
          | none =>
            match s.askXlate { page := false, space := h.id.space, vpage := va / 4096, write := true, owner := .crash c } with
            | some x => x.2
            | none => s
          | some e =>
            match (s.cacheUse e).issueMem { write := true, line := e.phys va / 64, space := h.id.space, vpage := va / 4096, size := e.size,
                                            data := d, be := 0xFFFFFFFFFFFFFFFF, owner := .crash c } with
            | none => s
            | some x => x.2.2.modHeat c fun h =>
                { h with run := { h.run with sample := h.run.sample.tail, record := h.run.record.orElse fun _ => r
                                             header := if r.isSome then none else h.run.header } }
      | _, _ => s

/-- End a heat as on watchdog expiry (R310): the capture has been made; the sample, then ABORT_TIMEOUT. -/
def State.expire (s : State) (c : Nat) : State := ((s.beginSample c).endHeat c .abortTimeout).crashStep c

/-- The watchdog of a heat expires in this tclk (R301, R309). -/
def State.expiresNow (s : State) (h : Heat) : Bool :=
  h.id.q ≠ 0 && !h.run.wdogStopped && h.run.wdog / 1000 = s.time.now / 1000

/-- The quench record of a watchdog's expiry (R310). -/
def State.captureExpiry (s : State) (c : Nat) (h : Heat) : State :=
  s.captureHeats causeWatchdog h.id.part [(c, (s.waitOf c h).getD whyNone)] [s.crashOf h]

end Sys2Proof.Machine
end

