-- ==== Sys2Proof/Machine/Tenancy.lean ====
section
/-! DEFINITION. Halts (R174), and the steward's operations on partitions: create and update (R292), keys (R293), quotas
(R295), reset and release (R298 to R300), revocation of plans (R302). -/

namespace Sys2Proof.Machine

/-- End a heat before its work is done. A PLAN_LOAD releases what it has reserved (R26). -/
def State.stopHeat (s : State) (c : Nat) (st : Status) : State :=
  match s.heat c with
  | some h => if h.live && h.id.d.kind = .planLoad then s.planFail c st else s.endHeat c st
  | none => s

/-! ### Halts (R161, R174) -/

/-- Requests for entries of a queue, and for the CMPL_ADDR of its chain under validation, are abandoned; `halt` tells that the queue halts,
whose failures in the same tclk are still its own (R175). Those for the records of malformed chains go on (R174). -/
def State.dropFetches (s : State) (q : Nat) (halt : Bool := false) : State :=
  let mine (o : ReqFor) : Bool := match o with
    | .fetch x _ => x = q
    | .cmpl x => x = q
    | _ => false
  { s with wld := { s.wld with
      mem := s.wld.mem.map fun e => (e.1, e.2.map fun r => if mine r.owner && !r.slag then { r with slag := true, drop := halt } else r)
      xl := s.wld.xl.map fun e => (e.1, e.2.map fun r => if mine r.owner && !r.slag then { r with slag := true, drop := halt } else r) } }

/-! ### Indices (R152) -/

/-- S, the entries of a ring. -/
def Queue.size (q : Queue) : Nat := 2 ^ q.log2.toNat

/-- The configuration is valid (R156). -/
def Queue.cfgOk (q : Queue) : Bool := decide (4 ≤ q.log2.toNat ∧ q.log2.toNat ≤ 16)

/-- v(x) (R152). -/
def Queue.v (q : Queue) (x : BitVec 17) : Nat := fieldN x 16 1 * q.size + fieldN x 0 16

/-- The index of a value. -/
def Queue.ix (q : Queue) (n : Nat) : BitVec 17 :=
  let m := n % (2 * q.size)
  assemble 17 [(m / q.size, 16), (m % q.size, 0)]

/-- d(x), entries from head to an index (R157). -/
def Queue.d (q : Queue) (x : BitVec 17) : Nat := (q.v x + 2 * q.size - q.v q.head) % (2 * q.size)

/-- An index `n` entries beyond head. -/
def Queue.ahead (q : Queue) (n : Nat) : BitVec 17 := q.ix (q.v q.head + n)

/-- The partition's barrier range and weld ports, for the checks of a queue's chains. -/
def State.chainScope (s : State) (q : Nat) : (Nat × Nat) × W32 :=
  match s.partOfQueue q with
  | some p => (((s.part p).bbase, (s.part p).bcount), (s.part p).weldPorts)
  | none => ((0, 0), 0)

/-- The chain under validation is whole. -/
def Queue.whole (q : Queue) : Bool := ((q.under.getLast?).map entLast).getD false

/-- An entry breaks the structure of the chain that it continues (R173, step 1). -/
def Queue.breaks (q : Queue) (e : Payload) : Bool :=
  (if q.under = [] then !entFirst e else entFirst e) || (15 ≤ q.under.length && !entLast e)

/-- Discard the cached entries and the chain under validation of a queue. -/
def Queue.discard (q : Queue) : Queue :=
  { q with cache := [], fetching := [], under := [], ready := none, cmplWait := false }

/-- A queue becomes HALTED. -/
def State.haltQueue (s : State) (q : Nat) : State :=
  (s.dropFetches q true).modQueue q fun x => { x.discard with st := .halted }

/-- The queues of a partition. -/
def Part.queues (p : Part) : List Nat := (List.range p.qcount).map (p.qbase + ·)

/-- Halt a partition (R174): every queue of it. -/
def State.haltPart (s : State) (p : Nat) : State :=
  let s := ((s.part p).queues).foldl State.haltQueue s
  (s.modPart p fun x => { x with state := .halted, haltAt := some s.time.now }).tngEvent 0x01

/-- The space of a queue's addresses (R151). -/
def State.spaceOf (s : State) (q : Nat) : Space :=
  match s.partOfQueue q with
  | some p => .asid (s.part p).asid
  | none => .steward

/-- Write the records of malformed chains whose address is known, while there is room. -/
def State.flushBad (s : State) (q : Nat) : State :=
  let x := s.queue q
  match x.bad.find? fun b => b.pa.isSome with
  | some b =>
    if s.pickRoom then
      let r := recordOf s.epoch 0 b.idx q b.gen false false {} .malformed
      let a := b.pa.getD (0, 0)
      let s := (s.writeRecord a.1 (b.va.toNat / 4096, a.2) (s.spaceOf q) q b.notify r).modQueue q fun x => { x with bad := x.bad.erase b }
      { s with wld := { s.wld with pturn := (ReqFor.bad q).turn } }
    else s
  | none => s

/-- Ask for the translations of malformed chains' CMPL_ADDR that have not been asked for, while a request is free (R174, R188). -/
def State.askBad (s : State) (q : Nat) : State :=
  match (s.queue q).bad.find? fun b => b.pa.isNone && !b.asked with
  | none => s
  | some b =>
    match s.askXlate { page := false, space := s.spaceOf q, vpage := b.va.toNat / 4096, write := true, owner := .bad q } with
    | some r => r.2.modQueue q fun y => { y with bad := y.bad.map fun x => if x = b then { x with asked := true } else x }
    | none => s

/-- The record of a malformed chain with head entry `hd`, where it has one (R174). -/
def State.badRecord (s : State) (q : Nat) (hd : Option Payload) : State :=
  match hd with
  | none => s
  | some e =>
    let a := entWord e 5
    if entFirst e && cmplOk a then
      let gen := match s.partOfQueue q with
        | some p => (s.part p).gen.toNat
        | none => 0
      let b : BadRec := { idx := (s.queue q).head, gen := gen, notify := bit e 13, va := a, pa := none, asked := false }
      match s.xlateHit (s.spaceOf q) (a.toNat / 4096) true with
      | some x =>
        let s := s.cacheUse x
        (s.modQueue q fun y => { y with bad := y.bad ++ [{ b with pa := some (x.phys a.toNat, x.size) }] }).flushBad q
      | none => (s.modQueue q fun y => { y with bad := y.bad ++ [b] }).askBad q
    else s

/-- What a queue's next chain, as far as the cache holds it, is found to break (R173): the reason, and the head entry of a chain that may
have a record. `es` are the entries consumed so far. -/
def State.foundBad (s : State) (q : Nat) : Nat → List Payload → Option (BitVec 4 × Option Payload)
  | 0, _ => none
  | fuel + 1, es =>
    let x := { s.queue q with under := es }
    if x.whole then
      let sc := s.chainScope q
      match validateChain (q = 0) sc.1 sc.2 es with
      | .error r => some (r, es.head?)
      | .ok (_, w) => if cmplOk w.cmpl then none else some (reasonCmpl, none)
    else if es = [] && x.hold then none
    else match x.cache.find? fun e => e.1 = (x.ahead es.length).toNat with
      | none => none
      | some e =>
        if x.breaks e.2 then some (reasonChain, es.head?.orElse fun _ => some e.2) else State.foundBad s q fuel (es ++ [e.2])

/-- The other queues of a partition that halts whose next chain is found malformed in the same tclk record their own reason, and the chain
its record (R174, R175; DESIGN CHOICE, log 66: a chain that is whole in the cache then is found in that tclk). -/
def State.foundWith (s : State) (p q : Nat) : State :=
  ((s.part p).queues.filter (· ≠ q)).foldl (fun s y =>
    let x := s.queue y
    if x.st = .active && x.ready.isNone then
      match s.foundBad y 17 x.under with
      | some r => (s.modQueue y fun x => { x with reason := r.1 }).badRecord y r.2
      | none => s
    else s) s

/-- The partition of a queue has halted in this tclk (R175). -/
def State.haltsNow (s : State) (q : Nat) : Bool :=
  (s.partOfQueue q).any fun p => (s.part p).haltAt.any fun t => t / 1000 = s.time.now / 1000

/-- What is found malformed in a queue that has halted in this tclk is its own reason, if it has none yet (R175; log 66). -/
def State.foundToo (s : State) (q : Nat) (reason : BitVec 4) : State :=
  if (s.queue q).st = .halted && s.haltsNow q && (s.queue q).reason = 0 then s.modQueue q fun y => { y with reason := reason } else s

/-- A malformed entry in queue `q` (R162, R174, R175): the reason, the halt, and the record of a chain that has one. `hd` is the
head entry of such a chain. -/
def State.malformed (s : State) (q : Nat) (reason : BitVec 4) (hd : Option Payload) : State :=
  let s := (s.modQueue q fun x => { x with reason := reason }).badRecord q hd
  match s.partOfQueue q with
  | none => s.haltQueue q
  | some p =>
    if (s.part p).state = .active then
      ((s.capture causeHalt (some p) false (s.partEntries (some p) [] false)).foundWith p q).haltPart p
    else s

/-! ### PARTITION_CREATE (R291, R292) -/

/-- The partition that a PARTITION_CREATE chain describes. -/
def createPart (w : Words) (bitmap : List Nat) : Part :=
  { Part.free with
    state := .active, key := field w.w6 8 12, gen := field w.w6 20 4, cls := field w.w6 24 5, asid := field w.w7 0 16,
    requester := field w.w7 16 16, bitmap := bitmap, qbase := fieldN w.ext1 0 12, qcount := fieldN w.ext1 16 12,
    bbase := fieldN w.ext1 32 14, bcount := fieldN w.ext1 48 15, weldPorts := field w.ext2 0 32 }

/-- PART of a steward kind. -/
def Words.partIdx (w : Words) : Nat := fieldN w.w6 0 8

/-- Two ranges overlap: they have an element in common. -/
def overlaps (b1 n1 b2 n2 : Nat) : Bool := decide (0 < n1 ∧ 0 < n2 ∧ b1 < b2 + n2 ∧ b2 < b1 + n1)

/-- Milliseconds before a released key may be created again (R292), in ps. -/
def keyHoldPs : Nat := 160 * msPs

/-- What the checks of R292 decide. -/
inductive CreateCheck where
  | refuse
  | wait (until_ : Nat)
  | go
deriving DecidableEq, Repr

/-- The checks of PARTITION_CREATE (R292, R338). -/
def State.createCheck (s : State) (w : Words) : CreateCheck :=
  let i := w.partIdx
  let n := createPart w []
  let o := s.part i
  if s.prov.tapOpen then .refuse
  else if bit w.w6 32 then
    if o.state ≠ .free && o.key = n.key && o.gen = n.gen && o.cls = n.cls && o.asid = n.asid &&
        o.requester = n.requester && o.qbase = n.qbase && o.qcount = n.qcount && o.bbase = n.bbase &&
        o.bcount = n.bcount && o.weldPorts = n.weldPorts then .go else .refuse
  else if o.state ≠ .free || (s.partOfKey n.key).isSome ||
      (s.tab.parts.any fun e => e.2.state ≠ .free &&
        (overlaps n.qbase n.qcount e.2.qbase e.2.qcount || overlaps n.bbase n.bcount e.2.bbase e.2.bcount ||
          n.weldPorts &&& e.2.weldPorts ≠ 0)) then .refuse
  else
    match s.tab.released.find? fun e => e.1 = n.key && decide (s.time.now < e.2 + keyHoldPs) with
    | some e => .wait (e.2 + keyHoldPs)
    | none => .go

/-- Endpoints of a bitmap. -/
def bitmapOf (bs : List Byte) : List Nat :=
  (List.range bs.length).flatMap fun k => (setBits (bs.getD k 0)).map fun b => 8 * k + b

/-- Begin to read the bitmap. -/
def State.createRead (s : State) (c : Nat) : State :=
  s.modHeat c fun h =>
    { h with run := { h.run with due := 0 }, dp := { h.dp with streams := [wordStream .src false h.id.w.src 8192] } }

/-- A dispatched PARTITION_CREATE (R292). -/
def State.startCreate (s : State) (c : Nat) : State :=
  match s.heat c with
  | none => s
  | some h =>
    match s.createCheck h.id.w with
    | .refuse => s.endHeat c .malformed
    | .wait t => s.modHeat c fun h => { h with run := { h.run with due := t } }
    | .go => s.createRead c

/-- Apply a PARTITION_CREATE whose bitmap is read. -/
def State.createApply (s : State) (c : Nat) (h : Heat) (bitmap : List Nat) : State :=
  let w := h.id.w
  let i := w.partIdx
  match s.createCheck w with
  | .go =>
    if bit w.w6 32 then (s.modPart i fun x => { x with bitmap := bitmap }).endHeat c .ok
    else
      let p := createPart w bitmap
      let s := s.diagEnds.setPart i p
      let s := (p.queues).foldl (fun s q => s.setQueue q { Queue.reset with st := .disabled }) s
      s.endHeat c .ok
  | _ => s.endHeat c .malformed

/-! ### KEY_SET and QUOTA_SET (R293, R295) -/

/-- A dispatched KEY_SET. -/
def State.startKeySet (s : State) (c : Nat) : State :=
  match s.heat c with
  | none => s
  | some h =>
    let w := h.id.w
    let key := fieldN w.w6 0 12
    let ks := (setBits (field w.w7 0 40)).foldl (fun t p => Tbl.set false t (p * 4096 + key) (bit w.w6 16)) s.route.keys
    ({ s with route := { s.route with keys := ks } }).endHeat c .ok

/-- The limits that a QUOTA_SET asks for (R294). -/
def quotaOf (w : Words) : Quota :=
  { ingots := fieldN w.w6 8 16, slots := fieldN w.w6 24 17, plans := fieldN w.w6 41 11, staging := fieldN w.w6 52 12,
    pins := fieldN w.w7 0 15, heats := fieldN w.w7 15 13, tags := fieldN w.w7 28 13 }

/-- The items of a quota, in the order of TNG_USE (R320). -/
def Quota.items (q : Quota) : List Nat := [q.ingots, q.slots, q.plans, q.staging, q.pins, q.heats, q.tags]

/-- The engine's totals, in that order (R295). -/
def quotaTotals : List Nat := [32768, 65536, 1024, 2048, 16384, 4080, 4096]

/-- QUOTA_SET may be applied (R295). -/
def State.quotaFits (s : State) (i : Nat) (n : Quota) : Bool :=
  let others := s.tab.parts.filter fun e => e.1 ≠ i && e.2.state ≠ .free
  let sum (k : Nat) : Nat := (others.map fun e => e.2.quota.items.getD k 0).sum
  (s.part i).state ≠ .free &&
    (List.range 7).all fun k =>
      decide (sum k + n.items.getD k 0 ≤ quotaTotals.getD k 0) && decide ((s.use i).items.getD k 0 ≤ n.items.getD k 0)

/-- A dispatched QUOTA_SET. -/
def State.startQuota (s : State) (c : Nat) : State :=
  match s.heat c with
  | none => s
  | some h =>
    let w := h.id.w
    if s.quotaFits w.partIdx (quotaOf w) then
      (s.modPart w.partIdx fun x =>
        { x with quota := quotaOf w, crash := if bit w.w7 41 then w.ext1 else x.crash }).endHeat c .ok
    else s.endHeat c .quotaExceeded

/-! ### PARTITION_RESET and release (R298 to R300) -/

/-- Spacing of resets (R300), in ps. -/
def resetGapPs : Nat := 10 * msPs

/-- The barrier check of R261. -/
def State.barCheckAll (s : State) (p : Nat) : State :=
  let x := s.part p
  let left := s.tab.bars.filter fun e =>
    x.bbase ≤ e.1 && e.1 < x.bbase + x.bcount && (e.2.count ≠ 0 || e.2.armed)
  match left with
  | [] => s
  | (i, _) :: _ =>
    let s := left.foldl (fun s e => s.setBar e.1 Bar.clean) s
    { s with tng := { s.tng with leftValid := true, leftCount := BitVec.ofNat 15 left.length, leftFirst := BitVec.ofNat 14 i } }

/-- Plans, circuits and slots of a partition of key `key` are gone (R298). -/
def State.clearTables (s : State) (p : Nat) (key : BitVec 12) : State :=
  let s := (s.tab.plans.filter fun e => match e.2 with
    | some y => y.part = p
    | none => false).foldl (fun s e => s.unloadPlan e.1) s
  let s := (s.route.circ.filter fun e => e.2.any fun y => y.key = key).foldl (fun s e => s.freeCirc e.1) s
  (s.hrt.slots.filter fun e => e.1 / 65536 = p).foldl (fun s e => s.releaseSlot p (e.1 % 65536)) s

/-- Its translations are gone, and the pins of its heats (another partition may have its address space, R292); its barrier objects are
checked (R188, R298). -/
def State.clearPart (s : State) (p : Nat) (x : Part) : State :=
  let s := (s.clearTables p x.key).cacheDrop fun e => e.space = .asid x.asid
  { s with wld := { s.wld with pins := s.wld.pins.filter fun e => (s.heat e.2).any fun (h : Heat) => h.id.part ≠ some p } }.barCheckAll p

/-- A released partition is FREE, its queues are UNASSIGNED, and its key may not be used again for a time (R292, R299). -/
def State.freePart (s : State) (p : Nat) (x : Part) : State :=
  let s := x.queues.foldl (fun s q => s.setQueue q Queue.reset) s
  let rel := (x.key, s.time.now) :: s.tab.released.filter fun e => e.1 ≠ x.key && decide (s.time.now < e.2 + keyHoldPs)
  let s : State := { s with tng := { s.tng with evts := s.tng.evts.filter fun e => !(x.queues.elem e.1) } }
  let s := s.setPart p Part.free
  { s with tab := { s.tab with released := rel } }

/-- A reset partition is ACTIVE in its next generation, and its queues are DISABLED (R298). -/
def State.renewPart (s : State) (p : Nat) (x : Part) : State :=
  (x.queues.foldl (fun s q => s.modQueue q fun y =>
    { y with st := .disabled, enable := false, head := 0, tail := 0, hold := false, reason := 0, pendTail := none, pendInval := false }) s).modPart
      p fun y => { y with state := .active, gen := y.gen + 1, lastReset := some s.time.now, haltAt := none }

/-- Steps 4 to 8 of R298, and R299, when no heat of the partition is left. -/
def State.resetFinish (s : State) (c p : Nat) (release : Bool) : State :=
  let x := s.part p
  let s := s.clearPart p x
  (if release then s.freePart p x else s.renewPart p x).endHeat c .ok

/-- Go on with a reset that waits for the records of the partition's heats (R161, R298), while a sequencer runs (R342). -/
def State.resetGo (s : State) (p : Nat) : State :=
  let st := (s.part p).state
  if (st = .resetting || st = .releasing) && !s.seqStopped && !(s.heatList.any fun e => e.2.id.part = some p) then
    match s.heatList.find? fun e => e.2.live && e.2.run.phase ≠ .queued && e.2.id.d.kind = .partReset && e.2.id.w.partIdx = p with
    | some e => s.resetFinish e.1 p (st = .releasing)
    | none => s
  else s

/-- Steps 1 to 3 of R298. A watchdog that expires in the tclk of step 3 ends its heat first (R301). -/
def State.resetBegin (s : State) (c p : Nat) (release : Bool) : State :=
  let s := if (s.part p).state = .halted then s.diagEnds else s
  let s := s.modPart p fun x => { x with state := if release then .releasing else .resetting }
  let s := (s.part p).queues.foldl State.haltQueue s
  let s := s.modHeat c fun h => { h with run := { h.run with due := 0 } }
  let s :=
    if !s.recorded (some p) then s
    else if !release then s.traceEntry (traceWord (s.machineTime.setWidth 40) 4 [(2, 80), (p, 72)])
    else if s.trc.all then s
    else s.recordEnd
  let s := s.capture (if release then causeRelease else causePartReset) (some p) false (s.partEntries (some p) [] true)
  let s := (s.runningOf (some p) []).foldl (fun s e =>
    if s.expiresNow e.2 then ((s.captureExpiry e.1 e.2).beginSample e.1).stopHeat e.1 .abortTimeout else s.stopHeat e.1 .partitionReset) s
  s.resetGo p

/-- A dispatched PARTITION_RESET (R298, R300): within 10 ms of the last one's end it waits. -/
def State.startReset (s : State) (c : Nat) : State :=
  match s.heat c with
  | none => s
  | some h =>
    let p := h.id.w.partIdx
    if (s.part p).state = .free then s.endHeat c .malformed
    else
      match (s.part p).lastReset with
      | some t =>
        if !bit h.id.w.w6 8 && decide (s.time.now < t + resetGapPs) then
          s.modHeat c fun h => { h with run := { h.run with due := t + resetGapPs } }
        else s.resetBegin c p (bit h.id.w.w6 8)
      | none => s.resetBegin c p (bit h.id.w.w6 8)

/-! ### PLAN_REVOKE (R302) -/

/-- A heat runs, or has run, over the plan in a table entry. -/
def Heat.ranOver (h : Heat) (p : Plan) : Bool :=
  h.id.d.kind.group && h.id.part = some p.part && h.id.d.plan = p.id && h.grp.digest = p.digest

/-- A running heat uses the plan in a table entry. -/
def Heat.uses (h : Heat) (p : Plan) : Bool := h.live && h.ranOver p

/-- A PLAN_UNLOAD in context `c` goes on (R28): once the earlier heats of its queue that use the plan have written their
records, the plan is unloaded and the heat completes; a plan that a PLAN_REVOKE has taken leaves nothing to wait for. -/
def State.unloadStep (s : State) (c : Nat) : State :=
  match s.heat c, s.leavingPlan c with
  | some h, some (k, p) =>
    if (s.queue h.id.q).heats.any fun x => x ≠ c && (s.heat x).any fun y => decide (y.id.order < h.id.order) && y.ranOver p then s
    else (s.unloadPlan k).endHeat c .ok
  | some _, none => s.endHeat c .ok
  | none, _ => s

/-- A PLAN_UNLOAD that ends before its wait is over has taken effect all the same. -/
def State.unloadLeft (s : State) (c : Nat) : State :=
  match s.leavingPlan c with
  | some (k, _) => s.unloadPlan k
  | none => s

/-- Revoke one plan: its heats end with PLAN_INVALID, then it is unloaded. -/
def State.revokeOne (s : State) (k : Nat) : State :=
  match s.plan k with
  | none => s
  | some p =>
    let s := ((s.heatList.filter fun e => e.2.uses p).map fun e => e.1).foldl (fun s c => s.endHeat c .planInvalid) s
    s.unloadPlan k

/-- A dispatched PLAN_REVOKE. -/
def State.startRevoke (s : State) (c : Nat) : State :=
  match s.heat c with
  | none => s
  | some h =>
    let w := h.id.w
    let p := w.partIdx
    let all := bit w.w6 16
    let ks := (s.tab.plans.filter fun e => match e.2 with
      | some x => x.part = p && x.ready && (all || x.id = fieldN w.w6 8 8)
      | none => false).map fun e => e.1
    if (s.part p).state = .free || (!all && ks = []) then s.endHeat c .malformed
    else (ks.foldl State.revokeOne s).endHeat c .ok

end Sys2Proof.Machine
end

