-- ==== Sys2Proof/Machine/Sequencers.lean ====
section
/-! DEFINITION. The profiles (R276, R277), and the sequencers with live re-image (R339 to R342). -/

namespace Sys2Proof.Machine

/-- CTL_VERSION (R390). -/
def ctlVersion : W32 := 0x02010000 ||| Config.build.setWidth 32

/-! ### Register values that the profiles cover (R135, R226, R357) -/

/-- PWR_GATE_CTL. -/
def PowerSt.gateCtl (p : PowerSt) : W32 :=
  assemble 32 [(p.idleUs.toNat, 16), (b2n p.autoTrace, 10), (b2n p.autoHearth, 9), (b2n p.autoAnvil, 8), (p.minAnvil.toNat, 0)]

/-- PWR_THERM_CTL. -/
def PowerSt.thermCtl (p : PowerSt) : W32 :=
  assemble 32 [(p.hystC.toNat, 20), (p.duty.toNat, 16), (p.critC.toNat, 8), (p.throttleC.toNat, 0)]

/-- HRT_PATROL_CTL. -/
def HrtSt.patrolCtl (h : HrtSt) : W32 := BitVec.ofNat 32 (b2n h.patrol)

/-- TRC_TELE_CTL. -/
def TrcSt.teleCtl (t : TrcSt) : W32 := assemble 32 [(b2n t.teleEnable, 31), (t.teleInterval.toNat, 0)]

/-- BIT_PROFILE (R276). -/
def State.bitDigest (s : State) : W64 := profileDigest ((ctlVersion &&& 0xFF000000) :: s.boot.cfg.bitDefaults)

/-- CLOCK_PROFILE (R276). -/
def State.clockDigest (s : State) : W64 :=
  profileDigest ([ctlVersion, s.boot.seqVer, s.boot.trnVer] ++ s.boot.cfg.clockPlan ++
    [s.power.gateCtl, s.power.thermCtl, s.hrt.patrolCtl, s.trc.teleCtl])

/-- Mark every running heat TIMING_PERTURBED (R277, R279, R356). -/
def State.perturbAll (s : State) : State :=
  ((s.heatList.filter fun e => e.2.live).map fun e => e.1).foldl State.perturb s

/-- Compute CLOCK_PROFILE again: a change is counted and marks every running heat (R277). -/
def State.reclock (s : State) : State :=
  let d := s.clockDigest
  if s.ctl.profValid && d ≠ s.ctl.clockProfile then
    { s with ctl := { s.ctl with clockProfile := d, changes := satInc s.ctl.changes } }.perturbAll
  else s

/-! ### Sequencer work (R339, R341) -/

/-- Kinds whose circuit setup and release a sequencer carries out. -/
def Kind.planKind (k : Kind) : Bool := k = .planLoad || k = .planUnload

/-- A live heat is sequencer work in progress. -/
def Heat.seqWork (h : Heat) : Bool :=
  h.live && ((h.id.d.kind.steward && h.id.d.kind ≠ .reimageActivate) || (h.id.d.kind = .planLoad && h.grp.sentUp))

/-- Sequencer work is in progress. -/
def State.seqBusy (s : State) : Bool := s.heatList.any fun e => e.2.seqWork

/-- Queue 0 dispatches nothing, and plan kinds wait at dispatch (R341, R342). -/
def State.seqHeld (s : State) : Bool := s.seq.hold.isSome || s.seq.reload || s.seq.fatal

/-- The standby becomes active; the former active sequencer is loaded from the new active store (R339, R341, R342). -/
def State.switch (s : State) : State :=
  let staged := s.seq.standby = .staged
  let s := { s with
    boot := { s.boot with seqVer := if staged then s.seq.stagedVer else s.boot.seqVer }
    seq := { s.seq with
      activeId := !s.seq.activeId, ifrev := if staged then s.seq.stagedIfrev else s.seq.ifrev, standby := .loading
      stagedVer := 0, stagedIfrev := 0, loadVer := 0, loadIfrev := 0, stage := none, fails := 0 } }
  s.reclock

/-- The waiting REIMAGE_ACTIVATE ends. -/
def State.endHoldSeq (s : State) (st : Status) : State :=
  match s.seq.hold with
  | none => s
  | some (c, _) => ({ s with seq := { s.seq with hold := none } }).endHeat c st

/-! ### REIMAGE_STAGE and REIMAGE_ACTIVATE (R340, R341) -/

/-- A dispatched REIMAGE_STAGE reads its region. -/
def State.startStage (s : State) (c : Nat) : State :=
  s.modHeat c fun h => { h with dp := { h.dp with streams := [wordStream .src false h.id.w.src h.id.w.count] } }

/-- The region of a REIMAGE_STAGE passes its checks (R340). -/
def State.stageOk (s : State) (b : List Byte) : Bool :=
  let len := leAt b 0x14 4
  s.boot.cfg.reimageEn && bit s.ctl.permits 3 && s.seq.standby ≠ .loading && s.seq.standby ≠ .failed &&
    s.seq.hold.isNone && leAt b 0 1 = 2 && len % 4 = 0 && len ≤ 262144 && leAt b 0x10 4 = 0x20 && 32 + len ≤ b.length &&
    leAt b 8 4 / 256 ≤ ctlVersion.toNat / 256 && ctlVersion.toNat / 256 ≤ leAt b 0xC 4 / 256 &&
    leAt b 1 1 = s.boot.trnIfrev && crc32 (slice b 32 len) = BitVec.ofNat 32 (leAt b 0x18 4)

/-- The region has been read: the standby loads it, or the heat ends with MALFORMED. -/
def State.stageApply (s : State) (c : Nat) (b : List Byte) : State :=
  if s.stageOk b then
    { s with seq := { s.seq with
        standby := .loading, stage := some c, fails := 0, stagedVer := 0, stagedIfrev := 0
        loadVer := BitVec.ofNat 32 (leAt b 4 4), loadIfrev := BitVec.ofNat 8 (leAt b 1 1) } }
  else s.endHeat c .malformed

/-- A dispatched REIMAGE_ACTIVATE: a STAGED standby holds the sequencer's work (R341). -/
def State.startActivate (s : State) (c : Nat) : State :=
  match s.heat c with
  | none => s
  | some h =>
    if s.boot.cfg.reimageEn && bit s.ctl.permits 3 && s.seq.standby = .staged && s.seq.hold.isNone then
      { s with seq := { s.seq with hold := some (c, s.time.now + fieldN h.id.w.w6 0 16 * msPs) } }
    else s.endHeat c .malformed

/-- A load of the standby store has been checked (R339). -/
def State.loadDone (s : State) (ok : Bool) : State :=
  if s.seq.standby ≠ .loading then s
  else if ok then
    match s.seq.stage with
    | none => { s with seq := { s.seq with standby := .ready, fails := 0 } }
    | some c =>
      ({ s with seq := { s.seq with
          standby := .staged, fails := 0, stage := none, stagedVer := s.seq.loadVer, stagedIfrev := s.seq.loadIfrev } }).endHeat
        c .ok
  else if s.seq.fails = 0 then { s with seq := { s.seq with fails := 1 } }
  else
    let s' := { s with seq := { s.seq with standby := .failed, fails := 2, stage := none } }
    match s.seq.stage with
    | some c => s'.endHeat c .malformed
    | none => s'

/-- A steward heat has ended otherwise than by its own rule: what it had begun goes on without it. -/
def State.forget (s : State) (c : Nat) : State :=
  { s with
    seq := { s.seq with
      stage := if s.seq.stage = some c then some 4096 else s.seq.stage
      hold := s.seq.hold.filter fun x => x.1 ≠ c }
    route := { s.route with
      hold := s.route.hold.map fun x => if x.heat = some c then { x with heat := none } else x } }

/-- Sequencer work that a fault of the active sequencer ends: as on watchdog expiry, with reason STATE_ECC (R310, R342). -/
def State.seqAbort (s : State) (c : Nat) : State :=
  match s.heat c with
  | none => s
  | some h =>
    let s := s.captureHeats causeStateEcc h.id.part [(c, ⟨0x12, 0x18, 0, 0⟩)] [s.crashOf h]
    ((s.beginSample c).stopHeat c .abortTimeout).forget c

/-- A fault of the active sequencer (R342). -/
def State.seqFaulted (s : State) : State :=
  let work := (s.heatList.filter fun e => e.2.seqWork && e.2.id.d.kind ≠ .partReset).map fun e => e.1
  if s.seq.fatal then s
  else if s.seq.standby = .ready || s.seq.standby = .staged then
    let staged := s.seq.standby = .staged
    let s := { s with seq := { s.seq with takeovers := satInc s.seq.takeovers } }.switch
    let s := work.foldl State.seqAbort s
    if staged then s.endHoldSeq .ok else s
  else
    let s := { s with seq := { s.seq with reload := true, reloads := satInc s.seq.reloads } }
    work.foldl State.seqAbort s

end Sys2Proof.Machine
end

