-- ==== Sys2Proof/Machine/Domains.lean ====
section
/-! DEFINITION. The switched domains of the islands (R12, R353, R357), and which islands serve heats (R13). -/

namespace Sys2Proof.Machine

/-! ### Domains (R353, R357) -/

/-- The bits of an island in PWR_DOMAIN_STAT; the Hearth banks are gated and woken together, each with its own bit. -/
def islandBits : Island → List Nat
  | .link n => [n.val]
  | .anvil n => [8 + n.val]
  | .hearth n => [13 + n.val]
  | .tongs => [21]
  | .sibling => [22]
  | .trace => [23]
  | _ => []

/-- The bits that are gated and woken with an island. -/
def domainBits : Island → List Nat
  | .hearth _ => (List.range 8).map (13 + ·)
  | i => islandBits i

/-- The codes of the islands that are gated and woken with an island. -/
def domainCodes : Island → List Nat
  | .hearth _ => (List.range 8).map (0x10 + ·)
  | i => [islandCode i]

/-- A mask of bits. -/
def maskOf (bs : List Nat) : BitVec 24 := BitVec.ofNat 24 ((bs.map fun k => 2 ^ k).sum)

/-- Every domain of an island is powered. -/
def State.isOn (s : State) (i : Island) : Bool := (islandBits i).all (bit s.power.on)

/-- An island is powered and ALIGNED. -/
def State.isReady (s : State) (i : Island) : Bool :=
  match i with
  | .weld => s.power.weldAligned
  | .control => s.power.ctlAligned
  | i => s.isOn i && (islandBits i).all (bit s.power.aligned)

/-- Request the wake of an island's domains that are gated. -/
def State.wake (s : State) (i : Island) : State :=
  let m := clearBits (maskOf (domainBits i)) s.power.on
  { s with power := { s.power with waking := s.power.waking ||| m, woken := s.power.woken ||| m } }

/-- The Anvil islands, lowest number first. -/
def anvils : List Island := (List.range 5).filterMap fun n => islandOfCode (8 + n)
/-- The Hearth banks. -/
def hearths : List Island := (List.range 8).filterMap fun n => islandOfCode (16 + n)

/-- An island reset of this island is in progress, or waits for one that is. -/
def State.underReset (s : State) (i : Island) : Bool :=
  s.ctl.islBusy && (s.ctl.islNow.toNat = islandCode i || s.ctl.islMore.any fun x => x.1.toNat = islandCode i)

/-- Some Anvil island can take a heat's additions (R13). -/
def State.anvilServes (s : State) : Bool := anvils.any fun i => s.isReady i && !s.underReset i

/-- Hearth is powered and ALIGNED (R13). -/
def State.hearthServes (s : State) : Bool := hearths.all s.isReady

/-- A wake of an island has not ended (R353). -/
def State.isWaking (s : State) (i : Island) : Bool := (islandBits i).any (bit s.power.woken)

/-- Hearth is being woken: its wake ends with the scrub of every ingot (R353). A reset after a fault is no wake (R304). -/
def State.hearthWaking (s : State) : Bool := (!s.hearthServes || s.hrt.resetting) && hearths.any s.isWaking

end Sys2Proof.Machine
end

