-- ==== Sys2Proof/Machine/Schedule.lean ====
section
/-! DEFINITION. The scheduler (R166): the bounds on a dispatch (R13, R28, R52, R201, R341, R361), which queues are eligible, and the weighted
round robin. -/

namespace Sys2Proof.Machine

/-! ### Bounds at dispatch (R13, R28, R52, R201, R341, R361) -/

/-- The weld streams that a descriptor names, as port and tag. -/
def weldNames (d : Desc) (w : Words) : List (Nat × Nat) :=
  (if d.kind.usesSrc && d.srcMode = .weld then [(fieldN w.src 0 5, fieldN w.src 5 16)] else []) ++
  (if d.kind.usesDst && d.dstMode = .weld then [(fieldN w.dst 0 5, fieldN w.dst 5 16)] else [])

/-- A tag is live on a port (R361). -/
def State.weldLive (s : State) (x : Nat × Nat) : Bool :=
  (s.heatList.any fun e => e.2.live && (weldNames e.2.id.d e.2.id.w).elem x) ||
    s.wld.late.any fun l => l.1.toNat = x.1 && l.2.1.toNat = x.2

/-- The plan that a chain names, if loaded (R28). -/
def State.planOf (s : State) (part : Option Nat) (d : Desc) : Option Plan :=
  (part.bind fun p => s.planKey p d.plan).bind s.plan

/-- The context that a queue's next heat takes: 16 are kept for queue 0 (R288). -/
def State.freeCtx (s : State) (q : Nat) : Option Nat :=
  if q = 0 then ((List.range 16).map (4080 + ·)).find? fun c => (s.heat c).isNone else Tbl.free s.tab.heats 4080

/-- The islands that a kind needs at dispatch are there, a Hearth that was woken with its scrub over (R13, R353, R354). -/
def State.powered (s : State) (k : Kind) : Bool :=
  (!k.needsAnvil || s.anvilServes) && (k ≠ .preload || (s.hearthServes && !s.hearthWaking))

/-- The next chain of a queue may dispatch, but for its islands. A BARRIER heat with FENCE holds back the later heats of its
queue until it is released (R263). -/
def State.bounded (s : State) (q : Nat) (d : Desc) (w : Words) : Bool :=
  let x := s.queue q
  let part := s.partOfQueue q
  let flows := match s.planOf part d with
    | some p => if d.kind.group then flowCount p d w ((part.map fun x => (s.part x).weldPorts).getD 0) else 0
    | none => 0
  let gate : Bool := x.heats.any fun c => (s.heat c).any fun h => h.live && h.id.d.kind = .barrier && h.id.d.fence
  (!d.fence || x.heats = []) && !gate && (s.freeCtx q).isSome &&
    (match part with
      | some p =>
        decide ((s.use p).heats < (s.part p).quota.heats) &&
          (flows = 0 || (decide ((s.use p).tags + flows ≤ (s.part p).quota.tags) && (s.freeTagList flows).length = flows))
      | none => true) &&
    !((weldNames d w).any s.weldLive) && !(s.seqHeld && (q = 0 || d.kind.planKind))

/-- A queue is eligible (R166). -/
def State.eligible (s : State) (q : Nat) : Bool :=
  match (s.queue q).st, (s.queue q).ready with
  | .active, some (d, w, _) => s.bounded q d w && s.powered d.kind
  | _, _ => false

/-! ### The weighted round robin (R166) -/

/-- Weight and burst as the scheduler takes them: the page's reset value 0 counts as 1 (log 5). -/
def Queue.weightOf (q : Queue) : Int := max 1 q.weight.toNat
def Queue.burstOf (q : Queue) : Nat := max 1 q.burst.toNat

/-- Begin a round: every assigned queue gains its weight, up to it. -/
def State.newRound (s : State) : State :=
  (s.tab.queues.map fun e => e.1).foldl (fun s q =>
    if q = 0 || (s.queue q).st = .unassigned then s
    else s.modQueue q fun x => { x with credit := min (x.credit + x.weightOf) x.weightOf }) s

/-- Begin a pass. -/
def State.newPass (s : State) : State := { s with tng := { s.tng with visit := 1, taken := 0, granted := 0 } }

/-- Find the next grant among the eligible queues `el`, in ascending order: the queue, and the scheduler's state. -/
def State.grant (s : State) (el : List Nat) : Nat → Option (Nat × State)
  | 0 => none
  | fuel + 1 =>
    match el.find? fun q => decide (s.tng.visit ≤ q) && decide (0 < (s.queue q).credit) &&
        (q ≠ s.tng.visit || decide (s.tng.taken < (s.queue q).burstOf)) with
    | some q => some (q, s)
    | none => if 0 < s.tng.granted then s.newPass.grant el fuel else s.newRound.newPass.grant el fuel

/-- The eligible queues but queue 0. -/
def State.eligibles (s : State) : List Nat :=
  (s.tab.queues.map fun e => e.1).filter fun q => q ≠ 0 && s.eligible q

/-- The queue whose chain dispatches next (R166): queue 0 first. -/
def State.nextGrant (s : State) : Option (Nat × State) :=
  if s.eligible 0 then some (0, s)
  else match s.eligibles with
    | [] => none
    | el => s.grant el 64

/-- A grant of `n` entries has been made to a queue. -/
def State.granted (s : State) (q n : Nat) : State :=
  if q = 0 then s
  else
    let s := s.modQueue q fun x => { x with credit := x.credit - n }
    { s with tng := { s.tng with taken := (if s.tng.visit = q then s.tng.taken else 0) + n, visit := q, granted := s.tng.granted + 1 } }

/-- While no queue is eligible the rounds go on: every credit reaches its weight. -/
def State.idleRounds (s : State) : State :=
  if s.eligibles = [] then
    ((s.tab.queues.map fun e => e.1).foldl (fun s q =>
      if q = 0 || (s.queue q).st = .unassigned then s else s.modQueue q fun x => { x with credit := x.weightOf }) s).newPass
  else s

end Sys2Proof.Machine
end

