-- ==== Sys2Proof/Machine/Pump.lean ====
section
/-! DEFINITION. How a running heat goes on after each command that may have moved it: pinning, the rank map, its data plane,
its streams and flows, its completion conditions (R54, R186, R192), and its watchdog (R309). -/

namespace Sys2Proof.Machine

/-- Re-arm the watchdog of a heat to its full period (R309). -/
def State.rearm (s : State) (c : Nat) : State :=
  s.modHeat c fun h => { h with run := h.run.rearm s.time.now }

/-- A settled data plane: what its additions read is checked (R131, R132), and the flags of its operations are captured in diagnostic mode
(R83, R85). -/
def State.settleHeat (s : State) (c : Nat) : State :=
  match s.heat c with
  | none => s
  | some h =>
    if h.id.d.kind.carries || h.id.d.kind = .drainSlot then
      let pl := h.pc.settle h.dp
      let r := s.goOn c h { pl with raised := [] }
      if r.2 then pl.raised.foldl (fun s f => s.captureFlags c f) r.1 else r.1
    else s

/-- The units of DST that must have been accepted before a billet is committed (R191), counted from that of entry 0: those of this rank's
destination among what the billet has brought, from `a` to `x`, of a run; of a block or row that it has brought in part, the elements or bytes
that have come (R99), or the row. None where the billet reaches no destination. -/
def PC.markOf (c : PC) (pl : Plane) (r : Run) (a x : FlowIn) : List Nat :=
  let ru := c.runUnits r
  let k1 := if x.cur = a.cur then x.off else ru.2.1
  let begun : Bool := x.cur = a.cur && x.tail ≠ []
  let units (u len : Nat) : List Nat :=
    if c.d.outFmt.isMx then (List.range len).map (u * c.wireBytes + ·)
    else if c.d.outFmt.isInt4 then [u / 2]
    else if c.d.wireFmt.isMx && len < c.wireBytes then (c.unitElems u).take (c.partEls len) else c.unitElems u
  let es : List Nat := match r with
    | .part _ _ _ _ | .held _ _ => []
    | .res lo n | .data lo n =>
      if c.d.kind.adding then
        (List.range (k1 - a.off)).map (ru.1 + a.off + ·) ++ (if begun && c.rows then [ru.1 + k1] else [])
      else
        ((List.range (k1 - a.off)).flatMap fun j => (c.unitRes lo n (a.off + j)).flatMap fun u => units u c.wireBytes) ++
          (if begun && c.d.wireFmt.isMx then units (lo / c.bn + k1) x.tail.length else [])
  let base := c.unitBase pl
  if pl.hasDst then es.filter fun i => base ≤ i && i < base + pl.dcount else []

/-- Offer one billet of in-flow `f` to a heat (R61, R203): `none` if its contribution is early. An applied routed billet is
recorded, or moves a replay on (R280, R283). `held` tells that it is the flow's first held billet. -/
def State.applyItem (s : State) (c f : Nat) (it : Item) (held : Bool) : Option State :=
  match s.heat c with
  | none => none
  | some h =>
    match h.dp.ins[f]? with
    | none => none
    | some fi =>
      let pc := h.pc
      let a := pc.skipEmpty fi.runs.length fi
      match pc.item h.dp f fi it with
      | none => none
      | some (pl, x) =>
        let m := match fi.runs[a.cur]? with
          | some r => pc.markOf h.dp r a x
          | none => []
        let seq := BitVec.ofNat 13 (if held then fi.next - fi.held.length else fi.next)
        let x := { x with marks := x.marks ++ [(m, x.parse)], held := if held then fi.held.tail else fi.held
                          resumed := if held then x.resumed else false, next := if held then fi.next else fi.next + 1 }
        let r := s.goOn c h { pl with ins := pl.ins.set f x }
        let s := r.1
        some (if !r.2 || fi.circuit.isSome then s else
          let s := s.traceArrival c h fi.peer seq
          if s.replaying h.id.part then s.replayArrival h else s)

/-- In-flows by contribution index (R62). -/
def Plane.insInOrder (pl : Plane) : List Nat :=
  (List.range 65).flatMap fun k => (List.range pl.ins.length).filter fun f => pl.contribution f = k

/-- A held billet that has become due is applied (R62, R283), in index order. -/
def State.heldDue (s : State) (c : Nat) : Option State :=
  match s.heat c with
  | none => none
  | some h =>
    if h.paused || !h.live then none
    else h.dp.insInOrder.findSome? fun f => match h.dp.ins[f]? with
      | some fi => match fi.held with
        | it :: _ =>
          if fi.circuit.isSome || !s.replaying h.id.part ||
              s.replayDue h fi.peer (BitVec.ofNat 13 (fi.next - fi.held.length)) then s.applyItem c f it true else none
        | [] => none
      | none => none

/-- The data plane as far as it goes, held billets with it: `fuel` of them at most. -/
def State.heldLoop (s : State) (c : Nat) : Nat → State
  | 0 => s.settleHeat c
  | fuel + 1 =>
    let s := s.settleHeat c
    match s.heldDue c with
    | some s' => State.heldLoop s' c fuel
    | none => s

/-- Held billets of a heat, MASK billets with them. -/
def Plane.heldAll (pl : Plane) : Nat := (pl.ins.map fun f => f.held.length).sum

/-- The specific steps of a kind. -/
def State.kindStep (s : State) (c : Nat) (k : Kind) : State :=
  match k with
  | .barrier => s.barrierStep c
  | .alltoall => s.alltoallStep c
  | .recv => s.recvStep c
  | .planLoad => s.planStep c
  | .planUnload => s.unloadStep c
  | .preload =>
    match (s.heat c).bind fun h => h.dp.streams.find? fun x => x.id = .src with
    | some st => if st.ended then s.preloadDone c else s
    | none => s
  | .partCreate =>
    match s.heat c with
    | some h => match h.dp.streams.find? fun x => x.id = .src with
      | some st => if st.ended then s.createApply c h (bitmapOf (st.buf.map fun b => b.getD 0)) else s
      | none => s
    | none => s
  | .reimageStage =>
    match (s.heat c).bind fun h => h.dp.streams.find? fun x => x.id = .src with
    | some st => if st.ended && s.seq.stage ≠ some c then s.stageApply c (st.buf.map fun b => b.getD 0) else s
    | none => s
  | _ => s

/-- Every stream of a heat tries to go on. -/
def State.runStreams (s : State) (c : Nat) : State :=
  match s.heat c with
  | none => s
  | some h =>
    (List.range h.dp.streams.length).foldl (fun s i => match h.dp.streams[i]? with
      | some st => if st.id = .other then s else if st.isMem then s.streamStep c i else s.weldOutStep c i
      | none => s) s

/-- Everything that the heat does is done (R54, R186, R192). -/
def Heat.isDone (h : Heat) : Bool :=
  let pc := h.pc
  let pl := h.dp
  let flows := pl.outsDone && pc.insDone pl && pc.writesDone pl
  let ready := h.grp.peers.all fun e => e.2.isSome
  h.run.phase = .run &&
    match h.id.d.kind with
    | .allreduce | .reduceScatter | .reduce | .topk | .softmax => pl.added && pl.setDone && flows
    | .allgather | .broadcast | .partialWrite => ready && flows
    | .alltoall => h.grp.sentUp && h.opened && flows
    | .recv => h.opened && flows && (!h.toSelf || decide (pl.dpos = pl.dcount))
    | .send => if h.toSelf then h.grp.released else ready && flows
    | .rotate => h.grp.size = 1 || (pl.stepNo = h.id.w.steps && flows)
    | .drainSlot => pl.setDone && pc.writesDone pl
    | _ => false

/-- What counts as progress of the data plane for the watchdog: additions, billets committed, results accepted (R309). -/
def Plane.moved (a b : Plane) : Bool :=
  a.cells ≠ b.cells || (a.ins.map fun f => f.applied) ≠ (b.ins.map fun f => f.applied) ||
    (a.segs.map fun g => g.took) ≠ (b.segs.map fun g => g.took)

/-- A heat in the phase `run` goes on. -/
def State.pumpRun (s : State) (c : Nat) (h0 : Heat) : State :=
  let k := h0.id.d.kind
  let s := s.kindStep c k
  let s := ((s.heldLoop c (h0.dp.heldAll + 1)).lastAddition c).settleHeat c
  let s := if k = .rotate then (s.rotateStep c).settleHeat c else s
  let s := s.runStreams c
  let s := ((s.reportIns c).resumeRefused c 8).sendFlows c
  match s.heat c with
  | none => s
  | some h =>
    let s := if h0.dp.moved h.dp then s.rearm c else s
    if h.live && h.isDone then (s.endHeat c .ok).recvOver c else s

/-- A heat goes on as far as it can: a paused one not at all, an ended one with its crash sample. -/
def State.pump (s : State) (c : Nat) : State :=
  match s.heat c with
  | none => s
  | some h =>
    if !h.live then (s.unloadLeft c).crashStep c
    else if h.paused || (h.run.waking && h.run.phase = .run) then s
    else
      let s := s.flushCtl c
      let s := if h.run.phase = .pin then s.pinStep c else s
      let s := match (s.heat c).map fun h => h.run.phase with
        | some .map => (s.runStreams c).mapRead c
        | _ => s
      match s.heat c with
      | some h => if h.run.phase = .run then s.pumpRun c h else s.resumeRefused c 8
      | none => s

/-- Queues whose malformed chains wait for a translation request ask again (R174, R188). -/
def State.askBadAll (s : State) : State :=
  ((s.tab.queues.filter fun e => e.2.bad ≠ []).map Prod.fst).foldl State.askBad s

/-- Every heat goes on; twice, so that heats that serve each other meet; then the recording or the read of a replay, the acknowledgement of invalidations, the
translations of malformed chains, and the scheduler's rounds while no queue is eligible. -/
def State.pumpAll (s : State) : State :=
  let cs := s.heatList.map fun e => e.1
  (State.ackInvs 17 (State.tracePump 257 (cs.foldl State.pump (cs.foldl State.pump s))).replayRead).askBadAll.idleRounds

end Sys2Proof.Machine
end

