-- ==== Sys2Proof/Machine/Power.lean ====
section
/-! DEFINITION. Power domains (R12, R13, R353 to R355) and thermal levels (R356). -/

namespace Sys2Proof.Machine

/-- No Anvil island is powered, and none is waking: a heat that needs one wakes one (R354). -/
def State.anvilOff (s : State) : Bool :=
  anvils.all fun i => !s.isOn i && (islandBits i).all fun k => !bit s.power.waking k

/-- Wake the lowest-numbered gated Anvil island (R354). -/
def State.wakeAnvil (s : State) : State :=
  match anvils.find? fun i => !s.isOn i with
  | some i => s.wake i
  | none => s

/-- An Anvil island is out of service: heats dispatched now are marked (R303). -/
def State.anvilOut (s : State) : Bool := anvils.any s.underReset

/-! ### Gating (R353, R354) -/

/-- A port lets its island be gated (R353): UNUSED or DISABLED, and not waiting, enabled, for the island to align. -/
def State.quietForGate (s : State) (p : Nat) : Bool :=
  let r := (s.port p).reg
  r.st = .unused || (r.st = .disabled && (!r.enable || s.prov.tapOpen))

/-- A heat that needs Anvil has it in use, from its dispatch on, but while it waits for its slot or is paused: a heat waits for a wake only
under R13 (R354), so Anvil is not gated under it. -/
def Heat.usesAnvil (h : Heat) : Bool :=
  h.live && h.id.d.kind.needsAnvil && !h.paused && h.run.phase ≠ .slot && h.run.phase ≠ .queued

/-- An island may be gated now, but for its idle time (R353, R354). -/
def State.mayGate (s : State) (i : Island) : Bool :=
  s.isOn i && !s.underReset i &&
    match i with
    | .anvil n =>
      s.power.autoAnvil && !(s.heatList.any fun e => s.holdsUnit e.2 i || e.2.usesAnvil) &&
        decide (s.power.minAnvil.toNat < (anvils.filter s.isOn).length) &&
        anvils.all fun j => !s.isOn j || decide (islandCode j ≤ 8 + n.val)
    | .hearth _ => s.power.autoHearth && s.hrt.ingots = [] && !s.hrt.resetting && !(hearths.any s.underReset)
    | .link _ | .sibling => (islandPorts i).all s.quietForGate
    | .trace => s.power.autoTrace && !s.trc.active && s.trc.pendWrite = 0 && s.trc.telePend = 0 && s.trc.queue = [] && !s.trc.teleEnable
    | .tongs => s.boot.state = .identOnly
    | _ => false

/-- When the idle time of an island that is gated for it has passed (R353). -/
def State.idleOver (s : State) (i : Island) : Nat :=
  match i with
  | .anvil _ => s.power.anvilIdle + s.power.idleUs.toNat * usPs
  | .hearth _ => s.power.hearthIdle + s.power.idleUs.toNat * usPs
  | _ => 0

/-- Flag words of the lanes of an island's units, 128 lanes a logical unit (R57, R85); what the sampler of Trace holds: the number of the next
sample, and the billets of the last (R226). -/
def State.dropLanes (s : State) (i : Island) : State :=
  match i with
  | .trace => { s with trc := { s.trc with sample := 0, sampled := [] } }
  | .anvil _ => { s with hrt := { s.hrt with flagWords := s.hrt.flagWords.filter fun e => !((s.unitsOf i).elem (e.1 / 128)) } }
  | _ => s

/-- A gated domain loses its contents (R353): the buffers and training of its ports, the flag words of its lanes. -/
def State.loseContents (s : State) (i : Island) : State :=
  ((islandPorts i).foldl (fun s p => s.modPort p fun x =>
    { x with tx := .reset, rx := { PortRx.reset with inbox := x.rx.inbox, slow := x.rx.slow, x32 := x.rx.x32 }
             tr := { PortTrain.reset with allot := x.tr.allot, sig := x.tr.sig } }) s).dropLanes i

/-- Power an island's domains off. -/
def State.gate (s : State) (i : Island) : State :=
  let m := maskOf (domainBits i)
  let s := s.loseContents i
  { s with power := { s.power with on := clearBits s.power.on m, aligned := clearBits s.power.aligned m } }

/-- The supply ramp and initialisation of a waking island end: it is powered, and its alignment begins (R349, R353). A
wake of Hearth is followed by a scrub, which allocation waits for. -/
def State.ramped (s : State) (i : Island) : State :=
  let m := maskOf (domainBits i) &&& s.power.waking
  if m = 0 then s
  else
    let s := { s with power := { s.power with
        on := s.power.on ||| m, aligned := clearBits s.power.aligned m, waking := clearBits s.power.waking m
        wakes := satAdd s.power.wakes (popcount m)
        alignFrom := (domainCodes i).foldl (fun t k => Tbl.set 0 t k s.time.now) s.power.alignFrom } }
    match i with
    | .hearth _ => { s with hrt := { s.hrt with resetting := true } }
    | _ => s

/-! ### Temperature (R356) -/

/-- Readings as the engine uses them: 0 from a gated domain. -/
def State.reading (s : State) (temps : List Byte) : List Byte :=
  (List.range 26).map fun k => if k < 24 && !bit s.power.on k then 0 else temps.getD k 0

/-- Index of the highest reading, the lowest on a tie. -/
def hottestOf (ts : List Byte) : Nat :=
  (List.range ts.length).foldl (fun b k => if (ts.getD b 0).toNat < (ts.getD k 0).toNat then k else b) 0

/-- Enter a thermal level (R356): its bit of PWR_EVENT; every running heat is marked. -/
def State.enterLevel (s : State) (n : BitVec 2) : State :=
  let s := { s with power := { s.power with level := n } }
  if n = 1 then (s.pwrEvent 1).perturbAll else if n = 2 then (s.pwrEvent 2).perturbAll else s

/-- Every sensor stands at or below the threshold of the level less the hysteresis (R356). -/
def PowerSt.cool (p : PowerSt) : Bool :=
  let under (t : Byte) : Bool := p.temps.all fun x => decide (x.toNat + p.hystC.toNat ≤ t.toNat)
  if p.level = 2 then under p.critC else if p.level = 1 then under p.throttleC else false

/-- Note since when the sensors stand so. -/
def State.noteCool (s : State) : State :=
  { s with power := { s.power with
      coolSince := if s.power.cool then some (s.power.coolSince.getD s.time.now) else none } }

/-- Take a sample of the sensors (R356): readings, maxima, the time spent throttled, and a rise of the level. The thresholds
act once boot step 4 has set them. -/
def State.sample (s : State) (temps : List Byte) : State :=
  let ts := s.reading temps
  let k := hottestOf ts
  let s := { s with power := { s.power with
      temps := ts
      maxs := (List.range 26).map fun i => if (s.power.maxs.getD i 0).toNat < (ts.getD i 0).toNat then ts.getD i 0 else s.power.maxs.getD i 0
      hottest := BitVec.ofNat 5 k, hotTemp := ts.getD k 0
      throttleUs := if s.power.level = 0 then s.power.throttleUs else satAdd s.power.throttleUs 10 } }
  let above (t : Byte) : Bool := ts.any fun x => decide (t.toNat ≤ x.toNat)
  if s.power.throttleC = 0 then s
  else if s.power.level ≠ 2 && above s.power.critC then (s.enterLevel 2).noteCool
  else if s.power.level = 0 && above s.power.throttleC then (s.enterLevel 1).noteCool
  else s.noteCool

/-- Sensors have stood at or below a threshold less the hysteresis for 1 ms: the level falls by one, and the next millisecond
counts from there (R356). -/
def State.cooled (s : State) : State :=
  match s.power.coolSince with
  | some t =>
    if s.power.cool then
      let s := s.advanceTo (t + msPs)
      let s := s.enterLevel (s.power.level - 1)
      ({ s with power := { s.power with coolSince := none } }).noteCool
    else s
  | none => s

end Sys2Proof.Machine
end

