-- ==== Sys2Proof/Machine/Links.lean ====
section
/-! DEFINITION. Ports (10): frames and replay (R204, R215, R235 to R238), training and the cabling check (R239 to R247),
lane loss and retrain (R248 to R250), port loss (R251, R252), and the differences of sibling ports (R255). -/

namespace Sys2Proof.Machine

/-- A sibling port (R205). -/
def isSib (p : Nat) : Bool := decide (32 ≤ p)

/-- The time of `n` frames at a width, in ps (R233, R255): 1.48 ns at full width, 1.15625 ns at a sibling port. -/
def frameTimePs (p : Nat) (w : Nat) (n : Nat) : Nat :=
  if isSib p then n * 4625 / (if w = 8 then 4 else 2) else n * 1480 * 8 / max w 1

/-- Frames that the replay buffer holds (R235, R255). -/
def replayRoom (p : Nat) : Nat := if isSib p then 128 else 1024

/-! ### The trailer (R204, R211) -/

/-- The CRC of a frame (R204): its billets, then CREDIT, ACK and FSEQ. -/
def frameCrc (pos : List Billet) (fseq ack : BitVec 12) (credit : BitVec 16) : BitVec 24 :=
  crc24 (pos.flatMap billetBytes ++ natBytes (credit.toNat + 2 ^ 16 * ack.toNat + 2 ^ 28 * fseq.toNat) 5)

/-- A frame is intact (R234, R236). -/
def frameGood (f : Frame) : Bool := !f.fecBad && f.crc = frameCrc f.pos f.fseq f.ack f.credit

/-- An idle frame (R204). -/
def frameIdle (pos : List Billet) : Bool := pos.all fun b => b.kind = kIdle

/-- A CREDIT field (R211). -/
def creditField (pair n : Nat) : BitVec 16 :=
  assemble 16 [((pairVc pair).toNat, 13), (pairCls pair, 8), (n, 0)]

/-- The pair that a CREDIT field names. -/
def creditPair (c : BitVec 16) : Nat := pairOf (field c 13 3) (fieldN c 8 5)

/-! ### Acknowledgements and credits -/

/-- An ACK value acknowledges a frame (R235). -/
def acks (a f : BitVec 12) : Bool := decide ((a - f).toNat < 1024)

/-- Take the ACK of a good frame (R235, R237, R251). -/
def PortTx.ack (t : PortTx) (a : BitVec 12) (now : Nat) : PortTx :=
  let left := t.kept.filter fun k => !acks a k.fseq
  if left.length = t.kept.length then t
  else { t with kept := left, resend := t.resend.filter fun f => left.any fun k => k.fseq = f
                progressAt := now, replayFseq := none }

/-- The round trip, measured by the first acknowledgement of FSEQ 0 (R237). -/
def Port.measure (x : Port) (a : BitVec 12) (now : Nat) : Port :=
  match x.tx.rttFrom with
  | some t0 =>
    if acks a 0 then
      { x with tx := { x.tx with rttFrom := none }
               reg := { x.reg with rtt := BitVec.ofNat 16 (min ((now - t0) / 640) 65535) } }
    else x
  | none => x

/-- Take the CREDIT of a good frame (R211, R238). -/
def PortTx.take (t : PortTx) (c : BitVec 16) : PortTx :=
  let n := fieldN c 0 8
  let k := creditPair c
  if n = 0 then t
  else { t with credit := Tbl.mod 0 t.credit k (· + n), received := Tbl.mod 0 t.received k (· + BitVec.ofNat 16 n) }

/-- The return that the next frame carries (R211): VC0 first, then VC1, then the oldest. -/
def PortRx.nextReturn (r : PortRx) : Option (Nat × Nat) :=
  (r.rets.find? fun e => e.1 = 0).orElse fun _ => (r.rets.find? fun e => e.1 = 1).orElse fun _ => r.rets.head?

/-- Send a return: at most 255 entries of one pair. -/
def Port.sendReturn (x : Port) : Port × BitVec 16 :=
  match x.rx.nextReturn with
  | none => (x, 0)
  | some (k, n) =>
    let m := min n 255
    let rets := if n ≤ 255 then x.rx.rets.filter fun e => e.1 ≠ k
      else x.rx.rets.map fun e => if e.1 = k then (k, n - m) else e
    ({ x with rx := { x.rx with rets := rets }
              tx := { x.tx with returned := Tbl.mod 0 x.tx.returned k (· + BitVec.ofNat 16 m) } }, creditField k m)

/-- Credits of a pair in the trailers of good frames that the port has decoded and whose command has not come: received before a marker group
that follows them (R238). -/
def PortRx.credits (r : PortRx) (k : Nat) : BitVec 16 :=
  BitVec.ofNat 16 ((r.frames.filter fun f => frameGood f && creditPair f.credit = k).map fun f => fieldN f.credit 0 8).sum

/-- Audit one pair (R238). -/
def Port.audit (x : Port) (a : Audit) : Port :=
  if !a.valid then x
  else
    let k := pairOf a.vc (if a.vc = 0 || a.vc = 1 || a.vc = 6 || a.vc = 7 then 0 else a.cls.toNat)
    let d := a.total - Tbl.get 0 x.tx.received k - x.rx.credits k
    if d = 0 then x
    else if d.toNat ≤ 4095 then
      { x with tx := { x.tx with credit := Tbl.mod 0 x.tx.credit k (· + d.toNat)
                                 received := Tbl.mod 0 x.tx.received k (· + d) }
               reg := { x.reg with adjust := satInc x.reg.adjust } }
    else { x with reg := { x.reg with auditErr := satInc x.reg.auditErr } }

/-- The pools of VC0, VC1, VC6 and VC7 (R209). -/
def poolSize (k : Nat) : Nat := if k < 2 then 32 else if k < 4 then 16 else 0

/-- Entries of the receive buffer that billets of a pair may take: its pool, or the allotment in force (R209, R210). -/
def PortRx.pool (r : PortRx) (k : Nat) : Nat := if k < 4 then poolSize k else (Tbl.get 0 r.pools k).toNat

/-! ### Port states -/

/-- Change the registers of a port. -/
def State.modReg (s : State) (p : Nat) (f : PortReg → PortReg) : State := s.modPort p fun x => { x with reg := f x.reg }
/-- Change the training state of a port. -/
def State.modTr (s : State) (p : Nat) (f : PortTrain → PortTrain) : State := s.modPort p fun x => { x with tr := f x.tr }

/-- A port takes a state; QUARANTINE, SWAPPED, ABSENT and LOST set EVENT (R239). -/
def State.portState (s : State) (p : Nat) (st : PState) : State :=
  let ev : Bool := match st with
    | .quarantine | .swapped | .absent | .lost => true
    | _ => false
  s.modReg p fun r => { r with st := st, event := r.event || ev }

/-- Begin an attempt (R240, R241). -/
def State.attempt (s : State) (p : Nat) (single : Bool) : State :=
  let now := s.time.now
  (s.modTr p fun t =>
    { PortTrain.reset with allot := t.allot, sig := t.sig, seen := t.sig ≠ 0, single := single, since := now }).modReg p
    fun r => { r with st := .detect, laneUse := 0, width := 0 }

/-- Begin a new series of attempts. QREASON and OTHER keep their values when a port leaves QUARANTINE or SWAPPED: R244 sets them and
no rule clears them (DESIGN CHOICE, log 81). -/
def State.series (s : State) (p : Nat) : State :=
  (s.attempt p false).modReg p fun r => { r with attempt := 0 }

/-- An attempt fails: the port falls silent for 20 ms (R241). -/
def State.attemptFails (s : State) (p : Nat) : State :=
  let now := s.time.now
  (s.modTr p fun t => { t with gap := true, since := now }).modReg p fun r =>
    { r with st := .detect, laneUse := 0, width := 0
             attempt := if (s.port p).tr.single || r.attempt = 3 then r.attempt else r.attempt + 1 }

/-- The LANE that a PHY lane carries (R230). -/
def PortTrain.laneOf (t : PortTrain) (phy : Nat) : Nat :=
  let n := Tbl.get 0 t.lane phy
  if n = 0 then phy else n - 1

/-- The lanes that are good at this side (R242): signal, lock and decoded markers, by the LANE that each carries. -/
def PortTrain.ok (t : PortTrain) : Byte :=
  (setBits (t.sig &&& t.marked)).foldl (fun m k => putBit m (t.laneOf k) true) 0

/-- The lowest lanes of a set, a power of two of them (R240). -/
def lowLanes (m : Byte) : Byte :=
  let n := popcount m
  let w := if 8 ≤ n then 8 else if 4 ≤ n then 4 else if 2 ≤ n then 2 else n
  BitVec.ofNat 8 (((setBits m).take w).map fun k => 2 ^ k).sum

/-- Go to a training phase. CREDIT announces the allotments that LNK_CREDIT holds when it begins (R210). -/
def State.phase (s : State) (p : Nat) (st : PState) : State :=
  let now := s.time.now
  (s.modTr p fun t => { t with since := now, offer := if st = .credit then t.allot else t.offer }).portState p st

/-- Training as far as the lanes allow: DETECT is done when a lane is good; a sibling port skips ALIGN (R240, R255). -/
def State.detectStep (s : State) (p : Nat) : State :=
  let x := s.port p
  if x.reg.st = .detect && !x.tr.gap then
    if isSib p then
      if x.tr.sig ≠ 0 then
        (s.phase p .ident).modReg p fun r => { r with laneUse := 0xFF, width := if x.rx.x32 then 4 else 8 }
      else s
    else if x.tr.ok ≠ 0 then s.phase p .align else s
  else s

/-- In service again from a training (R240): counters, totals, sequences, replay buffer and wheel start afresh, the allotments announced are
in force (R210), and a sibling port runs at the width that its adapter reports (R255). -/
def State.enterService (s : State) (p : Nat) : State :=
  let now := s.time.now
  let s := s.modPort p fun x =>
    { x with
      tx := { PortTx.reset with queue := x.tx.queue, progressAt := now, slotNow := x.tx.slotNow
                                period := x.tx.period
                                credit := x.tr.partnerAllot.map fun e => (e.1, e.2.toNat) }
      rx := { x.rx with rets := [], e := 0, lastGood := now, stale := x.rx.stale ++ x.rx.buf, buf := [], part := [], frames := []
                        pools := x.tr.offer, ents := x.rx.ents.map fun e => { e with pair := none } }
      reg := { x.reg with rtt := 0, width := if isSib p then (if x.rx.x32 then 4 else 8) else x.reg.width } }
  s.portState p .active

/-! ### Port loss (R251, R252) -/

/-- Free the entries of circuits through a port; a plan remembers those that its heats at this engine need. -/
def State.loseCircuits (s : State) (p : Nat) : State :=
  (s.route.circ.filterMap fun e => match e.2 with
    | some x => if x.via p then some (e.1, x) else none
    | none => none).foldl (fun s e =>
      let s := s.freeCirc e.1
      if e.2.ingress.isNone || e.2.deliver then
        match s.tab.plans.find? fun y => y.2.any fun pl => pl.digest = e.2.digest && (s.part pl.part).key = e.2.key with
        | some (k, some pl) => s.setPlan k (some { pl with
            lost := e.2.req.toNat :: pl.lost, circs := pl.circs.filter fun y => y.2 ≠ e.1 })
        | _ => s
      else s) s

/-- The heats with a circuit through a lost port end with PORT_LOST, each partition with its quench record. -/
def State.loseHeats (s : State) (p : Nat) : State :=
  let hs := s.heatList.filter fun e => e.2.live && s.heatOver p e.2
  let s := ((hs.map fun e => e.2.id.part).eraseDups).foldl (fun s q =>
    s.captureHeats causePortLost q ((hs.filter fun e => e.2.id.part = q).map fun e => (e.1, (s.waitOf e.1 e.2).getD whyNone)) []) s
  hs.foldl (fun s e => s.stopHeat e.1 .portLost) s

/-- A port in service is lost (R252): its kept frames and queued billets are gone, heats with circuits through it end,
those circuits are freed, its credits are zero. -/
def State.portLoss (s : State) (p : Nat) : State :=
  if !(s.port p).reg.st.inService then s
  else
    let s := s.portState p .lost
    let q := (s.port p).tx.queue
    let s := { s with route := { s.route with portdown := satAdd s.route.portdown q.length } }
    let s := s.modPort p fun x =>
      { x with tx := { x.tx with kept := [], resend := [], queue := [], rttFrom := none, replayFseq := none }
               rx := { x.rx with part := [], frames := [] }
               reg := { x.reg with laneUse := 0, width := 0 } }
    let s := s.leftQueue p q
    let s := (s.loseHeats p).loseCircuits p
    s.modPort p fun x => { x with tx := { x.tx with credit := [] } }

/-! ### Lane loss and retrain (R248 to R250) -/

/-- Mark the heats that have a circuit through a degraded port (R250), those among them whose record is still to be written. -/
def State.perturbVia (s : State) (p : Nat) : State :=
  ((s.heatList.filter fun e => s.heatOver p e.2).map fun e => e.1).foldl State.perturb s

/-- Enter RETRAIN (R249). A replay in progress is abandoned (R253). -/
def State.retrain (s : State) (p : Nat) (restore : Bool) : State :=
  let now := s.time.now
  let s := (s.portState p .retrain).modPort p fun x =>
    { x with tr := { x.tr with since := now, sendAgreed := false, partnerAgreed := false, restore := restore, use := 0
                               partnerOk := 0, partnerUse := 0 }
             tx := { x.tx with resend := [] } }
  s.perturbVia p

/-- The lanes that a retrain may use at this side: good ones within the previous LANE_USE, or any when width is restored. -/
def Port.retrainLanes (x : Port) : Byte := if x.tr.restore then x.tr.ok else x.tr.ok &&& x.reg.laneUse

/-- A lane in use fails, or the PHY reports loss (R248, R249). -/
def State.laneFails (s : State) (p : Nat) : State :=
  let x := s.port p
  if x.tr.sig = 0 && x.reg.st.inService then s.portLoss p
  else if x.reg.st = .active then s.retrain p false
  else if x.reg.st = .retrain then
    if x.tr.sendAgreed && x.tr.partnerAgreed then s.retrain p false
    else if x.retrainLanes = 0 then s.portLoss p
    else s
  else s

/-- A sibling port's retrain: it keeps the width that the adapter reports (R255). -/
def State.sibRetrain (s : State) (p : Nat) (agreed : Bool) : State :=
  (s.retrain p false).modTr p fun t =>
    { t with use := if (s.port p).rx.x32 then 0x0F else 0xFF, sendAgreed := agreed, partnerAgreed := agreed }

/-- Frames resume at the first period boundary after both sides agree (R249): every kept frame is resent. A frame that the retrain has cut off
is discarded, as a bad one is (R236). -/
def State.resumeFrames (s : State) (p : Nat) : State :=
  let x := s.port p
  if x.reg.st = .retrain && x.tr.sendAgreed && x.tr.partnerAgreed then
    let s := s.modPort p fun x =>
      { x with reg := { x.reg with laneUse := x.tr.use, width := BitVec.ofNat 4 (popcount x.tr.use)
                                   discard := if x.rx.part = [] then x.reg.discard else satInc x.reg.discard }
               tx := { x.tx with resend := x.tx.kept.map fun k => k.fseq }
               rx := { x.rx with part := [] } }
    let s := s.portState p .active
    if x.tr.use = 0xFF then s else s.perturbVia p
  else s

/-! ### Training words (R242) -/

/-- Fields of a training word. -/
structure TWord where
  phase : Nat
  agreed : Bool
  ready : Bool
  verdict : BitVec 2
  id : BitVec 16
  port : BitVec 6
  ok : Byte
  use : Byte
  chunk : Nat
  allot : List (BitVec 12)
deriving DecidableEq, Repr

/-- The CRC of a training word: over bits [255:24], bit 255 first. -/
def trainCrc (w : BitVec 256) : BitVec 24 := crc24 ((List.range 29).map fun k => byteAt w (31 - k))

/-- Read a training word; `none` where R242 ignores it. -/
def TWord.of (w : BitVec 256) : Option TWord :=
  if field w 224 32 = (0x59585457 : W32) && field w 0 24 = trainCrc w then
    some { phase := fieldN w 220 4, agreed := bit w 219, ready := bit w 218, verdict := field w 216 2, id := field w 200 16,
           port := field w 194 6, ok := field w 184 8, use := field w 176 8, chunk := fieldN w 172 4
           allot := (List.range 12).map fun j => field w (160 - 12 * j) 12 }
  else none

/-- The allotment of a pair that a port announces (R209, R240): the fixed pools of VC0, VC1, VC6 and VC7, and what LNK_CREDIT held at the
start of CREDIT (R210), or holds before it. -/
def Port.allotOf (x : Port) (k : Nat) : BitVec 12 :=
  if k < 4 then BitVec.ofNat 12 (poolSize k) else Tbl.get 0 (if x.reg.st = .credit then x.tr.offer else x.tr.allot) k

/-- The PHASE of the training words that a port sends (R239, R240, R249, R252); 0 where it sends none. -/
def Port.phaseSent (x : Port) : Nat :=
  if x.tr.gap then 0
  else
    match x.reg.st with
    | .detect | .lost => 1
    | .align => 2
    | .ident | .quarantine | .swapped | .adopted => 3
    | .credit => 4
    | .retrain => 6
    | .unused | .active | .absent | .disabled => 0

/-- The training word that a port sends (R242), with allotment chunk `chunk`. -/
def State.trainWordSent (s : State) (p chunk : Nat) : BitVec 256 :=
  let x := s.port p
  let use := if x.reg.st = .retrain then x.tr.use else x.reg.laneUse
  let w : BitVec 256 := assemble 256 ([(0x59585457, 224), (x.phaseSent, 220), (b2n x.tr.sendAgreed, 219), (b2n x.tr.sendReady, 218),
    (x.tr.verdict.toNat, 216), (s.own.toNat, 200), (p, 194), (x.tr.ok.toNat, 184), (use.toNat, 176), (chunk, 172)] ++
    (List.range 12).map fun j => ((x.allotOf (12 * chunk + j)).toNat, 160 - 12 * j))
  w ||| (trainCrc w).setWidth 256

/-! ### The cabling check (R243 to R247) -/

/-- PEER_ID and PEER_PORT of a cabling entry. -/
def planPeer (e : W32) : BitVec 16 × BitVec 6 := (field e 6 16, field e 0 6)

/-- The verdict on a partner (R244): 0 for MATCH, or the quarantine reason and OTHER. -/
def State.verdictOf (s : State) (p : Nat) (x : BitVec 16) (y : BitVec 6) : Nat × Nat :=
  if planPeer (s.port p).reg.plan = (x, y) then (0, 0)
  else if x = s.own then (3, 0)
  else
    match (List.range 40).find? fun q => q ≠ p && bit (s.port q).reg.plan 31 && planPeer (s.port q).reg.plan = (x, y) with
    | some q => (2, q)
    | none => (1, 0)

/-- A port's check fails (R244, R245). -/
def State.quarantine (s : State) (p : Nat) (reason other : Nat) : State :=
  let s := (s.modTr p fun t => { t with verdict := 2 }).modReg p fun r =>
    { r with qreason := BitVec.ofNat 4 reason, other := if reason = 2 then BitVec.ofNat 6 other else 0 }
  let q := (s.port other).reg
  if reason = 2 && q.st = .quarantine && q.qreason = 2 && q.other.toNat = p then
    (s.portState p .swapped).portState other .swapped
  else s.portState p .quarantine

/-- A partner's word in IDENT or ADOPTED (R244, R247). -/
def State.identWord (s : State) (p : Nat) (w : TWord) : State :=
  let s := s.modReg p fun r => { r with peerValid := true, peerId := w.id, peerPort := w.port }
  let v := s.verdictOf p w.id w.port
  if (s.port p).reg.st = .adopted then
    let own : BitVec 2 := if v.1 = 0 then 1 else 2
    let s := s.modTr p fun t => { t with verdict := own, partnerVerdict := w.verdict }
    if own = 1 && w.verdict = 1 && (s.port p).tr.swapDone then s.phase p .credit else s
  else if v.1 ≠ 0 then s.quarantine p v.1 v.2
  else if w.verdict = 2 then s.quarantine p 4 0
  else
    let s := s.modTr p fun t => { t with verdict := 1, partnerVerdict := w.verdict }
    if w.verdict = 1 then s.phase p .credit else s

/-- A partner's word in CREDIT (R240): its allotments, 12 pairs a chunk. This side has sent its own 11 chunks when it has
all of the partner's (log 13). -/
def State.creditWord (s : State) (p : Nat) (w : TWord) : State :=
  if w.phase = 4 then
    s.modTr p fun t =>
      let t := if w.chunk ≤ 10 then
          { t with chunks := putBit t.chunks w.chunk true
                   partnerAllot := (List.range 12).foldl (fun a j =>
                     Tbl.set 0 a (12 * w.chunk + j) (w.allot.getD j 0)) t.partnerAllot }
        else t
      { t with sendReady := t.chunks = 0x7FF, partnerReady := w.ready }
  else s

/-- A partner's word in ALIGN (R240). -/
def State.alignWord (s : State) (p : Nat) (w : TWord) : State :=
  let x := s.port p
  let set := lowLanes (x.tr.ok &&& w.ok)
  let agreed := set ≠ 0 && w.use = set
  let s := s.modPort p fun x =>
    { x with tr := { x.tr with partnerOk := w.ok, partnerUse := w.use, sendAgreed := agreed, partnerAgreed := w.agreed }
             reg := { x.reg with laneUse := set, width := BitVec.ofNat 4 (popcount set) } }
  if agreed && w.agreed then s.phase p .ident else s

/-- A partner's word of phase 6 (R248, R249): a partner whose LANE_USE goes beyond the previous set restores width. -/
def State.retrainWord (s : State) (p : Nat) (w : TWord) : State :=
  let s := if (s.port p).reg.st = .active then (if isSib p then s.sibRetrain p false else s.retrain p false) else s
  if (s.port p).reg.st ≠ .retrain then s
  else if isSib p then s.modTr p fun t => { t with partnerAgreed := w.agreed }
  else
    let s := s.modTr p fun t =>
      { t with restore := t.restore || clearBits w.use (s.port p).reg.laneUse ≠ 0, partnerOk := w.ok, partnerUse := w.use }
    let x := s.port p
    let set := lowLanes (x.retrainLanes &&& w.ok)
    if set = 0 then s.portLoss p
    else s.modTr p fun t => { t with use := set, sendAgreed := w.use = set, partnerAgreed := w.agreed }

/-- A received training word (R242). -/
def State.trainWord (s : State) (p : Nat) (w : TWord) : State :=
  let x := s.port p
  if x.reg.st.inService && 1 ≤ w.phase && w.phase ≤ 4 then s.portLoss p
  else if w.phase = 6 then s.retrainWord p w
  else if x.tr.gap then s
  else
    match x.reg.st with
    | .align => s.alignWord p w
    | .ident | .adopted => s.identWord p w
    | .credit => s.creditWord p w
    | _ => s

/-! ### Lanes and the PHY (R240, R241, R248) -/

/-- The signal of a port's lanes has changed in a state outside service. -/
def State.lostSignal (s : State) (p : Nat) : State :=
  let x := s.port p
  if x.tr.sig ≠ 0 then s
  else
    match x.reg.st with
    | .quarantine | .swapped | .adopted => s.series p
    | .detect | .align | .ident | .credit => if x.tr.seen && !x.tr.gap then s.attemptFails p else s
    | _ => s

/-- A lane is in use: in LANE_USE, or, once both sides of a retrain have agreed on a set, in that, which a lane that has failed has left (R248,
R249). -/
def Port.uses (x : Port) (l : Nat) : Bool :=
  bit (if x.reg.st = .retrain && x.tr.sendAgreed && x.tr.partnerAgreed then x.tr.use else x.reg.laneUse) l

/-- The PHY reports signal and lock on a lane, or their loss. -/
def State.laneSignal (s : State) (p : Nat) (phy : Nat) (ok : Bool) : State :=
  let used := (s.port p).uses ((s.port p).tr.laneOf phy)
  let s := s.modTr p fun t =>
    { t with sig := putBit t.sig phy ok, marked := if ok then t.marked else putBit t.marked phy false
             misses := Tbl.set 0 t.misses phy 0, badRun := Tbl.set 0 t.badRun phy 0, seen := t.seen || ok }
  let x := s.port p
  if x.reg.st.inService then (if ok || (!used && x.tr.sig ≠ 0) then s else s.laneFails p)
  else (s.lostSignal p).detectStep p

/-- Uncorrectable codewords in a row after a period, and whether there have been 8 (R248). -/
def badRuns (n : Nat) (bad : List Bool) : Nat × Bool :=
  bad.foldl (fun a b => let k := if b then a.1 + 1 else 0; (k, a.2 || decide (8 ≤ k))) (n, false)

/-- What a boundary shows of a lane (R232, R234, R248): whether the lane has failed. -/
def Port.marker (x : Port) (m : Marker) : Port × Bool :=
  let miss := if m.found then 0 else Tbl.get 0 x.tr.misses m.phy + 1
  let run := badRuns (Tbl.get 0 x.tr.badRun m.phy) m.bad
  let fails := x.uses m.lane && (run.2 || decide (2 ≤ miss))
  ({ x with
     reg := { x.reg with corr := satAdd x.reg.corr m.corr, uncorr := satAdd x.reg.uncorr (m.bad.filter id).length }
     tr := { x.tr with misses := Tbl.set 0 x.tr.misses m.phy miss
                       badRun := Tbl.set 0 x.tr.badRun m.phy run.1
                       lane := if m.found then Tbl.set 0 x.tr.lane m.phy (m.lane + 1) else x.tr.lane
                       marked := if fails then putBit x.tr.marked m.phy false
                         else if m.found then putBit x.tr.marked m.phy true else x.tr.marked } }, fails)

/-- The lanes that carry the marker groups of a port: in training, and while a retrain restores width, every lane (R240, R250); in service
those in use; one beat at a sibling port (R255). A port that sends nothing has none. -/
def Port.groupLanes (x : Port) (p : Nat) : List Nat :=
  if !(x.reg.st.inService || x.phaseSent ≠ 0) then []
  else if isSib p then [0]
  else if !x.reg.st.inService || (x.reg.st = .retrain && x.tr.restore) then List.range 8
  else setBits x.reg.laneUse

/-- The audit entry of a pair (R232, R238): entries that this side has returned. In training there is nothing to audit: VALID is 0 (log 13). -/
def Port.auditOf (x : Port) (k : Nat) : Audit :=
  { vc := pairVc k, cls := BitVec.ofNat 5 (pairCls k), valid := x.reg.st.inService
    total := if x.reg.st.inService then Tbl.get 0 x.tx.returned k else 0 }

/-- The marker groups that a port sends at its next boundary, in training and in service (R232, R240), in ascending lane number: 32 pairs on
each lane, on from where the last boundary stopped. -/
def Port.groupsSent (x : Port) (p : Nat) : List (List (BitVec 256)) :=
  (x.groupLanes p).zipIdx.map fun l =>
    markerGroup l.1 (if isSib p then 0xFF else x.reg.laneUse) x.tx.period
      ((List.range 32).map fun k => x.auditOf ((x.tx.auditNext + 32 * l.2 + k) % 132))

/-- The PMA words that a link port sends in the period after a boundary, by lane in use: its marker groups, and the words of
the port stream striped over the lanes (R231, R233). -/
def Port.periodSent (x : Port) (p : Nat) (stream : List (BitVec 256)) : List (List (BitVec 256)) :=
  (x.groupsSent p).zipIdx.map fun g => periodWords g.1 (laneWords (x.groupLanes p).length g.2 stream)

/-- The PMA words of a period in which a link port trains, by lane: its marker group, and its training word in every data-word position (R231,
R240, R249). -/
def State.trainingSent (s : State) (p chunk : Nat) : List (List (BitVec 256)) :=
  ((s.port p).groupsSent p).map fun g => periodWords g (List.replicate 1280 (s.trainWordSent p chunk))

/-- The beat that a sibling port inserts once every 2,048 beats (R255): its marker group in words 0 to 4, and 0 in words 5 to 7. -/
def Port.beatSent (x : Port) (p : Nat) : BitVec 2048 :=
  assemble 2048 ((((x.groupsSent p).headD []).take 5).zipIdx.map fun w => (w.1.toNat, 256 * w.2))

/-- An alignment-period boundary (R238, R240, R248, R249). -/
def State.boundary (s : State) (p : Nat) (ms : List Marker) : State :=
  let r := ms.foldl (fun (a : Port × Bool) m => let y := a.1.marker m; (y.1, a.2 || y.2)) (s.port p, false)
  let x := r.1
  let x := if x.reg.st.inService then
      (ms.filter fun m => m.found).foldl (fun (x : Port) m => m.audits.foldl Port.audit x) x
    else x
  let x := { x with tx := { x.tx with
    period := x.tx.period + 1
    auditNext := if x.reg.st.inService then (x.tx.auditNext + 32 * (x.groupLanes p).length) % 132 else x.tx.auditNext } }
  let s := s.setPort p x
  let s := if x.reg.st.inService && r.2 && !isSib p then s.laneFails p else s
  let s := s.detectStep p
  let x := s.port p
  if x.reg.st = .credit && x.tr.sendReady && x.tr.partnerReady then s.enterService p
  else s.resumeFrames p

/-- The lanes of a period as a port decodes them: each with its skew. -/
def Port.decode (x : Port) (ls : List LanePeriod) : List (Decoded × Marker × Nat) :=
  ls.map fun l =>
    let d := decodePeriod l.words
    (d, d.marker l.phy.toNat (x.tr.laneOf l.phy.toNat), l.skew)

/-- The data words of the lane of number `l`: a lane that is not there, or beyond the skew that the receiver tolerates, gives none
that are good (R233). -/
def laneData (ds : List (Decoded × Marker × Nat)) (l : Nat) : List (BitVec 256 × Bool) :=
  match ds.find? fun d => d.2.1.lane = l with
  | some d => if d.2.2 ≤ skewPs then d.1.words.drop 5 else []
  | none => []

/-- A port in ACTIVE takes the port stream of a period (R233). -/
def Port.takeStream (x : Port) (ds : List (Decoded × Marker × Nat)) : Port :=
  if x.reg.st = .active && !ds.isEmpty then
    let bs := x.rx.part ++ streamBytes (interleave ((setBits x.reg.laneUse).map (laneData ds)))
    let r := cutFrames (bs.length / 296) bs
    { x with rx := { x.rx with part := r.2, frames := x.rx.frames ++ r.1 } }
  else x

/-- What a port receives with a period boundary (R231, R255). -/
def State.period (s : State) (p : Nat) (r : PeriodIn) : State :=
  match r with
  | .lanes ls =>
    let ds := (s.port p).decode ls
    (s.boundary p (ds.map fun d => d.2.1)).modPort p fun x => x.takeStream ds
  | .beat b => s.boundary p (readGroup 0 ((List.range 5).map fun k => field b (256 * k) 256)).toList

/-! ### LNK_CTL (R239, R241, R250, R256) -/

/-- Disable a port (R239): in service, with the port loss actions first. -/
def State.disablePort (s : State) (p : Nat) : State :=
  let s := s.portLoss p
  if (s.port p).reg.st = .unused then s
  else
    (s.modTr p fun t => { PortTrain.reset with allot := t.allot, sig := t.sig }).modReg p fun r =>
      { r with st := .disabled, laneUse := 0, width := 0 }

/-- The island of a port. -/
def portIsland (p : Nat) : Island := if h : p / 4 < 8 then .link ⟨p / 4, h⟩ else .sibling

/-- ENABLE written 1, with PROBE and RESTORE (R239, R241, R250): the write to a port of a gated island, DISABLED or UNUSED, is answered, and
a DISABLED port starts, when the island that the write wakes is ALIGNED (R353, R354, R373, R387). -/
def State.portOn (s : State) (p : Nat) (v : W32) : State :=
  let s := s.modReg p fun r => { r with enable := true }
  let x := s.port p
  match x.reg.st with
  | .disabled =>
    if s.isReady (portIsland p) then (s.series p).answer rspOkay 0
    else ({ s with ctl := { s.ctl with ymbWait := some (.link p v) } }).wake (portIsland p)
  | .unused =>
    if s.isOn (portIsland p) then s.answer rspOkay 0
    else ({ s with ctl := { s.ctl with ymbWait := some (.link p v) } }).wake (portIsland p)
  | .absent => (if bit v 1 then s.attempt p true else s).answer rspOkay 0
  | .active =>
    (if bit v 2 && x.reg.width.toNat < 8 then (if isSib p then s.sibRetrain p false else s.retrain p true) else s).answer rspOkay 0
  | _ => s.answer rspOkay 0

/-- A write of LNK_CTL (R256). -/
def State.lnkCtl (s : State) (p : Nat) (v : W32) : State :=
  if fieldN v 16 16 = 0 then s.answer rspError 0
  else
    let s := s.modReg p fun r => { r with reprobeMs := field v 16 16 }
    if bit v 0 then s.portOn p v
    else ((s.disablePort p).modReg p fun r => { r with enable := false }).answer rspOkay 0

/-! ### Frames (R215, R235 to R237) -/

/-- A billet may leave: it holds a credit. -/
def State.hasCredit (s : State) (x : Port) (b : Billet) : Bool := decide (0 < Tbl.get 0 x.tx.credit (s.pairOfBillet b))

/-- The oldest queued billet of a VC, and class where given, that holds a credit. -/
def State.oldest (s : State) (x : Port) (vc : BitVec 3) (cls : Option Nat) : Option Billet :=
  x.tx.queue.find? fun b => b.vc = vc && (match cls with
    | some c => s.classOf b.key = c
    | none => true) && s.hasCredit x b

/-- The next billet of routed traffic (R215, step 3). -/
def State.nextRouted (s : State) (x : Port) : Option Billet :=
  (s.oldest x 0 none).orElse fun _ => (s.oldest x 1 none).orElse fun _ => (s.oldest x 6 none).orElse fun _ =>
    ((List.range 32).findSome? fun k =>
      let c := (x.tx.rrClass.toNat + k) % 32
      (s.oldest x 3 (some c)).orElse fun _ => s.oldest x 2 (some c)).orElse fun _ => s.oldest x 7 none

/-- The next billet of the circuit that owns the slot (R215, step 2): circuit `i`. -/
def State.nextCircuit (s : State) (x : Port) (i : Nat) : Option Billet :=
  x.tx.queue.find? fun b => (b.vc = 4 || b.vc = 5) && b.dest.toNat = i && s.hasCredit x b

/-- Take a billet for transmission: its credit is spent. -/
def State.spend (s : State) (x : Port) (b : Billet) : Port :=
  { x with tx := { x.tx with queue := x.tx.queue.erase b, credit := Tbl.mod 0 x.tx.credit (s.pairOfBillet b) (· - 1)
                             rrClass := if b.vc = 2 || b.vc = 3 then BitVec.ofNat 5 (s.classOf b.key + 1) else x.tx.rrClass } }

/-- Choose the billet of one position: billets whose key does not pass are dropped and counted (R213). -/
def State.choose (s : State) (p : Nat) (own : Option Nat) : Nat → Port → Port × Option Billet
  | 0, x => (x, none)
  | fuel + 1, x =>
    match (own.bind fun i => s.nextCircuit x i).orElse fun _ => s.nextRouted x with
    | none => (x, none)
    | some b =>
      if s.keyPasses p b.key then (s.spend x b, some b)
      else State.choose s p own fuel
        { x with tx := { x.tx with queue := x.tx.queue.erase b }, reg := { x.reg with keyOut := satInc x.reg.keyOut } }

/-- Fill the four positions of a frame in slot `slot` (R215). -/
def State.fillFrame (s : State) (p : Nat) (x : Port) (slot : Nat) : Port × List Billet :=
  let n := x.tx.queue.length + 1
  let owner := Tbl.get 0 x.tx.wheel slot
  let own : Option Nat := if owner = 0 then none else some (owner - 1)
  let a := s.choose p none n x
  let b := s.choose p own n a.1
  let c := s.choose p own n b.1
  let d := s.choose p own n c.1
  (d.1, [a.2, b.2, c.2, d.2].map fun o => o.getD idleBillet)

/-- Send a frame with these positions under `fseq`: the trailer is built afresh (R237). -/
def Port.emit (x : Port) (pos : List Billet) (fseq : BitVec 12) : Port :=
  let r := x.sendReturn
  let ack := r.1.rx.e - 1
  let f : Frame := { pos := pos, fseq := fseq, ack := ack, credit := r.2, crc := frameCrc pos fseq ack r.2, fecBad := false }
  { r.1 with tx := { r.1.tx with last := some f, slotNow := r.1.tx.slotNow + 1 }
             te := { r.1.te with frames := r.1.te.frames + 1
                                 sent := r.1.te.sent + (pos.filter fun b => b.kind ≠ kIdle).length } }

/-- A frame time in which a queued billet lacks a credit counts as a stall (R226). -/
def State.countStall (s : State) (x : Port) : Port :=
  if x.tx.queue.any fun b => !s.hasCredit x b then { x with te := { x.te with stall := x.te.stall + 1 } } else x

/-- What follows from the sending of a frame: billets of selected VCs are seen by a drain (R222); heats whose billets a degraded port
sends are marked (R250). -/
def State.sentFrame (s : State) (p : Nat) (pos : List Billet) : State :=
  let s := (pos.filter fun b => b.kind ≠ kIdle).foldl (fun s b => s.touchHold p b.vc) s
  if (s.port p).degraded then
    ((s.heatList.filter fun e => pos.any (s.sentBy e.1 e.2)).map fun e => e.1).foldl State.perturb s
  else s

/-- The machine time at which a TIME billet of this engine is sent goes into it (R267): t1 of a REQ, t3 of a RESP. -/
def State.stamp (s : State) (b : Billet) : Billet :=
  if s.time.unsent.elem b then
    let k := if fieldN b.seq 0 3 = 0 then 0 else 16
    { b with data := BitVec.ofNat 512 (b.data.toNat - pAt b.data k 8 * 256 ^ k + s.machineTime.toNat * 256 ^ k) }
  else b

/-- The TIME billets among those sent are stamped; the t1 of an open exchange is that of its REQ. -/
def State.stamped (s : State) (bs : List Billet) : State :=
  let mine := bs.filter s.time.unsent.elem
  let req := mine.any fun b => fieldN b.seq 0 3 = 0
  { s with time := { s.time with
      unsent := s.time.unsent.filter fun b => !mine.elem b
      exch := if req && s.time.exch.isSome then some s.machineTime else s.time.exch } }

/-- A port sends a new frame, or an idle one, in its slot (R215, R235). -/
def State.sendNew (s : State) (p : Nat) (x : Port) : State :=
  let now := s.time.now
  let r := s.fillFrame p x x.tx.slotNow.toNat
  let gone := r.1.tx.queue.foldl List.erase x.tx.queue
  let y := s.countStall r.1
  if frameIdle r.2 then
    (s.setPort p (y.emit r.2 ((y.tx.last.map fun f => f.fseq).getD (y.tx.nextSeq - 1)))).leftQueue p gone
  else
    let pos := r.2.map s.stamp
    let f := y.tx.nextSeq
    let z : Port := { y with tx := { y.tx with
           kept := y.tx.kept ++ [{ fseq := f, pos := pos, sentAt := now }], nextSeq := f + 1
           progressAt := if y.tx.kept = [] then now else y.tx.progressAt
           rttFrom := if f = 0 && y.tx.rttFrom.isNone && y.reg.rtt = 0 then some now else y.tx.rttFrom } }
    (((s.setPort p (z.emit pos f)).stamped r.2).leftQueue p gone).sentFrame p pos

/-- A frame time of a port (R214): in ACTIVE the next frame is sent (R215, R235, R237); the wheel stops in RETRAIN only (R250). -/
def State.sendFrame (s : State) (p : Nat) : State :=
  let x := s.port p
  let now := s.time.now
  if x.reg.st = .retrain then s
  else if x.reg.st ≠ .active then s.setPort p { x with tx := { x.tx with slotNow := x.tx.slotNow + 1 } }
  else
    match x.tx.resend with
    | f :: rest =>
      match x.tx.kept.find? fun k => k.fseq = f with
      | some k =>
        (s.setPort p
          ({ s.countStall x with
             tx := { x.tx with resend := rest, kept := x.tx.kept.map fun (y : Kept) => if y.fseq = f then { y with sentAt := now } else y }
             te := { (s.countStall x).te with replays := x.te.replays + 1 } }.emit k.pos f)).sentFrame p k.pos
      | none => s.setPort p { x with tx := { x.tx with resend := rest } }
    | [] =>
      if replayRoom p ≤ x.tx.kept.length then
        s.setPort p ((s.countStall x).emit (List.replicate 4 idleBillet) ((x.tx.last.map fun f => f.fseq).getD (x.tx.nextSeq - 1)))
      else s.sendNew p x

/-- A billet is of a VC that a swap concerns (R224). -/
def swapVc (vc : BitVec 3) : Bool := vc ≠ 4 && vc ≠ 5

/-- There is room for a billet in the receive buffer of 4,096 entries, and in the part of it that its pair has (R209), as there is for every
billet sent on a credit. -/
def State.hasRoom (s : State) (x : Port) (b : Billet) : Bool :=
  let k := s.pairOfBillet b
  decide (x.rx.occupied < 4096 ∧
    (x.rx.buf.filter fun y => s.pairOfBillet y = k).length + (x.rx.ents.filter fun e => e.pair = some k).length < x.rx.pool k)

/-- A billet of a good frame is received (R209, R224, R236). One sent without a credit, for which there is no entry, is lost
(log 60). -/
def State.receive (s : State) (p : Nat) (b : Billet) : State :=
  if b.kind = kIdle then s
  else
    let s := s.touchHold p b.vc
    if s.route.forceUntil.isSome && swapVc b.vc then s.dropSwap.owe p b
    else if s.hasRoom (s.port p) b then
      let s := if b.kind = kTime && b.dest = s.own then
          { s with time := { s.time with stamps := s.time.stamps ++ [(b, s.machineTime)] } } else s
      s.modPort p fun x =>
        let r := { x.rx with buf := x.rx.buf ++ [b] }
        { x with rx := r, te := { x.te with rxMax := max x.te.rxMax r.occupied } }
    else s

/-- A frame is received by a port in service (R236, R239); on a sibling port a bad one is port loss (R255). -/
def State.takeFrame (s : State) (p : Nat) (f : Frame) : State :=
  if !(s.port p).reg.st.inService then s
  else if !frameGood f then
    let s := s.modReg p fun r => { r with discard := satInc r.discard }
    if isSib p then s.portLoss p else s
  else
    let now := s.time.now
    let s := s.modPort p fun x =>
      let x := x.measure f.ack now
      { x with tx := (x.tx.ack f.ack now).take f.credit, rx := { x.rx with lastGood := now } }
    if frameIdle f.pos then s
    else if f.fseq = (s.port p).rx.e then
      let s := s.modPort p fun x => { x with rx := { x.rx with e := x.rx.e + 1 } }
      f.pos.foldl (fun s b => s.receive p b) s
    else s.modReg p fun r => { r with discard := satInc r.discard }

/-- FRAME_RECEIVE's frame: one given whole, or the next that the port has decoded. -/
def State.frameIn (s : State) (p : Nat) (f : Option Frame) : State :=
  match f with
  | some f => s.takeFrame p f
  | none =>
    match (s.port p).rx.frames with
    | f :: rest => (s.modPort p fun x => { x with rx := { x.rx with frames := rest } }).takeFrame p f
    | [] => s

/-- REPLAY_WAIT, in ps (R237). -/
def Port.replayWait (x : Port) (p : Nat) : Nat :=
  if x.reg.rtt = 0 then 2 * usPs else x.reg.rtt.toNat * 640 + frameTimePs p x.reg.width.toNat 32

/-- REPLAY_WAIT expires for the oldest kept frame: every kept frame is resent, and heats with circuits through the port are marked
(R279); 64 replays from one FSEQ lose the port (R237, R251). -/
def State.replay (s : State) (p : Nat) : State :=
  let x := s.port p
  match x.tx.kept with
  | [] => s
  | k :: _ =>
    if x.reg.st ≠ .active then s
    else
      let s := s.advanceTo (k.sentAt + x.replayWait p)
      let n := match x.tx.replayFseq with
        | some (f, n) => if f = k.fseq then n + 1 else 1
        | none => 1
      let s := s.modPort p fun x =>
        { x with reg := { x.reg with replays := satInc x.reg.replays }
                 tx := { x.tx with resend := x.tx.kept.map fun y => y.fseq, replayFseq := some (k.fseq, n) } }
      let s := s.perturbVia p
      if 64 ≤ n then s.portLoss p else s

/-! ### Training timers (R240, R241) -/

/-- Limit of a training phase, in ms (R240). -/
def phaseMs : PState → Option Nat
  | .detect => some 100
  | .align => some 40
  | .ident => some 20
  | .credit => some 20
  | _ => none

/-- A training phase times out. -/
def State.phaseTimeout (s : State) (p : Nat) : State :=
  let x := s.port p
  match phaseMs x.reg.st with
  | some ms => if x.tr.gap then s else (s.advanceTo (x.tr.since + ms * msPs)).attemptFails p
  | none => s

/-- The silent gap ends: the next attempt, or ABSENT after the third failure or a failed re-probe. R241 gives no moment for the
entry into ABSENT. It is the end of the gap of 20 ms, in which STATE reads DETECT (DESIGN CHOICE, log 81). -/
def State.gapEnd (s : State) (p : Nat) : State :=
  let x := s.port p
  if x.tr.gap && x.reg.st = .detect then
    let s := s.advanceTo (x.tr.since + 20 * msPs)
    if x.tr.single || x.reg.attempt = 3 then
      let now := s.time.now
      (s.modTr p fun t => { t with gap := false, since := now }).portState p .absent
    else s.attempt p false
  else s

/-! ### Sibling adapters (R372) -/

/-- The adapter reports a width of x32, or the full width again (R255, R372): a fast retrain. -/
def State.sibWidth (s : State) (p : Nat) (x32 : Bool) : State :=
  let s0 := s.modPort p fun x => { x with rx := { x.rx with x32 := x32 } }
  if (s.port p).rx.x32 ≠ x32 && (s.port p).reg.st.inService then s0.sibRetrain p true else s0

/-- The FDI of a sibling port changes its state. -/
def State.fdi (s : State) (p : Nat) (st : FdiState) : State :=
  match st with
  | .active =>
    let s := s.modTr p fun t => { t with sig := 0xFF, marked := 0xFF, seen := true }
    if (s.port p).reg.st = .retrain then s.modTr p fun t => { t with sendAgreed := true, partnerAgreed := true }
    else s.detectStep p
  | .retrain => if (s.port p).reg.st = .active then s.sibRetrain p false else s
  | _ =>
    let s := s.modTr p fun t => { t with sig := 0, marked := 0 }
    if (s.port p).reg.st.inService then s.portLoss p else s.lostSignal p

end Sys2Proof.Machine
end

