-- ==== Sys2Proof/Machine/Routing.lean ====
section
/-! DEFINITION. Billets at ingress and their delivery (R200, R206, R213, R216, R306), circuit setup on the path (R217),
DRAIN_VC (R222), route swaps (R223, R224) and CABLE_ADOPT (R246). -/

namespace Sys2Proof.Machine

/-! ### Ingress (R206, R213, R216) -/

/-- A billet is taken from the receive buffer of a port: its entry stays occupied while a copy of it waits, and returns its credit
then (R209). A billet that is not there has come without a frame; one of an earlier service returns no credit (R252). -/
def State.unbuffer (s : State) (p : Nat) (b : Billet) : State :=
  let r := (s.port p).rx
  if r.stale.elem b then
    s.modPort p fun x => { x with rx := { x.rx with stale := x.rx.stale.erase b, ents := x.rx.ents ++ [{ pair := none, outs := [] }] } }
  else if r.buf.elem b then
    let k := s.pairOfBillet b
    (s.modPort p fun x =>
      { x with rx := { x.rx with buf := x.rx.buf.erase b, ents := x.rx.ents ++ [{ pair := some k, outs := [] }] } }).touchHold p b.vc
  else s.modPort p fun x => { x with rx := { x.rx with ents := x.rx.ents ++ [{ pair := none, outs := [] }] } }

/-- The billet that came in last at a port has been dealt with: where no copy of it waits, its entry is free. -/
def State.entered (s : State) (p : Nat) : State :=
  s.modPort p fun x => match x.rx.ents.getLast? with
    | some e => if e.outs = [] then { x with rx := x.rx.close e } else x
    | none => x

/-- The billet that came in last at a port goes on through port `q`. -/
def State.passOn (s : State) (p q : Nat) (b : Billet) : State :=
  (s.queueOut q b).modPort p fun x => { x with rx := x.rx.note (some q, b) }

/-- A billet is delivered at a port to this engine: it waits for the command of its kind, and the port notes whether it was degraded (R250). -/
def State.deliver (s : State) (p : Nat) (b : Billet) : State :=
  s.modPort p fun x => { x with rx := { (x.rx.note (none, b)) with
    inbox := x.rx.inbox ++ [b], slow := if x.degraded then x.rx.slow ++ [b] else x.rx.slow } }

/-- A billet leaves the inbox. What was noted of it stays until its heat has been marked. -/
def PortRx.taken (r : PortRx) (b : Billet) : PortRx :=
  let inbox := r.inbox.erase b
  { r with inbox := inbox, slow := r.slow.filter fun x => x = b || inbox.elem x }

/-- Take a delivered billet: the command of its kind has come. It was buffered at the port until now (R222). -/
def State.undeliver (s : State) (p : Nat) (b : Billet) : State :=
  if (s.port p).rx.inbox.elem b then
    (s.modPort p fun x => { x with rx := (x.rx.left (none, b)).taken b }).touchHold p b.vc
  else s

/-- A delivered billet goes on from this engine through port `q`, as `b'` (R217): it keeps its entry. -/
def State.sendOn (s : State) (p q : Nat) (b b' : Billet) : State :=
  (s.queueOut q b').modPort p fun x =>
    if x.rx.inbox.elem b then { x with rx := (x.rx.move (none, b) (some q, b')).taken b } else x

/-- The kind may travel on the VC (R200). -/
def kindOnVc (b : Billet) : Bool :=
  if b.kind = kData || b.kind = kMask then b.vc = 2 || b.vc = 3 || b.vc = 4 || b.vc = 5
  else if b.kind = kReady then b.vc = (if bit b.seq 0 then 1 else 0)
  else if b.kind = kCommit || b.kind = kHold || b.kind = kResume || b.kind = kCounts then b.vc = 1
  else if b.kind = kBeacon || b.kind = kBarrier || b.kind = kTime then b.vc = 0
  else if b.kind = kCircuit then b.vc = (if fieldN b.seq 0 3 = 0 || fieldN b.seq 0 3 = 3 then 0 else 1)
  else if b.kind = kTelemetry then b.vc = 7
  else if b.kind = kMgmt then b.vc = 6
  else false

/-- A billet of a circuit (R216). -/
def onCircuit (b : Billet) : Bool := b.vc = 4 || b.vc = 5

/-- The key check at ingress (R213): `none` where the billet is dropped. -/
def State.keyIngress (s : State) (p : Nat) (b : Billet) : State × Bool :=
  if s.keyPasses p b.key then (s, true)
  else (s.modReg p fun r => { r with keyIn := satInc r.keyIn }, false)

/-- SETUP and RELEASE act at every engine of their path (R217). -/
def circuitHop (b : Billet) : Bool := b.kind = kCircuit && (fieldN b.seq 0 3 = 0 || fieldN b.seq 0 3 = 3)

/-- A billet that is at its destination here: slag is dropped and counted (R306); a TELEMETRY billet has no use here. -/
def State.arrive (s : State) (p : Nat) (b : Billet) : State :=
  if b.key ≠ 0 && s.isSlag b then s.slagBillet
  else if b.kind = kTelemetry then s
  else s.deliver p b

/-- Route a billet at ingress (R206). -/
def State.route1 (s : State) (p : Nat) (b : Billet) : State :=
  if circuitHop b then s.deliver p b
  else
    match s.lookup b.dest with
    | .here => s.arrive p b
    | .noroute => s.dropNoroute
    | .portdown => s.dropPortdown
    | .out q dl nr => s.passOn p q { b with vc := nextVc b.vc dl nr }

/-- The entry of a circuit billet (R216). -/
def State.circEntry (s : State) (p : Nat) (b : Billet) : Option (Nat × Circ) :=
  s.route.circ.findSome? fun e => match e.2 with
    | some x => if x.ingress.any (fun i => i.val = p) && x.upLabel = b.dest.setWidth 10 then some (e.1, x) else none
    | none => none

/-- Forward and deliver a circuit billet (R216, R218). -/
def State.circuitBillet (s : State) (p : Nat) (b : Billet) : State :=
  match s.circEntry p b with
  | none => s.dropNoroute
  | some (i, e) =>
    let s := if e.deliver || e.out.isNone then
        match e.tag with
        | some t => s.arrive p { b with tag := t }
        | none => s.dropNoroute
      else s
    match e.out with
    | some q => s.passOn p q.val { b with dest := BitVec.ofNat 16 i, vc := nextVc b.vc e.dateline e.newring }
    | none => s

/-- What happens to a billet at ingress: key, kind, then its way. -/
def State.ingressWay (s : State) (p : Nat) (b : Billet) (circuit : Bool) : State :=
  let r := s.keyIngress p b
  if !r.2 then r.1
  else if !kindOnVc b then r.1.dropKind
  else if circuit then r.1.circuitBillet p b
  else r.1.route1 p b

/-- A received billet at ingress. One that has come without a frame within a forced swap's interval is discarded (R224). -/
def State.ingress (s : State) (p : Nat) (b : Billet) (circuit : Bool) : State :=
  let r := (s.port p).rx
  let fresh := !(r.buf.elem b) && !(r.stale.elem b)
  if fresh && s.route.forceUntil.isSome && swapVc b.vc then s.dropSwap
  else ((s.unbuffer p b).ingressWay p b circuit).entered p

/-! ### Circuits on the path (R217) -/

/-- Reply to the source of a SETUP. -/
def State.circuitReply (s : State) (m : CircMsg) (b : Billet) (sub : BitVec 13) (reason : Nat) : State :=
  s.inject (circBillet m.src b.key b.gen 1 sub (m.reply s.own reason))

/-- A SETUP at a hop. -/
def State.setupHop (s : State) (p : PortId) (b : Billet) : State :=
  let m := CircMsg.of b.data
  let u := s.undeliver p.val b
  if s.lookup m.dst = .here && s.isSlag b then u.slagBillet
  else
    match s.reserve (some p) m b.key b.gen with
    | .refused r => u.circuitReply m b circRefuse r
    | .dropped .noroute => u.dropNoroute
    | .dropped _ => u.dropPortdown
    | .here _ s => (s.undeliver p.val b).circuitReply m b circConfirm 0
    | .onward i q s => s.sendOn p.val q b { b with data := { m with label := i }.data }

/-- A RELEASE at a hop: slag at its destination (R306); else the entry is freed, and RELEASE goes on, with this hop's own label where
it had an entry. -/
def State.releaseHop (s : State) (p : PortId) (b : Billet) : State :=
  let m := CircMsg.of b.data
  let u := s.undeliver p.val b
  if s.lookup m.dst = .here && s.isSlag b then u.slagBillet
  else
    let i := s.findCirc m
    let free (s : State) : State := (i.map s.freeCirc).getD s
    match s.lookup m.dst with
    | .here => free u
    | .noroute => (free u).dropNoroute
    | .portdown => (free u).dropPortdown
    | .out q _ _ => (free s).sendOn p.val q b ((i.map fun k => { b with data := { m with label := k }.data }).getD b)

/-- A CIRCUIT billet of a subtype (R217). -/
def isCircuitSub (b : Billet) (sub : BitVec 13) : Bool := b.kind = kCircuit && fieldN b.seq 0 3 = sub.toNat

/-- The PLAN_LOAD heat that a CONFIRM or REFUSE answers. -/
def State.loadFor (s : State) (b : Billet) : Option (Nat × Heat) :=
  let m := CircMsg.of b.data
  s.heatList.find? fun e => e.2.live && e.2.id.d.kind = .planLoad && e.2.grp.sentUp && e.2.grp.digest = m.digest &&
    e.2.id.key = b.key

/-- A CONFIRM at the source (R26, R217). -/
def State.confirmed (s : State) (b : Billet) : State :=
  match s.loadFor b with
  | none => s
  | some (c, _) =>
    (s.modHeat c fun h => { h with run := { h.run with confirms := (CircMsg.of b.data).req :: h.run.confirms } }).planReady c

/-- A REFUSE at the source. -/
def State.refusedHere (s : State) (b : Billet) : State :=
  match s.loadFor b with
  | none => s
  | some (c, _) => s.planFail c .noSlots

/-! ### DRAIN_VC (R222) -/

/-- The hold in force ends; a DRAIN_VC that still waits for it ends too (log 41). -/
def State.releaseHold (s : State) : State :=
  let s' := s.endHold
  match s.route.hold.bind fun h => h.heat with
  | some c => s'.endHeat c .abortTimeout
  | none => s'

/-- A dispatched DRAIN_VC. -/
def State.startDrain (s : State) (c : Nat) : State :=
  match s.heat c with
  | none => s
  | some h =>
    let w := h.id.w
    if bit w.w6 8 then s.releaseHold.endHeat c .ok
    else
      let old := s.route.hold
      let new : Hold :=
        { vcs := field w.w6 0 8, ports := field w.w7 0 40, quietUs := field w.w6 16 16, drained := false, heat := some c
          deadline := s.time.now + fieldN w.w6 32 16 * msPs, lastSeen := s.time.now, waiting := [] }
      let s := { s with route := { s.route with hold := some new } }
      match old with
      | none => s
      | some o =>
        let s := match o.heat with
          | some k => s.endHeat k .abortTimeout
          | none => s
        o.waiting.foldl State.inject s

/-- A selected port is quiet now: nothing of a selected VC is buffered at it, a billet that waits there for its output port with it, or it is
not in service (R222, R253). -/
def State.portQuiet (s : State) (h : Hold) (p : Nat) : Bool :=
  let x := s.port p
  !x.reg.st.inService || !((x.tx.queue ++ x.rx.buf ++ x.rx.stale ++ x.rx.inbox).any (fun b => bit h.vcs b.vc.toNat) ||
    x.rx.ents.any fun e => e.outs ≠ [] && bit h.vcs e.vc.toNat)

/-- The quiet interval has passed before the limit (R222). -/
def State.drainQuiet (s : State) : State :=
  match s.route.hold with
  | some h =>
    match h.heat with
    | some c =>
      let t := h.lastSeen + h.quietUs.toNat * usPs
      if (setBits h.ports).all (s.portQuiet h) && decide (t ≤ h.deadline) then
        let s := s.advanceTo t
        ({ s with route := { s.route with hold := some { h with drained := true, heat := none } } }).endHeat c .ok
      else s
    | none => s
  | none => s

/-- The limit of DRAIN_VC expires first (R222). -/
def State.drainTimeout (s : State) : State :=
  match s.route.hold with
  | some h => if h.heat.isSome then (s.advanceTo h.deadline).releaseHold else s
  | none => s

/-! ### Route swaps (R223, R224) -/

/-- The ports in service. -/
def State.portsInService (s : State) : List Nat := (List.range 40).filter fun p => (s.port p).reg.st.inService

/-- A drained engine may swap (R223). -/
def State.swapDrained (s : State) : Bool :=
  match s.route.hold with
  | some h => h.drained && (h.vcs &&& 0xCF) = 0xCF && s.portsInService.all (bit h.ports)
  | none => false

/-- A forced swap may proceed (R224). -/
def State.swapForced (s : State) : Bool :=
  s.tab.parts.all fun e => e.2.state = .free || e.2.state = .halted ||
    e.2.queues.all fun q => (s.queue q).st = .disabled && (s.queue q).idle

/-- A dispatched ROUTE_SWAP. -/
def State.startSwap (s : State) (c : Nat) : State :=
  match s.heat c with
  | none => s
  | some h =>
    let force := bit h.id.w.w6 0
    if s.route.swap.isNone && (if force then s.swapForced else s.swapDrained) then
      ({ s with route := { s.route with swap := some (c, force, field h.id.w.w6 16 16) } }).modHeat c fun h =>
        { h with run := { h.run with due := s.time.now + 16 * refPs } }
    else s.endHeat c .malformed

/-- Discard the billets that a forced swap finds buffered at a port (R224): queued to be sent, or in the receive buffer, delivered ones
among them. -/
def State.discardAt (s : State) (p : Nat) : State :=
  let x := s.port p
  let tx := x.tx.queue.filter fun b => swapVc b.vc
  let rx := x.rx.buf.filter fun b => swapVc b.vc
  let old := x.rx.stale.filter fun b => swapVc b.vc
  let inb := x.rx.inbox.filter fun b => swapVc b.vc
  let s := s.modPort p fun x =>
    { x with tx := { x.tx with queue := x.tx.queue.filter fun b => !swapVc b.vc }
             rx := { x.rx with buf := x.rx.buf.filter fun b => !swapVc b.vc, stale := x.rx.stale.filter fun b => !swapVc b.vc } }
  let s := rx.foldl (fun s b => s.owe p b) (inb.foldl (fun s b => s.undeliver p b) (s.leftQueue p tx))
  { s with route := { s.route with swapDrop := satAdd s.route.swapDrop (tx.length + rx.length + old.length + inb.length) } }

/-- The swap edge (R223, R224, R247). -/
def State.swapNow (s : State) : State :=
  match s.route.swap with
  | none => s
  | some (c, force, quiet) =>
    let s := s.advanceTo ((((s.heat c).map fun h => h.run.due)).getD 0)
    let s := { s with route := { s.route with activeBank := !s.route.activeBank, swap := none } }
    let s := if force then (List.range 40).foldl State.discardAt s else s
    let s := if force && quiet ≠ 0 then
        { s with route := { s.route with forceUntil := some (s.time.now + quiet.toNat * usPs) } } else s
    let s := s.releaseHold
    let s := ((List.range 40).filter fun p => (s.port p).reg.st = .adopted).foldl (fun s p =>
      s.modTr p fun t => { t with swapDone := true }) s
    s.endHeat c .ok

/-! ### CABLE_ADOPT (R246) -/

/-- A cabling entry with another peer, WIDTH 0. -/
def adoptEntry (e : W32) (id : BitVec 16) (port : BitVec 6) : W32 :=
  assemble 32 [(fieldN e 31 1, 31), (id.toNat, 6), (port.toNat, 0)]

/-- A port takes an adopted entry (R246, R247). -/
def State.adopt (s : State) (p : Nat) (e : W32) : State :=
  let now := s.time.now
  ((s.modReg p fun r => { r with plan := e }).modTr p fun t =>
    { t with swapDone := false, verdict := 0, partnerVerdict := 0, since := now }).portState p .adopted

/-- A dispatched CABLE_ADOPT. -/
def State.startAdopt (s : State) (c : Nat) : State :=
  match s.heat c with
  | none => s
  | some h =>
    let a := fieldN h.id.w.w6 0 6
    let b := fieldN h.id.w.w6 8 6
    let ra := (s.port a).reg
    let rb := (s.port b).reg
    if a < 40 && b < 40 && bit h.id.w.w6 16 then
      if ra.st = .swapped && rb.st = .swapped && ra.other.toNat = b && rb.other.toNat = a then
        let pa := planPeer ra.plan
        let pb := planPeer rb.plan
        ((s.adopt a (adoptEntry ra.plan pb.1 pb.2)).adopt b (adoptEntry rb.plan pa.1 pa.2)).endHeat c .ok
      else s.endHeat c .malformed
    else if a < 40 && b = 0 && !bit h.id.w.w6 16 && ra.st = .quarantine && (ra.qreason = 1 || ra.qreason = 2) then
      (s.adopt a (adoptEntry ra.plan ra.peerId ra.peerPort)).endHeat c .ok
    else s.endHeat c .malformed

end Sys2Proof.Machine
end

