-- ==== Sys2Proof/Machine/Islands.lean ====
section
/-! DEFINITION. Island resets (R303), island faults (R304) and the reset alignment protocol (R349, R350). -/

namespace Sys2Proof.Machine

/-! ### Island resets (R303) -/

/-- An island that the steward may reset. -/
def resettable : Island → Bool
  | .link _ | .anvil _ | .hearth _ | .sibling | .trace => true
  | _ => false

/-- The drain of an island reset begins: its ports take the actions of ENABLE = 0, Trace ends a recording. -/
def State.drainIsland (s : State) (i : Island) : State :=
  let s := (islandPorts i).foldl State.disablePort s
  match i with
  | .trace => if s.trc.enable && s.trc.active then s.recordEnd else s
  | _ => s

/-- Request an island reset that passes the refusals. -/
def State.beginIsland (s : State) (i : Island) : State :=
  let s := { s with ctl := { s.ctl with
      islBusy := true, islNow := BitVec.ofNat 6 (islandCode i), islOrder := s.tng.order, islStarted := false } }
  s.drainIsland i

/-- A write of CTL_ISLAND_RST (R303, R320). -/
def State.islandWrite (s : State) (v : W32) : State :=
  let code := fieldN v 0 6
  let put (s : State) : State :=
    ({ s with ctl := { s.ctl with islCode := field v 0 6, islDone := s.ctl.islDone && !bit v 30 } }).answer rspOkay 0
  if !bit v 8 then put s
  else
    match islandOfCode code with
    | none => s.answer rspError 0
    | some i =>
      let hearth : Bool := match i with
        | .hearth _ => s.hrt.ingots ≠ [] || s.hrt.resetting
        | _ => false
      if s.ctl.islBusy || !resettable i || hearth then s.answer rspError 0 else (put s).beginIsland i

/-- Alignment of an island starts again from now. -/
def State.realign (s : State) (i : Island) : State :=
  { s with power := { s.power with
      aligned := clearBits s.power.aligned (maskOf (islandBits i)), woken := clearBits s.power.woken (maskOf (islandBits i))
      alignFrom := Tbl.set 0 s.power.alignFrom (islandCode i) s.time.now } }

/-- The island is reset: what it holds is lost, and it aligns again; a gated one is woken as its reset (R303, R355). -/
def State.resetIsland (s : State) (i : Island) : State :=
  let s := s.loseContents i
  let s := match i with
    | .trace => { s with trc := { s.trc with replay := false, active := false, queue := [], runs := [], entries := [] } }
    | _ => s
  if s.isOn i then s.realign i else s.wake i

/-- The reset of the island starts when no heat holds a unit of it (R303, step 4). -/
def State.startIsland (s : State) : State :=
  match islandOfCode s.ctl.islNow.toNat with
  | none => s
  | some i =>
    if s.ctl.islBusy && !s.ctl.islStarted && !(s.heatList.any fun e => s.holdsUnit e.2 i) then
      let s := s.capture causeIslandReset none true (s.unitEntries i fun _ => if s.isOn i then 1 else 2)
      let s := { s with ctl := { s.ctl with islStarted := true } }
      s.resetIsland i
    else s

/-! ### Island faults (R304) -/

/-- End heats as on watchdog expiry with reason ISLAND_FAULT, after one record of the island. -/
def State.faultHeats (s : State) (i : Island) (unit : Nat) (hs : List (Nat × Heat)) : State :=
  let faults := hs.map fun e => faultEntry e.1 e.2 ⟨0x11, islandCode i, unit, 0⟩
  let s := s.capture causeIslandFault none true
    ((s.unitEntries i fun u => if u = unit then 3 else 0) ++ faults ++ hs.map fun e => s.heatEntry e.1 e.2)
  hs.foldl (fun s e => s.expire e.1) s

/-- Poison every set but those given by slot index and set, and every bias region (R304). -/
def State.poisonAll (s : State) (but : List (Nat × Nat)) : State :=
  { s with hrt := { s.hrt with slots := s.hrt.slots.map fun e => (e.1, e.2.map fun sl =>
      { sl with
        sets := (List.range sl.sets.length).filterMap fun k => (sl.sets[k]?).map fun x =>
          if but.elem (e.1, k) then x else { x with st := .poisoned }
        biasBad := sl.biasBad || sl.bias.isSome }) } }

/-- The heats whose contexts an error of Tongs, Weld or Control touches end with reason STATE_ECC. -/
def State.stateEcc (s : State) (i : Island) (touched : List Nat) : State :=
  let island := match i with
    | .weld => 0x19
    | _ => 0x18
  let hs := s.heatList.filter fun e => e.2.live && touched.elem e.1
  let s := ((hs.map fun e => e.2.id.part).eraseDups).foldl (fun s q =>
    let mine := hs.filter fun e => e.2.id.part = q
    s.captureHeats causeStateEcc q (mine.map fun e => (e.1, ⟨0x12, island, 0, 0⟩)) ((mine.head?.map fun e => s.crashOf e.2).toList)) s
  hs.foldl (fun s e => ((s.beginSample e.1).stopHeat e.1 .abortTimeout).forget e.1) s

/-- The reset that follows a fault: as R303 from step 3, the heats that held the island having ended. A reset of the same island begins
again. One of another island is waited for; the drain begins at once. -/
def State.faultReset (s : State) (i : Island) : State :=
  let code := BitVec.ofNat 6 (islandCode i)
  if !s.ctl.islBusy then (s.beginIsland i).startIsland
  else if s.ctl.islNow = code then
    (({ s with ctl := { s.ctl with islStarted := false } }).drainIsland i).startIsland
  else if s.underReset i then s
  else ({ s with ctl := { s.ctl with islMore := s.ctl.islMore ++ [(code, s.tng.order)] } }).drainIsland i

/-- An island reset is done: BUSY, DONE and the event (R303); one that waits begins. -/
def State.islandDone (s : State) : State :=
  let s := ({ s with ctl := { s.ctl with islBusy := false, islStarted := false, islDone := true } }).tngEvent 0x08
  match s.ctl.islMore with
  | [] => s
  | x :: rest =>
    ({ s with ctl := { s.ctl with islBusy := true, islNow := x.1, islOrder := x.2, islMore := rest } }).startIsland

/-- An island fault (R304). The sets of heats that hold one become VOID with those heats; every other is poisoned. -/
def State.islandFaults (s : State) (i : Island) (unit : Nat) (touched : List Nat) : State :=
  match i with
  | .tongs | .weld | .control => s.stateEcc i touched
  | .hearth _ =>
    let hs := s.heatList.filter fun e => s.holdsUnit e.2 i
    let but := (hs.filter fun e => !e.2.dp.setDone).filterMap fun e =>
      e.2.id.part.map fun p => (p * 65536 + e.2.id.w.slot, e.2.dp.setIdx)
    let s := (s.faultHeats i unit hs).poisonAll but
    let s := { s with hrt := { s.hrt with resetting := true } }
    s.faultReset i
  | i =>
    let s := s.faultHeats i unit (s.heatList.filter fun e => s.holdsUnit e.2 i)
    s.faultReset i

/-! ### Alignment (R349, R350) -/

/-- Failed checks of an island in a row. -/
def State.alignFails (s : State) (i : Island) : Nat := Tbl.get 0 s.power.retries (islandCode i)

/-- Mark an island ALIGNED. -/
def State.setAligned (s : State) (i : Island) : State :=
  match i with
  | .weld => { s with power := { s.power with weldAligned := true } }
  | .control => { s with power := { s.power with ctlAligned := true } }
  | .hearth n => { s with power := { s.power with aligned := s.power.aligned ||| maskOf (islandBits (.hearth n)) } }
  | i => { s with power := { s.power with
      aligned := s.power.aligned ||| maskOf (islandBits i), woken := clearBits s.power.woken (maskOf (islandBits i)) } }

/-- An island has aligned: an island reset of it is done, and the wheels of its ports count from here (R214), and those enabled enter
DETECT (R303, R353). -/
def State.alignedNow (s : State) (i : Island) : State :=
  let s := s.setAligned i
  let now := s.time.now
  let s := { s with power := { s.power with
      retries := Tbl.set 0 s.power.retries (islandCode i) 0
      anvilIdle := if 8 ≤ islandCode i && islandCode i < 13 then now else s.power.anvilIdle
      hearthIdle := if 16 ≤ islandCode i && islandCode i < 24 then now else s.power.hearthIdle } }
  let s := if s.ctl.islBusy && s.ctl.islStarted && s.ctl.islNow.toNat = islandCode i then s.islandDone else s
  let s := (islandPorts i).foldl (fun s p => s.modPort p fun x => { x with tx := { x.tx with slotNow := 0 } }) s
  ((islandPorts i).filter fun p => (s.port p).reg.st = .disabled && (s.port p).reg.enable).foldl State.series s

/-- When the check of an island ends: bridge pointers are set at the first frame edge, and the check takes the frame that follows
(R349). -/
def State.checkEnd (s : State) (i : Island) : Nat :=
  s.time.frameEdge (Tbl.get 0 s.power.alignFrom (islandCode i)) + framePs

/-- A check of alignment at a frame edge (R349): a powered island that is not aligned. The next check begins where a failed one
ends. 16 failures in a row outside boot are an island fault (R350). -/
def State.alignCheck (s : State) (i : Island) (ok : Bool) : State :=
  let due := !s.isReady i && s.isOn i
  if !due then s
  else if ok then (s.advanceTo (s.checkEnd i)).alignedNow i
  else
    let n := s.alignFails i + 1
    let s := s.advanceTo (s.checkEnd i)
    let s := { s with power := { s.power with
        retries := Tbl.set 0 s.power.retries (islandCode i) n, alignRetries := satInc s.power.alignRetries
        alignFrom := Tbl.set 0 s.power.alignFrom (islandCode i) s.time.now } }
    if 16 ≤ n && s.boot.state ≠ .align then
      let s := { s with power := { s.power with retries := Tbl.set 0 s.power.retries (islandCode i) 0 } }
      (s.pwrEvent 4).islandFaults i 0 []
    else s

end Sys2Proof.Machine
end

