-- ==== Sys2Proof/Machine/Queues.lean ====
section
/-! DEFINITION. Queue pages (R154 to R161), doorbells (R157, R158), the descriptor cache (R163, R165) and the consumption
and validation of chains (R164, R173, R174). -/

namespace Sys2Proof.Machine

/-- The tail against which a doorbell is checked: one not yet applied counts (R157). -/
def Queue.tailNow (q : Queue) : BitVec 17 := q.pendTail.getD q.tail

/-! ### Access to pages (R154, R258, R283, R396) -/

/-- Requester `rid` may write the page of queue `q`. -/
def State.ownsQueue (s : State) (rid : BitVec 16) (q : Nat) : Bool :=
  match s.partOfQueue q with
  | some p => (s.part p).requester = rid
  | none => q = 0 && rid = s.boot.cfg.stewardRid

/-- Why a write to a queue page has no effect, if it has none; `doorbell` tells that it is one. -/
def State.pageRefused (s : State) (rid : BitVec 16) (q : Nat) (doorbell : Bool) : Option (BitVec 3) :=
  if (s.queue q).st = .unassigned then some (if doorbell then causeUnassigned else causeOwner)
  else if !s.ownsQueue rid q then some causeOwner
  else if (s.partOfQueue q).isSome && s.replaying (s.partOfQueue q) then some causeReplay
  else none

/-- A write to a queue page, refused or carried out. -/
def State.pageWrite (s : State) (rid : BitVec 16) (q : Nat) (doorbell : Bool) (f : State → State) : State :=
  match s.pageRefused rid q doorbell with
  | some cause => s.pickReject cause rid
  | none => f s

/-! ### Doorbells (R157 to R159) -/

/-- Why a doorbell is malformed, if it is (R157). -/
def ringBad (x : Queue) (v : W32) : Option (BitVec 4) :=
  let t := field v 0 17
  if fieldN v 17 14 ≠ 0 || x.size ≤ fieldN v 0 16 || x.size < x.d t then some reasonDbRange
  else if x.d t < x.d x.tailNow then some reasonDbBackward else none

/-- A doorbell to an assigned queue. One that is malformed in the tclk in which its partition halts records its reason (R175). -/
def State.ring (s : State) (q : Nat) (v : W32) : State :=
  let x := s.queue q
  let t := field v 0 17
  let bad := ringBad x v
  if x.st = .halted then
    match bad with
    | some r => s.foundToo q r
    | none => s
  else if x.st = .unassigned || (x.st = .disabled && !x.cfgOk) then s
  else if fieldN v 17 14 ≠ 0 || x.size ≤ fieldN v 0 16 || x.size < x.d t then s.malformed q reasonDbRange none
  else if x.d t < x.d x.tailNow then s.malformed q reasonDbBackward none
  else
    let s := s.modQueue q fun x => { x with pendTail := some t, pendInval := x.pendInval || bit v 31 }
    s.traceInput (s.partOfQueue q) 1 [(q, 72), (fieldN v 31 1, 71), (t.toNat, 54)]

/-- Discard every cached entry of a queue that has not been consumed (R165): entries being fetched too. -/
def State.invalidate (s : State) (q : Nat) : State :=
  let mine (o : ReqFor) : Bool := match o with
    | .fetch x _ => x = q
    | _ => false
  let s : State := { s with wld := { s.wld with
      mem := s.wld.mem.map fun e => (e.1, e.2.map fun r => if mine r.owner then { r with slag := true } else r)
      xl := s.wld.xl.map fun e => (e.1, e.2.map fun r => if mine r.owner then { r with slag := true } else r) } }
  s.modQueue q fun x => { x with cache := [], fetching := [] }

/-- The pending tail of a queue applies (R158): a pending discard acts first. In HALTED a tail does not change (R159). -/
def State.applyTail (s : State) (q : Nat) : State :=
  let x := s.queue q
  match x.pendTail with
  | none => s
  | some t =>
    if x.st = .halted || x.st = .unassigned then s
    else
      let s := if x.pendInval then s.invalidate q else s
      s.modQueue q fun x => { x with tail := t, pendTail := none, pendInval := false }

/-! ### QP_CTRL (R155, R161, R165) -/

/-- Head and tail become 0. -/
def Queue.zero (q : Queue) : Queue := { q with head := 0, tail := 0, pendTail := none, pendInval := false }

/-- RESET where R161 permits it. -/
def Queue.doReset (q : Queue) (n : Nat) : Queue :=
  if q.st = .disabled then q.zero
  else if q.st = .halted && n = 0 && q.idle then { q.zero with st := .disabled, enable := false, hold := false, reason := 0 }
  else q

/-- ENABLE as R161 lists it. -/
def Queue.doEnable (q : Queue) (on : Bool) : Queue :=
  match q.st, on with
  | .disabled, true => if q.cfgOk then { q with st := .active, enable := true, cfgErr := false } else { q with cfgErr := true }
  | .draining, true => { q with st := .active, enable := true, cfgErr := false }
  | .active, false => { q.discard with st := .draining, enable := false }.settle
  | _, _ => q

/-- A write of QP_CTRL that is carried out: INVAL, HOLD, RESET, ENABLE, in this order. A HALTED queue 0 that the write resets to
DISABLED takes no ENABLE of the same write (DESIGN CHOICE, log 47; R161 lists one event a row). -/
def State.control (s : State) (q : Nat) (v : W32) : State :=
  let old := s.queue q
  let s := if bit v 3 || (old.st = .active && !bit v 0) then s.invalidate q else s
  let s := if old.st = .active && !bit v 0 then s.dropFetches q else s
  let s := s.modQueue q fun x =>
    let x := { x with hold := bit v 1 }
    let x := if bit v 2 then x.doReset q else x
    if old.st = .halted then x else x.doEnable (bit v 0)
  s.traceInput (s.partOfQueue q) 5 [(q, 72), (fieldN v 0 4, 68)]

/-- A write of a ring register in DISABLED (R155, R156). -/
def State.ringWrite (s : State) (q : Nat) (r : RingReg) (v : W32) : State :=
  if (s.queue q).st = .disabled then
    s.modQueue q fun x => match r with
      | .lo => { x.zero with base := assemble 64 [(fieldN x.base 32 32, 32), (fieldN v 6 26, 6)] }
      | .hi => { x.zero with base := assemble 64 [(v.toNat, 32), (fieldN x.base 0 32, 0)] }
      | .cfg => { x.zero with log2 := field v 0 5 }
  else s

/-! ### Reads of a queue page (R155) -/

/-- QP_CTRL. -/
def Queue.ctrl (q : Queue) : W32 := assemble 32 [(b2n q.hold, 1), (b2n q.enable, 0)]

/-- QP_STATUS. -/
def Queue.status (q : Queue) : W32 :=
  assemble 32 [(q.st.code, 29), (b2n q.idle, 28), (b2n (q.hold && q.under = [] && q.ready.isNone), 27), (b2n q.cfgErr, 26),
    (q.reason.toNat, 17), (q.head.toNat, 0)]

/-- The register of a queue page at an offset. -/
def Queue.read (q : Queue) (off : Nat) : W32 :=
  if off = 0x04 then q.ctrl
  else if off = 0x08 then q.status
  else if off = 0x0C then q.tailNow.setWidth 32
  else if off = 0x10 then field q.base 0 32
  else if off = 0x14 then field q.base 32 32
  else if off = 0x18 then q.log2.setWidth 32
  else if off = 0x1C then assemble 32 [(q.burst.toNat, 8), (q.weight.toNat, 0)]
  else 0

/-! ### Fetch (R163) -/

/-- Entries of the queue that have been consumed beyond head. -/
def Queue.consumed (q : Queue) : Nat :=
  q.under.length + match q.ready with
    | some r => r.2.2
    | none => 0

/-- The next index to fetch, if the cache has room and the tail covers it. -/
def Queue.toFetch (q : Queue) : Option (BitVec 17) :=
  if q.st ≠ .active || q.hold || 8 ≤ q.cache.length + q.fetching.length then none
  else
    let n := q.d q.tail - q.consumed
    ((List.range (min n 8)).map fun k => q.ahead (q.consumed + k)).find? fun i =>
      !(q.cache.any fun e => e.1 = i.toNat) && !(q.fetching.elem i.toNat)

/-- Fetch entries of a queue, `fuel` at most: each takes one line read, after its translation. -/
def State.fetch (s : State) (q : Nat) : Nat → State
  | 0 => s
  | fuel + 1 =>
    let x := s.queue q
    match x.toFetch with
    | none => s
    | some i =>
      let va := (x.base.toNat + 64 * fieldN i 0 16) % 2 ^ 64
      match s.xlateHit (s.spaceOf q) (va / 4096) false with
      | none =>
        let asked := s.wld.xl.any fun e => match e.2 with
          | some r => r.owner = .fetch q i.toNat && !r.slag
          | none => false
        if asked then s
        else match s.askXlate { page := false, space := s.spaceOf q, vpage := va / 4096, write := false,
                                owner := .fetch q i.toNat } with
          | some r => r.2
          | none => s
      | some e =>
        match (s.cacheUse e).issueMem { write := false, line := e.phys va / 64, space := s.spaceOf q, vpage := va / 4096, size := e.size,
                                        owner := .fetch q i.toNat } with
        | none => s
        | some r => State.fetch (r.2.2.modQueue q fun x => { x with fetching := i.toNat :: x.fetching }) q fuel

/-- An entry has been read. -/
def State.fetched (s : State) (q idx : Nat) (d : Payload) : State :=
  s.modQueue q fun x => { x with cache := x.cache ++ [(idx, d)], fetching := x.fetching.erase idx }

/-- The fetch of an entry fails: a malformed entry with reason FETCH (R163). -/
def State.fetchFails (s : State) (q idx : Nat) : State :=
  (s.modQueue q fun x => { x with fetching := x.fetching.erase idx }).malformed q reasonFetch none

/-! ### Validation (R164, R173) -/

/-- Step 7 has been passed: the chain waits for dispatch. -/
def State.validated (s : State) (q pa size : Nat) (d : Desc) (w : Words) : State :=
  s.modQueue q fun x => { x with ready := some (d, w, x.under.length), under := [], cmplWait := false, cmplPa := pa
                                 cmplPage := (w.cmpl.toNat / 4096, size) }

/-- Check a whole chain (R173). -/
def State.checkChain (s : State) (q : Nat) : State :=
  let x := s.queue q
  let sc := s.chainScope q
  match validateChain (q = 0) sc.1 sc.2 x.under with
  | .error r => s.malformed q r x.under.head?
  | .ok (d, w) =>
    if !cmplOk w.cmpl then s.malformed q reasonCmpl none
    else
      let vp := w.cmpl.toNat / 4096
      match s.xlateHit (s.spaceOf q) vp true with
      | some e => (s.cacheUse e).validated q (e.phys w.cmpl.toNat) e.size d w
      | none =>
        if x.cmplWait then s
        else match s.askXlate { page := false, space := s.spaceOf q, vpage := vp, write := true, owner := .cmpl q } with
          | some r => r.2.modQueue q fun x => { x with cmplWait := true }
          | none => s

/-- Consume entries of a chain and check it: `fuel` entries at most. -/
def State.consume (s : State) (q : Nat) : Nat → State
  | 0 => s
  | fuel + 1 =>
    let x := s.queue q
    if x.st ≠ .active || x.ready.isSome then s
    else if x.whole then s.checkChain q
    else if x.under = [] && x.hold then s
    else
      let i := (x.ahead x.under.length).toNat
      match x.cache.find? fun e => e.1 = i with
      | none => s
      | some e =>
        if x.breaks e.2 then s.malformed q reasonChain (x.under.head?.orElse fun _ => some e.2)
        else
          State.consume (s.modQueue q fun x => { x with cache := x.cache.filter fun y => y.1 ≠ i, under := x.under ++ [e.2] })
            q fuel

/-! ### Bounds of the whole engine (R409, R410) -/

/-- Those that may wait at an engine-wide bound, by their places in the round robin. -/
def State.waiters (s : State) : List ReqFor :=
  (s.heatList.flatMap fun e =>
    (if e.2.live && !e.2.paused && (e.2.run.phase = .run || e.2.run.phase = .map) then
      (List.range 8).flatMap fun k =>
        (e.2.dp.streams.filter fun st => streamCode st.id = k).map fun st => ReqFor.stream e.1 st.id
    else []) ++ [ReqFor.pin e.1 .other, ReqFor.crash e.1]) ++
  (s.tab.queues.flatMap fun e => [ReqFor.fetch e.1 0, ReqFor.cmpl e.1, ReqFor.bad e.1]) ++ [ReqFor.trace 0, ReqFor.replay 0]

/-- One of them tries to go on. -/
def State.goOnAt (s : State) (o : ReqFor) : State :=
  match o with
  | .stream c st =>
    if st = .other then s.stepWord c
    else match (s.heat c).bind fun h => h.dp.streams.findIdx? fun x => x.id = st with
      | some i => s.streamStep c i
      | none => s
  | .pin c _ => if (s.heat c).any fun h => h.live && !h.paused then s.pinStep c else s
  | .crash c => if (s.heat c).any fun h => !h.live then s.crashStep c else s
  | .fetch q _ => s.fetch q 1
  | .cmpl q =>
    let x := s.queue q
    if x.st = .active && x.ready.isNone && x.whole && !x.cmplWait then s.checkChain q else s
  | .bad q => (s.flushBad q).askBad q
  | .trace _ => s.tracePump 257
  | .replay _ => s.replayRead

/-- Those that wait at a bound are served in turn, the one after the requester at place `t` first (R186, R410). -/
def State.serve (s : State) (t : Nat) : State :=
  let all := s.waiters
  ((all.filter fun o => decide (t < o.turn)) ++ all.filter fun o => decide (o.turn ≤ t)).foldl State.goOnAt s

/-- A tag is free again where all were in use: those that wait for one are served in turn (R186). -/
def State.serveTags (s : State) : State := s.serve s.wld.turn

/-- A translation or page request is free again where all were outstanding: those that wait for one are served in turn (R188, R410). -/
def State.serveXl (s : State) : State := s.serve s.wld.xturn

/-- A write of the pick port has been answered where all were outstanding: those that wait for one are served in turn (R367, R410). -/
def State.servePick (s : State) : State := s.serve s.wld.pturn

end Sys2Proof.Machine
end

