-- ==== Sys2Proof/Machine/Heats.lean ====
section
/-! DEFINITION. The life of a heat at the scheduler: dispatch (R13, R52, R201, R252, R288, R309), slots obtained (R52), completion (R54, R177), completion events (R180, R369). -/

namespace Sys2Proof.Machine

/-! ### Starts -/

/-- Wake an Anvil island where none is powered (R354). -/
def State.wakeAnvilFor (s : State) : State := if s.anvilOff then s.wakeAnvil else s

/-- Wake what a kind needs. -/
def State.wakeFor (s : State) (k : Kind) : State :=
  let s := if k.needsAnvil && !s.anvilServes then s.wakeAnvilFor else s
  if k = .preload && !s.hearthServes then hearths.foldl State.wake s else s

/-- A dispatched group heat. -/
def State.beginGroup (s : State) (c : Nat) (part : Option Nat) (d : Desc) (w : Words) : State :=
  match s.planOf part d with
  | some p =>
    if p.serves d.kind && atDispatch p d w ((part.map fun x => (s.part x).weldPorts).getD 0) && needsLost p d w then s.endHeat c .portLost
    else s.startGroup c
  | none => s.startGroup c

/-- Take streams and go on in a phase, by way of pinning where PIN is 1 (R190). -/
def State.withStreams (s : State) (c : Nat) (pin : Bool) (sts : List Stream) (ph : Phase) : State :=
  s.modHeat c fun h =>
    { h with run := { h.run with phase := if pin then .pin else ph, pinWait := if pin then sts.flatMap Stream.uses else [] }
             dp := { h.dp with streams := sts } }

/-- A dispatched PLAN_LOAD (R26): step 1, then the header is read. -/
def State.startLoad (s : State) (c part : Nat) (d : Desc) (w : Words) : State :=
  if s.tab.plans.any fun e => e.2.any fun p => p.part = part && p.id = d.plan then s.endHeat c .planInvalid
  else
    let st : Stream := { id := .plan, write := false, place := .mem w.src.toNat [], esize := 1, total := 64 }
    s.withStreams c d.pin [st] .run

/-- A dispatched PLAN_UNLOAD (R28): from now on no heat finds the plan. -/
def State.startUnload (s : State) (c part : Nat) (d : Desc) : State :=
  match s.planKey part d.plan with
  | some k => (s.setPlan k ((s.plan k).map fun p => { p with leaving := some c })).modHeat c fun h =>
      { h with run := { h.run with phase := .run }, grp := { h.grp with digest := ((s.plan k).map fun p => p.digest).getD 0 } }
  | none => s.endHeat c .planInvalid

/-- A dispatched PRELOAD_SLOT waits for its slot (R121). -/
def State.startPreload (s : State) (c : Nat) (d : Desc) (w : Words) : State :=
  let pc : PC := { d := d, w := w, rank := 0, size := 1, node := 0 }
  let st := pc.srcStream
  let st := if d.start = .bias then { st with total := (hostFmt d).size 1 w.rowLen } else st
  s.withStreams c d.pin [st] .slot

/-- A dispatched DRAIN_SLOT waits for its slot (R124); its streams, and the pages that it pins, are known then. -/
def State.startDrainSlot (s : State) (c : Nat) : State :=
  s.modHeat c fun h => { h with run := { h.run with phase := .slot } }

/-- The partition that a steward kind names (R288). -/
def Kind.namesPart (k : Kind) : Bool := k = .partCreate || k = .partReset || k = .quotaSet || k = .planRevoke

/-- Start a steward heat. -/
def State.startSteward (s : State) (c : Nat) (k : Kind) : State :=
  let s := s.modHeat c fun h => { h with run := { h.run with phase := .run } }
  match k with
  | .partCreate => s.startCreate c
  | .partReset => s.startReset c
  | .keySet => s.startKeySet c
  | .quotaSet => s.startQuota c
  | .routeSwap => s.startSwap c
  | .drainVc => s.startDrain c
  | .cableAdopt => s.startAdopt c
  | .reimageStage => s.startStage c
  | .reimageActivate => s.startActivate c
  | .planRevoke => s.startRevoke c
  | _ => s

/-- Another steward heat that names the same partition has not written its record (R288). -/
def State.behindSteward (s : State) (c : Nat) (k : Kind) (w : Words) : Bool :=
  k.namesPart && s.heatList.any fun e =>
    e.1 ≠ c && e.2.id.d.kind.namesPart && e.2.id.q = 0 && e.2.id.w.partIdx = w.partIdx

/-- Start a heat that has taken its context. -/
def State.start (s : State) (c : Nat) (part : Option Nat) (d : Desc) (w : Words) : State :=
  if d.kind.steward then
    if s.behindSteward c d.kind w then s.modHeat c fun h => { h with run := { h.run with phase := .queued } }
    else s.startSteward c d.kind
  else if d.kind.group then s.beginGroup c part d w
  else match d.kind, part with
    | .planLoad, some p => s.startLoad c p d w
    | .planUnload, some p => s.startUnload c p d
    | .preload, some _ => s.startPreload c d w
    | .drainSlot, some _ => s.startDrainSlot c
    | _, _ => s.endHeat c .ok

/-- The identity of the heat that the chain at the head of a queue becomes (R176, R289). -/
def State.heatId (s : State) (q : Nat) (d : Desc) (w : Words) : HeatId :=
  let y := (s.partOfQueue q).map s.part
  { q := q, idx := (s.queue q).head, part := s.partOfQueue q, key := (y.map fun p => p.key).getD 0
    gen := (y.map fun p => p.gen).getD 0, cls := (y.map fun p => p.cls).getD 0, space := s.spaceOf q, d := d, w := w
    cmplPa := (s.queue q).cmplPa, cmplPage := (s.queue q).cmplPage, order := s.tng.order }

/-- The watchdog period of a queue's heats, in µs (R309). -/
def State.wdogOf (s : State) (q : Nat) : Nat := (((s.partOfQueue q).map s.part).map fun p => p.wdogUs.toNat).getD 0

/-- The chain of `n` entries at the head of a queue takes context `c`: the queue goes on to the next chain, the grant is counted
(R160, R164, R166). -/
def State.enter (s : State) (q c : Nat) (d : Desc) (w : Words) (n : Nat) : State :=
  let s := s.setHeat c (some (Heat.fresh (s.heatId q d w) s.time.now (s.wdogOf q)))
  let s := s.modQueue q fun x => { x with head := x.ahead n, ready := none, heats := x.heats ++ [c] }
  { s with tng := { s.tng with order := s.tng.order + 1 } }.granted q n

/-- Dispatch a chain: it takes its context, and starts as its kind does. -/
def State.launch (s : State) (q c : Nat) (d : Desc) (w : Words) (n : Nat) : State :=
  let part := s.partOfQueue q
  let s := s.enter q c d w n
  let s := if s.power.level ≠ 0 || s.anvilOut then s.perturb c else s
  (s.start c part d w).perturbDegraded c

/-- A dispatch row: queue `q` has the next grant, and its chain is of kind `k` and of the row's variant. -/
def State.dispatch (s : State) (q : Nat) (k : Kind) (sel : Words → Bool) : State :=
  match (s.queue q).st, (s.queue q).ready with
  | .active, some (d, w, n) =>
    if d.kind ≠ k || !sel w then s
    else if s.bounded q d w && !s.powered k then s.wakeFor k
    else match s.nextGrant with
      | some (g, s') =>
        if g ≠ q then s
        else match s'.freeCtx q with
          | some c => (s'.launch q c d w n).pumpAll
          | none => s
      | none => s
  | _, _ => s

/-! ### Slots (R52) -/

/-- A heat in its slot phase has the islands that it needs (R13, R354); a Hearth bank under drain takes no heat (R303). -/
def State.slotServes (s : State) : Bool := s.anvilServes && s.hearthServes && !(hearths.any s.underReset)

/-- A heat waits for the wake of an island that it needs (R13): Anvil, or Hearth when it is about to touch its slot. -/
def State.wakeWait (s : State) (h : Heat) : Bool :=
  (h.id.d.kind.needsAnvil && !s.anvilServes && anvils.any s.isWaking) || (h.run.phase = .slot && s.hearthWaking)

/-- The watchdog of a heat that waits for a wake stops (R13); a wait for an island reset, or for a bank after a fault, counts (R304, R309). -/
def State.stopForWake (s : State) (c : Nat) : State :=
  match s.heat c with
  | none => s
  | some h => if s.wakeWait h then s.modHeat c fun h => { h with run := { h.run.stopWdog s.time.now with waking := true } } else s

/-- A heat waits for an island: what is gated wakes (R13, R354). -/
def State.waitWake (s : State) (c : Nat) : State :=
  let s := if s.anvilServes then s else s.wakeAnvilFor
  let s := if s.hearthServes then s else hearths.foldl State.wake s
  s.stopForWake c

/-- A heat that goes on after a pause finds no Anvil island powered: it wakes one and waits (R13, R354). -/
def State.runWake (s : State) (c : Nat) : State :=
  match s.heat c with
  | none => s
  | some h =>
    if h.live && h.run.phase = .run && h.id.d.kind.needsAnvil && !s.anvilServes then (s.wakeAnvilFor).stopForWake c else s

/-- A wake that heats wait for has ended: the watchdogs of those heats run (R13). -/
def State.wakeOver (s : State) : State :=
  ((s.heatList.filter fun e => e.2.run.waking && !s.wakeWait e.2).map fun e => e.1).foldl (fun s c => s.modHeat c fun h =>
    { h with run := { if h.paused && !h.run.capped then h.run else h.run.runWdog s.time.now with waking := false } }) s

/-- A heat obtains its slot; it wakes a gated Hearth, and Anvil where none is powered (R13, R354). -/
def State.slotObtain (s : State) (c : Nat) : State :=
  match s.heat c with
  | none => s
  | some h =>
    if h.run.phase ≠ .slot then s
    else if !s.slotServes || s.hearthWaking then s.waitWake c
    else
      let s := s.wakeOver
      match s.obtain c with
      | .wait => s
      | .fail st => (s.endHeat c st).pumpAll
      | .ok s' => s'.pumpAll

/-! ### Completion (R54, R177, R186, R307) -/

/-- The record of an ended heat may be written. -/
def State.mayComplete (s : State) (c : Nat) (h : Heat) : Bool :=
  match h.run.phase with
  | .ended st =>
    !s.writesLeft c && h.run.sample = [] && h.run.header.isNone && s.pickRoom && (st ≠ .ok || !s.billetsLeft c h)
  | _ => false

/-- Start the steward heat that waited longest for a partition (R288). -/
def State.startQueued (s : State) (p : Nat) : State :=
  let named := s.heatList.filter fun e => e.2.id.q = 0 && e.2.id.d.kind.namesPart && e.2.id.w.partIdx = p
  if s.seqStopped || named.any fun e => e.2.run.phase ≠ .queued then s
  else match named.foldl (fun (b : Option (Nat × Heat)) e => match b with
      | some x => if e.2.id.order < x.2.id.order then some e else b
      | none => some e) none with
    | some e => s.startSteward e.1 e.2.id.d.kind
    | none => s

/-- HEAT_COMPLETION: the record is written and the context is free. -/
def State.finish (s : State) (c : Nat) : State :=
  match s.heat c with
  | none => s
  | some h =>
    if s.mayComplete c h then
      let s := (s.perturbDegraded c).complete c
      let s := match h.id.part with
        | some p => s.resetGo p
        | none => if h.id.d.kind.namesPart then s.startQueued h.id.w.partIdx else s
      s.pumpAll
    else s

/-! ### Events (R369) -/

/-- The queue that the event channel takes next, after the one sent last. -/
def TngSt.nextPending (t : TngSt) : Option Nat :=
  let qs := t.evts.filterMap fun e => if e.2 then some e.1 else none
  (qs.find? fun q => decide (t.evtLast.toNat < q)).orElse fun _ => qs.head?

/-- The channel presents an event while it presents none (R358, R369). -/
def TngSt.present (t : TngSt) : TngSt :=
  { t with evtNow := t.evtNow <|> t.nextPending.map (BitVec.ofNat 12) }

/-- The event presented transfers: its queue's bit clears, and the next is presented. -/
def State.sendEvent (s : State) : State :=
  match s.tng.evtNow with
  | some q =>
    { s with tng := { s.tng with evts := Tbl.set false s.tng.evts q.toNat false, evtLast := q, evtNow := none }.present }
  | none => s

/-- A write of the pick port is answered (R367): a record that is visible raises its queue's event (R180). -/
def State.pickAnswered (s : State) (err : Bool) : State :=
  match s.wld.pick with
  | [] => s
  | w :: rest =>
    let full := !s.pickRoom
    let rest := if err && !w.last && w.step.isNone then
        match rest with
        | y :: t => { y with ok := false } :: t
        | [] => []
      else rest
    let s := { s with wld := { s.wld with pick := rest, memPick := if err then satInc s.wld.memPick else s.wld.memPick } }
    let s := if w.last && w.notify && w.ok && !err then
        { s with tng := { s.tng with evts := Tbl.set false s.tng.evts w.queue true }.present } else s
    let s := if full then s.servePick else s
    ((s.tab.queues.filter fun e => e.2.bad ≠ []).foldl (fun s e => s.flushBad e.1) s).pumpAll

end Sys2Proof.Machine
end

