-- ==== Sys2Proof/Machine/Receive.lean ====
section
/-! DEFINITION. Billets at their destination: matching (R32), data and masks (R61, R62, R191, R203), commits, holds and resumption
(R61, R191, R193), beacons (R194), barriers (R262, R263, R269), counts (R39), circuits (R216, R217) and notices (R319). -/

namespace Sys2Proof.Machine

/-! ### What a billet names -/

/-- The live flow that a heat receives under the billet's tag (R201, R308). -/
def State.inFlow (s : State) (b : Billet) : Option (Nat × Nat × Heat × FlowIn) :=
  match s.tag b.tag.toNat with
  | .recv c f => (s.heat c).bind fun h => if h.live && h.id.key = b.key then (h.dp.ins[f]?).map fun x => (c, f, h, x) else none
  | _ => none

/-- The live flow that a heat sends under the billet's tag, and the peer that the tag stands for. -/
def State.outFlow (s : State) (b : Billet) : Option (Nat × Nat × Heat × FlowOut × Nat) :=
  match s.tag b.tag.toNat with
  | .send c f => (s.heat c).bind fun h => if h.live && h.id.key = b.key then
      (h.dp.outs[f]?).bind fun x => (x.peers[x.tags.idxOf b.tag.toNat]?).map fun r => (c, f, h, x, r) else none
  | _ => none

/-- The heat that a billet of a heat reaches. -/
def State.reached (s : State) (b : Billet) : Option Nat :=
  if b.kind = kReady then (s.counterpart (s.partOfKey b.key) b.data).map Prod.fst
  else if [kData, kMask, kBarrier, kCounts].elem b.kind then (s.inFlow b).map fun x => x.1
  else if [kCommit, kHold, kResume].elem b.kind then (s.outFlow b).map fun x => x.1
  else if b.kind = kBeacon then ((s.inFlow b).map fun x => x.1).orElse fun _ => (s.outFlow b).map fun x => x.1
  else if isCircuitSub b circConfirm || isCircuitSub b circRefuse then (s.loadFor b).map Prod.fst
  else none

/-- Mark the heat that a billet reaches. -/
def State.perturbReached (s : State) (b : Billet) : State :=
  match s.reached b with
  | some c => s.perturb c
  | none => s

/-- A billet came while its port was degraded, when it was received or now: its heat is marked (R250). -/
def State.cameBy (s : State) (p : PortId) (b : Billet) : State :=
  if (s.port p.val).rx.slow.elem b then
    (s.modPort p.val fun x => { x with rx := { x.rx with slow := x.rx.slow.erase b } }).perturbReached b
  else if (s.port p.val).degraded then s.perturbReached b
  else s

/-- Take a billet of a kind at its destination: it leaves the port's inbox; slag is dropped and counted (R306). -/
def State.receipt (s : State) (p : PortId) (b : Billet) (kind : BitVec 4) (f : State → State) : State :=
  if b.kind ≠ kind then s
  else
    let s := s.undeliver p b
    if b.key ≠ 0 && s.isSlag b then s.slagBillet else f (s.cameBy p b)

/-! ### READY (R32) -/

/-- A heat learns its peer from a READY or a reply: its context, its tags, and the count that a SEND sends (R44). -/
def State.meets (s : State) (c r : Nat) (d : Payload) : State :=
  (s.modHeat c fun h =>
    let h := h.learn r d
    if h.id.d.kind = .recv then
      { h with dp := { h.dp with recvCnt := Tbl.set none h.dp.recvCnt 0 (some (pAt d 16 4)) } } else h).rearm c

/-- A READY arrives. -/
def State.takeReady (s : State) (b : Billet) : State :=
  match s.counterpart (s.partOfKey b.key) b.data with
  | none => s
  | some (c, h) =>
    let r := pAt b.data 22 2
    let dest := BitVec.ofNat 16 (pAt b.data 20 2)
    if h.agrees b.data then ((s.meets c r b.data).sendReply c r dest false).pumpAll
    else
      let s := s.inject (h.billet dest kReady 1 0 3 (h.readyData c s.own r))
      (s.endHeat c .planInvalid).pumpAll

/-- A READY reply arrives. -/
def State.takeReply (s : State) (b : Billet) : State :=
  match s.counterpart (s.partOfKey b.key) b.data with
  | none => s
  | some (c, h) =>
    let r := pAt b.data 22 2
    if bit b.seq 1 then (s.endHeat c .planInvalid).pumpAll
    else if (h.peerCtx r).isSome then s
    else (s.meets c r b.data).pumpAll

/-! ### DATA and MASK (R61, R191, R203) -/

/-- A billet that its heat cannot judge yet stays in the port's inbox: its runs are not known (R39, R44), its step is not
released (R42), or its slot, which takes contributions in any order, is not obtained (R64). -/
def Heat.notYet (h : Heat) (fi : FlowIn) : Bool :=
  fi.runs = [] ||
    (h.id.d.kind = .rotate && decide (h.dp.stepGo ≤ (h.pc.skipEmpty fi.runs.length fi).cur)) ||
    (h.id.d.kind.adding && h.pc.anyOrder && !h.dp.slotHeld)

/-- The billet that a flow expects next waits in the inbox before a later one of the flow. -/
def State.waitsBehind (s : State) (p : PortId) (b : Billet) (fi : FlowIn) : Bool :=
  b.seq ≠ BitVec.ofNat 13 fi.next && (s.port p.val).rx.inbox.any fun x =>
    (x.kind = kData || x.kind = kMask) && x.key = b.key && x.tag = b.tag && x.seq = BitVec.ofNat 13 fi.next

/-- Entries of the reorder stage in use that are not kept for a flow's own next billet (R61). -/
def State.entriesUsed (s : State) (h : Heat) (fi : FlowIn) : Nat :=
  if h.id.d.kind.adding then s.reorderHeld h - (if fi.resumed then 1 else 0) else h.dp.heldCount

/-- A DATA or MASK billet arrives; `none` where it stays in the inbox. -/
def State.takeItem (s : State) (b : Billet) (mask waits : Bool) : Option State :=
  match s.inFlow b with
  | none => some s.tagDrop
  | some (c, f, h, fi) =>
    if h.paused then some s
    else if h.notYet fi || waits then none
    else if b.seq ≠ BitVec.ofNat 13 fi.next then some s
    else
      let now := s.time.now
      let it : Item := { mask := mask, data := b.data }
      let early := fi.held ≠ [] || (fi.circuit.isNone && s.replaying h.id.part && !s.replayDue h fi.peer b.seq)
      let s := s.modIn c f fun x => { x with lastAt := now }
      match if early then none else s.applyItem c f it false with
      | some s' => some s'.pumpAll
      | none =>
        if !early && h.id.d.kind.adding && h.pc.anyOrder then none
        else if mask || s.entriesUsed h fi < 8 then
          some (s.modIn c f fun x => { x with held := x.held ++ [it], next := x.next + 1, resumed := false }).pumpAll
        else
          let s := s.modIn c f fun x => { x with refused := some x.next, resumed := false }
          some (({ s with hrt := { s.hrt with reorderHolds := satInc s.hrt.reorderHolds } }).flowReply c f kHold fi.next)

/-- A DATA or MASK billet at port `p`: it is taken, or stays in the port's inbox. -/
def State.item (s : State) (p : PortId) (b : Billet) (mask : Bool) : State :=
  s.receipt p b (if mask then kMask else kData) fun t =>
    (t.takeItem b mask (match t.inFlow b with
      | some x => t.waitsBehind p b x.2.2.2
      | none => false)).getD s

/-! ### COMMIT, HOLD, RESUME (R61, R191, R193) -/

/-- A COMMIT arrives: it names the last committed sequence. -/
def State.takeCommit (s : State) (b : Billet) : State :=
  match s.outFlow b with
  | none => s.tagDrop
  | some (c, f, _, x, r) =>
    let n := min (pAt b.data 0 4 + 1) x.items.length
    let s := if x.committedBy r < n then s.rearm c else s
    (s.modOut c f fun x => x.commit r n).pumpAll

/-- Byte of SRC from which flow `f` needs it to send again from its item `n` on. -/
def PC.srcFrom (c : PC) (pl : Plane) (f : FlowOut) (n pos : Nat) : Nat := ((c.ownLeft pl f n).map c.srcByte).foldl min pos

/-- Flow `f` of heat `c` goes on from item `n`, at the word of its peer. What of SRC it sends again is read again from the host, never taken
from staging (R184): the stream goes back, a read under way is discarded, and grants that are out stay to be answered (R361). A paused heat
reads again when it resumes (R193). -/
def State.goBack (s : State) (c f n : Nat) : State :=
  match s.heat c with
  | none => s
  | some h =>
    match h.dp.outs[f]?, h.dp.streams.find? fun x => x.id = .src && !x.write with
    | some x, some st =>
      let p := h.pc.srcFrom h.dp x n st.pos
      let s := s.modOut c f fun x => { x with next := n }
      if h.paused || x.next ≤ n || st.pos ≤ p then s
      else
        let s : State := if st.isMem then s.dropSrc c else { s with wld := { s.wld with late := s.wld.late ++ st.lateGrants } }
        s.modDp c fun pl => { pl with streams := pl.streams.map fun (y : Stream) => if y.id = .src && !y.write then y.backTo p else y }
    | _, _ => s.modOut c f fun x => { x with next := n }

/-- A HOLD arrives: the flow goes back to the refused sequence and stops. -/
def State.takeHold (s : State) (b : Billet) : State :=
  match s.outFlow b with
  | none => s.tagDrop
  | some (c, f, _, x, _) =>
    ((s.goBack c f (min x.next (pAt b.data 0 4))).modOut c f fun x => { x with stopped := true }).pumpAll

/-- A RESUME arrives: it reports every earlier commit, and the flow goes on from the sequence it names. -/
def State.takeResume (s : State) (b : Billet) : State :=
  match s.outFlow b with
  | none => s.tagDrop
  | some (c, f, _, x, r) =>
    let n := min (pAt b.data 0 4) x.items.length
    let s := if x.committedBy r < n then s.rearm c else s
    (((s.modOut c f fun x => x.commit r n).goBack c f n).modOut c f fun x => { x with stopped := false }).pumpAll

/-! ### Beacons (R194) -/

/-- The heat, and the rank of the peer, that a BEACON's tag names. -/
def State.beaconFlow (s : State) (b : Billet) : Option (Nat × Heat × Nat) :=
  match s.inFlow b with
  | some (c, _, h, fi) => some (c, h, fi.peer)
  | none => (s.outFlow b).map fun x => (x.1, x.2.2.1, x.2.2.2.2)

/-- A count is new for an origin. -/
def Heat.newCount (h : Heat) (origin : Nat) (n : BitVec 16) : Bool :=
  match h.run.seen.find? fun e => e.1 = origin with
  | none => true
  | some e => decide (1 ≤ (n - e.2.1).toNat ∧ (n - e.2.1).toNat ≤ 32767)

/-- A peer says itself that it is paused, in a beacon no older than the last count taken: it is sent nothing more until its RESUME (R193,
R194). -/
def Heat.heed (h : Heat) (r origin : Nat) (n : BitVec 16) : Heat :=
  if r = origin && (h.newCount origin n || h.run.seen.any fun e => e.1 = origin && e.2.1 = n) then
    { h with dp := { h.dp with outs := h.dp.outs.map fun f => if f.peers.elem origin then { f with stopped := true } else f } }
  else h

/-- A BEACON arrives (R194): a direct one that says PAUSED stops the flows to its origin; a new count re-arms the watchdog and is
relayed. -/
def State.takeBeacon (s : State) (b : Billet) : State :=
  match s.beaconFlow b with
  | none => s.tagDrop
  | some (c, h, r) =>
    let origin := pAt b.data 0 2
    let n : BitVec 16 := BitVec.ofNat 16 (pAt b.data 2 2)
    let paused := bit b.data 32
    let s := if paused then s.modHeat c fun h => h.heed r origin n else s
    if h.newCount origin n then
      let now := s.time.now
      let s := s.modHeat c fun h =>
        { h with run := { h.run with seen := (h.run.seen.filter fun e => e.1 ≠ origin) ++ [(origin, n, now)] } }
      ((s.rearm c).sendBeacons c origin n paused (some r)).pumpAll
    else s

/-! ### BARRIER and COUNTS (R39, R262, R263) -/

/-- An ARRIVE from a child. -/
def State.takeArrive (s : State) (b : Billet) : State :=
  match s.inFlow b with
  | none => s.tagDrop
  | some (c, _, h, fi) =>
    if h.id.d.kind ≠ .barrier then s
    else
      let s := s.modHeat c fun h =>
        { h with grp := { h.grp with arrived := if h.grp.arrived.elem fi.peer then h.grp.arrived else h.grp.arrived ++ [fi.peer] } }
      (s.rearm c).pumpAll

/-- A RELEASE from the parent: it goes on to the children unchanged, and the rank releases. -/
def State.takeRelease (s : State) (b : Billet) : State :=
  match s.inFlow b with
  | none => s.tagDrop
  | some (c, _, h, _) =>
    if h.id.d.kind ≠ .barrier || h.grp.releaseT.isSome then s
    else
      let s := h.kids.foldl (fun s r => s.sendBarrier c r true b.data) (s.rearm c)
      (s.barrierRelease c (BitVec.ofNat 64 (pAt b.data 16 8))).pumpAll

/-- A count of ALLTOALL. -/
def State.takeCounts (s : State) (b : Billet) : State :=
  match s.inFlow b with
  | none => s.tagDrop
  | some (c, _, h, fi) => if h.id.d.kind = .alltoall then (s.takeCount c fi.peer (pAt b.data 0 4)).pumpAll else s

/-! ### Commands -/

/-- READY (R32). -/
def execReady (p : PortId) (b : Billet) (s : State) : Out :=
  .next (if bit b.seq 0 then s else s.receipt p b kReady fun s => s.takeReady b)

/-- READY_REPLY (R32). -/
def execReadyReply (p : PortId) (b : Billet) (s : State) : Out :=
  .next (if !bit b.seq 0 then s else s.receipt p b kReady fun s => s.takeReply b)

/-- DATA (R191): bits of Hearth words may have flipped before it (R131). -/
def execData (p : PortId) (b : Billet) (flips : List Flip) (s : State) : Out := .next ((s.flips flips).item p b false)

/-- MASK (R203). -/
def execMask (p : PortId) (b : Billet) (s : State) : Out :=
  .next (s.item p b true)

/-- COMMIT (R191). -/
def execCommit (p : PortId) (b : Billet) (s : State) : Out := .next (s.receipt p b kCommit fun s => s.takeCommit b)

/-- HOLD (R61). -/
def execHold (p : PortId) (b : Billet) (s : State) : Out := .next (s.receipt p b kHold fun s => s.takeHold b)

/-- RESUME (R61, R193). -/
def execResume (p : PortId) (b : Billet) (s : State) : Out := .next (s.receipt p b kResume fun s => s.takeResume b)

/-- BEACON (R194). -/
def execBeacon (p : PortId) (b : Billet) (s : State) : Out := .next (s.receipt p b kBeacon fun s => s.takeBeacon b)

/-- BARRIER_ARRIVE (R263): SEQ[0] is 0 (R262). -/
def execBarrierArrive (p : PortId) (b : Billet) (s : State) : Out :=
  .next (if bit b.seq 0 then s else s.receipt p b kBarrier fun s => s.takeArrive b)

/-- BARRIER_RELEASE (R263): SEQ[0] is 1 (R262). -/
def execBarrierRelease (p : PortId) (b : Billet) (s : State) : Out :=
  .next (if !bit b.seq 0 then s else s.receipt p b kBarrier fun s => s.takeRelease b)

/-- COUNTS (R39). -/
def execCounts (p : PortId) (b : Billet) (s : State) : Out := .next (s.receipt p b kCounts fun s => s.takeCounts b)

/-- CIRCUIT_SETUP (R217): at every engine of the path. -/
def execCircuitSetup (p : PortId) (b : Billet) (s : State) : Out :=
  .next (if isCircuitSub b circSetup then (s.setupHop p b).pumpAll else s)

/-- CIRCUIT_CONFIRM (R217): at the source. -/
def execCircuitConfirm (p : PortId) (b : Billet) (s : State) : Out :=
  .next (if isCircuitSub b circConfirm then s.receipt p b kCircuit fun s => (s.confirmed b).pumpAll else s)

/-- CIRCUIT_REFUSE (R217): at the source. -/
def execCircuitRefuse (p : PortId) (b : Billet) (s : State) : Out :=
  .next (if isCircuitSub b circRefuse then s.receipt p b kCircuit fun s => (s.refusedHere b).pumpAll else s)

/-- CIRCUIT_RELEASE (R217): at every engine of the path. -/
def execCircuitRelease (p : PortId) (b : Billet) (s : State) : Out :=
  .next (if isCircuitSub b circRelease then (s.releaseHop p b).pumpAll else s)

/-- CIRCUIT_FORWARD (R216). -/
def execCircuitForward (p : PortId) (b : Billet) (s : State) : Out :=
  .next (if onCircuit b then (s.ingress p b true).pumpAll else s)

/-- BILLET_INGRESS (R206). -/
def execBilletIngress (p : PortId) (b : Billet) (s : State) : Out :=
  .next (if onCircuit b then s else (s.ingress p b false).pumpAll)

/-- MGMT_NOTICE (R319). -/
def execMgmtNotice (p : PortId) (b : Billet) (s : State) : Out := .next (s.receipt p b kMgmt fun s => s.mailbox b)

end Sys2Proof.Machine
end

