-- ==== Sys2Proof/Machine/Barriers.lean ====
section
/-! DEFINITION. Barrier pages of the pick port (R257, R258), the wake of a context that waits on a barrier (R260) and the in-step
release (R269). -/

namespace Sys2Proof.Machine

/-- Why a write to the page of a barrier object has no effect, if it has none (R258, R283, R298, R396). -/
def State.barRefused (s : State) (rid : BitVec 16) (b : Nat) : Option (BitVec 3) :=
  match s.partOfBar b with
  | none => some causeOwner
  | some p =>
    if (s.part p).requester ≠ rid then some causeOwner
    else if s.replaying (some p) then some causeReplay
    else if (s.part p).state = .resetting || (s.part p).state = .releasing then some causeResetting
    else none

/-- A host arrival or arm that reaches an object re-arms the watchdog of the heat that holds it (R309). -/
def State.barRearm (s : State) (b : Nat) : State :=
  match s.heatList.find? fun e => e.2.live && e.2.run.obj = some b with
  | some e => s.rearm e.1
  | none => s

/-- An arrival on an object (R257), recorded (R280). -/
def State.hostArrive (s : State) (b : Nat) : State :=
  (((s.traceInput (s.partOfBar b) 6 [(b, 70)]).barArrive b).barRearm b)

/-- An arm of an object (R257, R258), recorded: one that a heat holds refuses it. -/
def State.hostArm (s : State) (b : Nat) (n : BitVec 16) : State :=
  let s := s.traceInput (s.partOfBar b) 6 [(b, 70), (1, 69), (n.toNat, 53)]
  let s := if (s.bar b).held then { s with tng := { s.tng with barHeld := satInc s.tng.barHeld } } else s.barArm b n
  s.barRearm b

/-- A page write with a reserved bit set (R258). -/
def State.barBad (s : State) : State := { s with tng := { s.tng with barBadwr := satInc s.tng.barBadwr } }

/-- A write to +0x0 of a barrier page. -/
def State.barWrite0 (s : State) (rid : BitVec 16) (b : Nat) (v : W32) : State :=
  match s.barRefused rid b with
  | some cause => s.pickReject cause rid
  | none => if fieldN v 1 31 ≠ 0 then s.barBad else if bit v 0 then s.hostArrive b else s

/-- A write to +0x4 of a barrier page. -/
def State.barWrite4 (s : State) (rid : BitVec 16) (b : Nat) (v : W32) : State :=
  match s.barRefused rid b with
  | some cause => s.pickReject cause rid
  | none => if fieldN v 16 16 ≠ 0 then s.barBad else s.hostArm b (field v 0 16)

/-- The register of a barrier page at an offset (R258). -/
def Bar.read (b : Bar) (off : Nat) : W32 :=
  if off = 8 then assemble 32 [(b2n b.armed, 31), (b2n b.held, 30), (b.count.toNat, 0)]
  else if off = 12 then b.releases
  else 0

/-- The context of a heat that a release has woken resumes (R260). -/
def State.barrierWakes (s : State) (c : Nat) : State :=
  match s.heat c with
  | none => s
  | some h =>
    if !h.live || !h.grp.released then s
    else if h.id.d.kind = .barrier then ((s.advanceTo h.run.due).endHeat c .ok).pumpAll
    else if h.id.d.kind = .rotate && h.run.obj.isSome && h.dp.stepNo = h.dp.stepGo && h.dp.stepNo < h.id.w.steps then
      ((s.advanceTo h.run.due).rotateNext c).pumpAll
    else s

/-- The machine time T × 10 comes, and a rank releases its in-step BARRIER heat (R269). -/
def State.instepReleases (s : State) (c : Nat) : State :=
  match s.heat c with
  | none => s
  | some h =>
    match h.grp.releaseT with
    | some t =>
      if !h.live || h.id.d.kind ≠ .barrier || h.grp.released || t = 0 || !s.time.running || 2 ^ 64 ≤ t.toNat * 10 then s
      else
        let s := s.advanceTo (s.time.now + (t.toNat * 10 - s.machineTime.toNat) * 640)
        ((s.modHeat c fun h => { h with grp := { h.grp with released := true } }).endHeat c .ok).pumpAll
    | none => s

/-! ### Commands -/

/-- ARRIVE (R257). -/
def execArrive (rid : BitVec 16) (obj : BitVec 14) (v : W32) (s : State) : Out :=
  .next (if s.mgmtReady then (s.barWrite0 rid obj.toNat v).pumpAll else s)

/-- ARM (R257). -/
def execArm (rid : BitVec 16) (obj : BitVec 14) (v : W32) (s : State) : Out :=
  .next (if s.mgmtReady then (s.barWrite4 rid obj.toNat v).pumpAll else s)

/-- BARRIER_WAKE (R260). -/
def execBarrierWake (ctx : BitVec 12) (s : State) : Out := .next (s.barrierWakes ctx.toNat)

/-- INSTEP_RELEASE (R269). -/
def execInstepRelease (ctx : BitVec 12) (s : State) : Out := .next (s.instepReleases ctx.toNat)

end Sys2Proof.Machine
end

