-- ==== Sys2Proof/Machine/Time.lean ====
section
/-! DEFINITION. The epoch counter (R264), the exchanges between racks (R267) and the offsets that leads and members apply (R268). -/

namespace Sys2Proof.Machine

/-- Roles of CTL_TIME_CTL (R271). -/
def roleMaster : BitVec 2 := 0
def roleLead : BitVec 2 := 1
def roleMember : BitVec 2 := 2

/-- The period of the epoch pulse, in refclk periods. -/
def pulseLen : Nat := 2 ^ 20

/-! ### The pulse (R264, R268) -/

/-- Go on to the next edge of refclk: an epoch pulse comes at one. -/
def State.toEdge (s : State) : State :=
  if s.time.running then s.advanceTo (s.time.epochAt + ceilDiv (s.time.now - s.time.epochAt) refPs * refPs) else s

/-- The value of the counter after a pulse that finds it at `e`. -/
def afterPulse (e : Nat) : Nat :=
  (e / pulseLen + (if pulseLen / 2 ≤ e % pulseLen then 1 else 0)) * pulseLen

/-- The correction applies at the pulse that has come (R268). Lead and member count pulses, so that a slip (R264) moves neither. -/
def PendOff.due (x : PendOff) : Bool := decide (x.left ≤ 1)

/-- A pulse: the corrections that are due apply, in order; the others have one pulse less to wait for. -/
def TimeSt.applyDue (t : TimeSt) : TimeSt :=
  (t.pend.filter PendOff.due).foldl (fun t x => { t with offset := x.offset, locked := x.locked.getD t.locked })
    { t with pend := (t.pend.filter fun x => !x.due).map fun x => { x with left := x.left - 1 } }

/-- An epoch pulse. The first starts the alignment generators, where boot waits for it (R347). -/
def State.pulse (s : State) : State :=
  if !s.time.running then
    let s : State := { s with time := { s.time with running := true, epochBase := pulseLen, epochAt := s.time.now }.applyDue }
    if s.boot.state = .align then s.startFrames else s
  else
    let s := s.toEdge
    let e := s.epoch.toNat
    { s with time := { s.time with
        epochBase := afterPulse e % 2 ^ 64, epochAt := s.time.now
        slip := if e % pulseLen = 0 then s.time.slip else satInc s.time.slip }.applyDue }

/-! ### TIME billets (R267) -/

/-- A TIME billet of a subtype. Bytes 40 and 41 hold the sender's endpoint in REQ and QUERY, and SEQ[3] holds LOCKED in STATE
(log 15: the spec gives neither a place). -/
def timeBillet (dest : BitVec 16) (sub : Nat) (locked : Bool) (ws : List (Nat × Nat)) : Billet :=
  { dest := dest, key := 0, kind := kTime, vc := 0, gen := 0, tag := 0, seq := BitVec.ofNat 13 (sub + 8 * b2n locked)
    data := payloadAt ws }

/-- Send a TIME billet whose time of sending is taken when its frame is sent (R267). Those noted before that no longer wait here are
forgotten. -/
def State.sendTimed (s : State) (b : Billet) : State :=
  let waits (x : Billet) : Bool :=
    (s.ports.any fun e => e.2.tx.queue.elem x) || s.route.hold.any fun h => h.waiting.elem x
  ({ s with time := { s.time with unsent := s.time.unsent.filter waits ++ [b] } }).inject b

/-- The machine time at which the frame of a received TIME billet crossed the PMA interface (R267), and the state without it; now,
for a billet that has come without a frame. -/
def State.receivedAt (s : State) (b : Billet) : W64 × State :=
  match s.time.stamps.find? fun x => x.1 = b with
  | some x => (x.2, { s with time := { s.time with stamps := s.time.stamps.erase x } })
  | none => (s.machineTime, s)

/-- A REQ is answered with RESP: t1 as it came, t2 its reception, t3 the sending of RESP. -/
def State.timeReqIn (s : State) (b : Billet) : State :=
  let r := s.receivedAt b
  let t := r.1.toNat
  r.2.sendTimed (timeBillet (BitVec.ofNat 16 (pAt b.data 40 2)) 1 false [(pAt b.data 0 8, 0), (t, 8), (s.machineTime.toNat, 16)])

/-- θ (R267). -/
def theta (t1 t2 t3 t4 : W64) (asym : BitVec 16) : Int := ((t2 - t1).toInt - (t4 - t3).toInt - asym.toInt).tdiv 2

/-- The offset that will hold when all pending corrections have been applied. -/
def TimeSt.lastOffset (t : TimeSt) : W32 := ((t.pend.getLast?).map fun x => x.offset).getD t.offset

/-- The epoch that the `n`-th pulse from now is due to give. -/
def State.pulseEpoch (s : State) (n : Nat) : W64 := BitVec.ofNat 64 ((s.epoch.toNat / pulseLen + n) * pulseLen)

/-- The pulses from now up to the one that is due to give an epoch. -/
def State.pulsesTo (s : State) (e : Nat) : Nat := e / pulseLen - s.epoch.toNat / pulseLen

/-- A RESP at the lead: the correction that its exchange gives (R267, R268). -/
def State.timeRespIn (s : State) (b : Billet) : State :=
  let w (k : Nat) : W64 := BitVec.ofNat 64 (pAt b.data (8 * k) 8)
  let r := s.receivedAt b
  let t4 := r.1
  let s := r.2
  if s.time.role = roleLead && s.time.exch = some (w 0) then
    let th := theta (w 0) (w 1) (w 2) t4 s.time.asym
    let step := 64 < th.natAbs
    let n := if th.natAbs ≤ 2 then s.time.small + 1 else 0
    let p : PendOff :=
      { offset := s.time.lastOffset + BitVec.ofInt 32 (if step then th else th.sign), left := 2
        locked := if step then some false else if 3 ≤ n then some true else none }
    { s with time := { s.time with exch := none, small := n, pend := s.time.pend ++ [p] } }
  else s

/-- A QUERY at the lead, or at the master, which always holds 0 and is LOCKED (R268). -/
def State.timeQueryIn (s : State) (b : Billet) : State :=
  let dest := BitVec.ofNat 16 (pAt b.data 40 2)
  let off (x : W32) : Nat := (x.signExtend 64).toNat
  if s.time.role = roleMaster then s.inject (timeBillet dest 3 true [])
  else if s.time.role = roleLead then
    match s.time.pend.getLast? with
    | some p => s.inject (timeBillet dest 3 s.time.locked [(off p.offset, 24), ((s.pulseEpoch p.left).toNat, 32)])
    | none => s.inject (timeBillet dest 3 s.time.locked [(off s.time.offset, 24)])
  else s

/-- A STATE at a member: the offset applies at the pulse whose epoch it names, or at the next one. -/
def State.timeStateIn (s : State) (b : Billet) : State :=
  if s.time.role = roleMember then
    let p : PendOff :=
      { offset := BitVec.ofNat 32 (pAt b.data 24 4), left := max 1 (s.pulsesTo (pAt b.data 32 8)), locked := none }
    { s with time := { s.time with
        locked := bit b.seq 3, pend := (s.time.pend.filter fun x => x.left ≠ p.left) ++ [p] } }
  else s

/-! ### Periods -/

/-- A lead begins an exchange; one still open is over (R267). -/
def State.exchange (s : State) : State :=
  if s.time.role ≠ roleLead then s
  else
    let s := s.advanceTo (s.time.exchAt + s.time.periodMs.toNat * msPs)
    let t1 := s.machineTime
    let s := { s with time := { s.time with
        lost := if s.time.exch.isSome then satInc s.time.lost else s.time.lost, exch := some t1, exchAt := s.time.now } }
    s.sendTimed (timeBillet s.time.upstream 0 false [(t1.toNat, 0), (s.own.toNat, 40)])

/-- No RESP within 1 ms (R267). -/
def State.exchangeLost (s : State) : State :=
  if s.time.role = roleLead && s.time.exch.isSome then
    let s := s.advanceTo (s.time.exchAt + msPs)
    { s with time := { s.time with exch := none, lost := satInc s.time.lost } }
  else s

/-- A member asks its lead (R268). -/
def State.memberAsks (s : State) : State :=
  if s.time.role ≠ roleMember then s
  else
    let s := s.advanceTo (s.time.exchAt + msPs)
    let s := { s with time := { s.time with exchAt := s.time.now } }
    s.inject (timeBillet s.time.upstream 2 false [(s.own.toNat, 40)])

/-! ### Commands -/

/-- A TIME billet of a subtype has come. -/
def State.timeIn (s : State) (p : PortId) (b : Billet) (sub : Nat) (f : State → State) : State :=
  if fieldN b.seq 0 3 = sub then s.receipt p b kTime f else s

/-- EPOCH_PULSE (R264). -/
def execEpochPulse (s : State) : Out := .next (if s.boot.porLow then s else s.pulse)

/-- TIME_REQ (R267). -/
def execTimeReq (p : PortId) (b : Billet) (s : State) : Out := .next (s.timeIn p b 0 fun s => s.timeReqIn b)

/-- TIME_RESP (R267). -/
def execTimeResp (p : PortId) (b : Billet) (s : State) : Out := .next (s.timeIn p b 1 fun s => s.timeRespIn b)

/-- TIME_QUERY (R268). -/
def execTimeQuery (p : PortId) (b : Billet) (s : State) : Out := .next (s.timeIn p b 2 fun s => s.timeQueryIn b)

/-- TIME_STATE (R268). -/
def execTimeState (p : PortId) (b : Billet) (s : State) : Out := .next (s.timeIn p b 3 fun s => s.timeStateIn b)

/-- TIME_EXCHANGE_PERIOD (R267). -/
def execTimeExchangePeriod (s : State) : Out := .next s.exchange

/-- TIME_RESP_TIMEOUT (R267). -/
def execTimeRespTimeout (s : State) : Out := .next s.exchangeLost

/-- MEMBER_QUERY_PERIOD (R268). -/
def execMemberQueryPeriod (s : State) : Out := .next s.memberAsks

end Sys2Proof.Machine
end

