-- ==== Sys2Proof/Machine/Weld.lean ====
section
/-! DEFINITION. The channels of Weld: grants and beats of weld streams (R185, R361), memory responses (R364), the pick port's
responses (R367), translation and page replies (R188, R193, R368), invalidations (R189), the throttle (R187); pauses and
their end (R193 to R195); the timers of heats. -/

namespace Sys2Proof.Machine

/-! ### Weld streams (R185, R360, R361) -/

/-- Index of a heat's inbound weld stream. -/
def Heat.weldIn (h : Heat) : Option Nat :=
  h.dp.streams.findIdx? fun x => !x.write && !x.isMem

/-- A stream's grants may begin again: no beat of an earlier grant of its tag is still to come (R361). -/
def State.lateOf (s : State) (x : Place) : Bool :=
  match x with
  | .weld p t => s.wld.late.any fun l => l.1 = p && l.2.1 = t
  | _ => false

/-- The half of the pair that the next grant fills is free (R184, R361). -/
def Stream.grantFits (st : Stream) (taken : Nat) : Bool := ({ st with pos := st.granted * st.weldUnit } : Stream).mayFill taken

/-- Weld grants the next elements of a heat's inbound stream. -/
def State.grantNext (s : State) (c : Nat) : State :=
  match s.heat c with
  | none => s
  | some h =>
    match h.weldIn with
    | none => s
    | some i =>
      match h.dp.streams[i]? with
      | none => s
      | some st =>
        if h.run.phase ≠ .run || h.paused || st.wait = .done || st.wait = .staging || s.lateOf st.place ||
            2 ≤ st.beats.length || st.weldUnits ≤ st.granted || !(st.grantFits (h.taken st)) then s
        else
          let s := s.weldStage c i h st
          match (s.heat c).bind fun h => h.dp.streams[i]? with
          | some x =>
            if x.staged then
              s.modStream c i fun x => { x with granted := x.granted + x.grantUnits, beats := x.beats ++ [x.grantUnits] }
            else s
          | none => s

/-- Remove the first entry that a test finds. -/
def dropFirst {α : Type} (f : α → Bool) : List α → List α
  | [] => []
  | x :: t => if f x then t else x :: dropFirst f t

/-- A set mask bit makes bytes of the source absent (R196). -/
def Heat.maskCounts (h : Heat) (k : Nat) : Bool :=
  h.id.d.kind.adding && !(hostFmt h.id.d).isPacked &&
    (h.id.d.kind ≠ .softmax || decide (k % h.pc.rowBytes h.id.d.outFmt < 4))

/-- What byte `k` of the source is when its beat never comes (R185): absent in the kinds that add; a byte that the spec does
not state otherwise, drawn as free value `n + k`. -/
def Heat.missing (h : Heat) (n k : Nat) : Option Byte :=
  if h.id.d.kind.adding && (h.id.d.kind ≠ .softmax || decide (k % h.pc.rowBytes h.id.d.outFmt < 4)) then none
  else some (Config.freeByte (n + k))

/-- The live heat that receives under a tag of a weld port, and its stream; a stream of which every grant has had its last beat is no longer
live (R185, R361). -/
def State.weldFor (s : State) (port : BitVec 5) (tag : BitVec 16) : Option (Nat × Heat × Nat × Stream) :=
  s.heatList.findSome? fun e =>
    if !e.2.live then none
    else (e.2.weldIn).bind fun i => (e.2.dp.streams[i]?).bind fun st =>
      if st.place = .weld port tag && (st.beats ≠ [] || decide (st.granted < st.weldUnits)) then some (e.1, e.2, i, st) else none

/-- An inbound beat (R185, R361): one of a late grant is discarded uncounted; one of no live stream is counted. -/
def State.beatIn (s : State) (port : BitVec 5) (tag : BitVec 16) (data : BitVec 1024) (mask : W32) (last : Bool) : State :=
  let mine (l : BitVec 5 × BitVec 16 × Nat) : Bool := l.1 = port && l.2.1 = tag
  if s.wld.late.any mine then
    if last then { s with wld := { s.wld with late := dropFirst mine s.wld.late } } else s
  else
    match s.weldFor port tag with
    | none => { s with wld := { s.wld with noTag := satInc s.wld.noTag } }
    | some (c, h, i, st) =>
      let n := s.freeCtr
      let r := st.beatIn data mask last h.maskCounts (h.missing n)
      let s := (s.modStream c i fun _ => r.1)
      let s : State := { s with
        freeCtr := n + st.total
        wld := { s.wld with
          short_ := if r.2.1 then satInc s.wld.short_ else s.wld.short_
          long_ := if r.2.2 then satInc s.wld.long_ else s.wld.long_ } }
      s.pumpAll

/-- The outbound beat that a port holds completes its handshake (R185): its elements are committed. -/
def State.beatOut (s : State) (port : BitVec 5) : State :=
  match s.wld.out.find? fun e => e.1 = port with
  | none => s
  | some e =>
    let c := e.2.2.2.2.2
    let s : State := { s with wld := { s.wld with out := dropFirst (fun (x : BitVec 5 × BitVec 16 × BitVec 1024 × W32 × Bool × Nat) => x.1 = port) s.wld.out } }
    match s.heat c with
    | none => s.pumpAll
    | some h =>
      let sent (st : Stream) : Stream :=
        if st.write && decide (st.place = .weld port e.2.1) then
          (if h.live then st.beatOut else { st.beatOut with wait := .done, staged := false })
        else st
      let s := s.modDp c fun pl => { pl with streams := pl.streams.map sent }
      ((if h.live then s.rearm c else s)).pumpAll

/-! ### Page requests, pauses and their end (R193 to R195) -/

/-- Raise the page request of a translation that has faulted. -/
def State.askPage (s : State) (x : XReq) : Option (Nat × State) :=
  (s.askXlate { x with page := true }).map fun r =>
    (r.1, { r.2 with wld := { r.2.wld with faults := satInc r.2.wld.faults } })

/-- PAUSE_CAP of a heat, in ps; queue 0 has none (R195). -/
def State.capPs (s : State) (h : Heat) : Option Nat := h.id.part.map fun p => (s.part p).pauseCap.toNat * msPs

/-- Send a pause beacon of a heat: the next count (R194). -/
def State.pauseBeacon (s : State) (c : Nat) : State :=
  match s.heat c with
  | none => s
  | some h =>
    let n := h.run.beacons + 1
    let s := s.modHeat c fun h => { h with run := { h.run with beacons := n, lastBeacon := s.time.now } }
    s.sendBeacons c h.grp.rank n true none

/-- The reads that a heat has issued complete, and their data is discarded (R193). -/
def State.dropReads (s : State) (c : Nat) : State :=
  let mine (o : ReqFor) : Bool := match o with
    | .stream x _ => x = c
    | _ => false
  { s with wld := { s.wld with
      mem := s.wld.mem.map fun e => (e.1, e.2.map fun r => if mine r.owner && !r.write && !r.slag then { r with drop := true } else r) } }

/-- A stream stops (R193): its staging pair is free; a write in flight, and a beat that the port holds, complete. -/
def Stream.stop (st : Stream) (raised : Bool) : Stream :=
  { st with staged := false, beats := []
            wait := match st.wait with
              | .mem t => if st.write then .mem t else .idle
              | .grant => if raised then .grant else .idle
              | .done => .done
              | _ => .idle }

/-- A heat pauses on a fault of stream `i` (R193): steps 1 to 4. -/
def State.pauseHeat (s : State) (c i : Nat) (x : XReq) : State :=
  match s.heat c with
  | none => s
  | some h =>
    let s := (s.lateGrants h).dropReads c
    let s := { s with wld := { s.wld with out := dropBeats c s.wld.out } }
    let raised := s.wld.out.any fun e => e.2.2.2.2.2 = c
    let now := s.time.now
    let spent : Bool := match s.capPs h with
      | some cap => decide (cap ≤ h.run.pausedTotal)
      | none => false
    let s := s.modHeat c fun h =>
      { h with
        run := { if spent then h.run else h.run.stopWdog now with pausedAt := some now, capped := spent }
        dp := { h.dp with streams := h.dp.streams.map fun (st : Stream) => st.stop raised } }
    let s : State := if h.id.d.kind.needsAnvil then { s with power := { s.power with anvilIdle := now } } else s
    let s := match s.askPage x with
      | some r => r.2.modStream c i fun st => { st with wait := .page r.1 }
      | none => s
    if spent then s else s.pauseBeacon c

/-- The page is there: a paused heat goes on from its cursors (R193, step 5). It wakes Anvil where none is powered any more (R354). -/
def State.resumeHeat (s : State) (c : Nat) : State :=
  match s.heat c with
  | none => s
  | some h =>
    let now := s.time.now
    let wait (w : Wait) : Wait := match w with
      | .page _ => .idle
      | w => w
    let s := s.modHeat c fun h =>
      let pl := h.pc.rewind h.dp
      { h with
        run := { if h.run.waking then h.run else h.run.runWdog now with
          pausedTotal := h.run.pausedTotal + (now - h.run.pausedAt.getD now), pausedAt := none, capped := false }
        dp := { pl with
          streams := pl.streams.map fun (st : Stream) => { st with wait := wait st.wait } } }
    (((List.range h.dp.ins.length).foldl (fun s f => s.sendResume c f) s).runWake c).pumpAll

/-! ### Memory responses (R306, R307, R364) -/

/-- Count a response that is slag (R306). -/
def State.slagMem (s : State) : State := { s with tng := { s.tng with slagMem := satInc s.tng.slagMem } }
def State.slagXlate (s : State) : State := { s with tng := { s.tng with slagXlate := satInc s.tng.slagXlate } }
/-- Count an error response (R364, R383). -/
def State.errData (s : State) : State := { s with wld := { s.wld with memData := satInc s.wld.memData } }
def State.errFetch (s : State) : State := { s with wld := { s.wld with memFetch := satInc s.wld.memFetch } }
def State.errOther (s : State) : State := { s with wld := { s.wld with memOther := satInc s.wld.memOther } }

/-- An entry of the recording is lost at its place in the buffer (R282, R364). -/
def State.traceLost (s : State) (n : Nat) : State :=
  { s with trc := { s.trc with
      drop := satInc s.trc.drop, incomplete := true
      gap := some (match s.trc.gap with
        | some g => min g n
        | none => n) } }

/-- A response to an access of a heat's stream. -/
def State.streamAnswer (s : State) (c : Nat) (st : StreamId) (r : MemReq) (ok : Bool) (rdata : Payload) : State :=
  match s.heat c with
  | none => s
  | some h =>
    let take (f : Stream → Stream) (s : State) : State :=
      s.modDp c fun pl => { pl with streams := pl.streams.map fun (x : Stream) => if x.id = st then f x else x }
    if !h.live then
      let s := s.slagMem
      take (fun x => if ok then { x.answered rdata with wait := .done } else { x with wait := .done }) s
    else if !ok then s.errData.stopHeat c .xlateFail
    else if r.drop then s
    else
      let s := take (fun x => x.answered rdata) s
      if r.write then s.rearm c else s

/-- A memory response (R364). -/
def State.memAnswer (s : State) (tag : Nat) (ok : Bool) (rdata : Payload) : State :=
  match Tbl.get none s.wld.mem tag with
  | none => s
  | some r =>
    let full := s.tagsFull
    let s := { s with wld := { s.wld with mem := Tbl.set none s.wld.mem tag none } }
    let s := match r.owner with
      | .fetch q idx =>
        if r.slag then (if ok then s else if r.drop then s.errFetch.foundToo q reasonFetch else s.errFetch)
        else if ok then s.fetched q idx rdata
        else s.errFetch.fetchFails q idx
      | .stream c st => if r.slag then s.slagMem else s.streamAnswer c st r ok rdata
      | .pin _ _ | .cmpl _ | .bad _ => s
      | .trace n => if ok then s else s.errOther.traceLost n
      | .replay n => if ok then s.replayGot n rdata else if s.trc.replay then s.diverge 4 n else s
      | .crash c => if ok then s.crashStep c else s.errOther.skipSample c
    let s := if full then s.serveTags else s
    (match r.owner with
      | .fetch q _ => if r.slag then s else s.fetch q 8
      | _ => s).pumpAll

/-! ### Translation and page replies (R188, R193, R368) -/

/-- Take an outstanding request from the translation port. -/
def State.takeXlate (s : State) (id : Nat) (page : Bool) : Option (XReq × State) :=
  match Tbl.get none s.wld.xl id with
  | some x => if x.page = page then some (x, { s with wld := { s.wld with xl := Tbl.set none s.wld.xl id none } }) else none
  | none => none

/-- CMPL_ADDR of a malformed chain has its translation, and its record is written (R174); or it has none, and there is no record. -/
def State.badThere (s : State) (q : Nat) (x : XReq) (e : Option XEnt) : State :=
  match e with
  | some e =>
    let s := (s.cacheAdd e).modQueue q fun y => { y with bad := y.bad.map fun b =>
      if b.pa.isNone && b.va.toNat / 4096 = x.vpage then { b with pa := some (e.phys b.va.toNat, e.size) } else b }
    (List.range 64).foldl (fun s _ => s.flushBad q) s
  | none => s.modQueue q fun y => { y with bad := y.bad.filter fun b => !(b.asked && b.pa.isNone && b.va.toNat / 4096 = x.vpage) }

/-- CMPL_ADDR of the chain under validation cannot be translated: the chain is malformed (R173). -/
def State.cmplFails (s : State) (q : Nat) : State := if (s.queue q).cmplWait then s.malformed q reasonCmpl none else s

/-- The index of a stream of a heat. -/
def Heat.streamIdx (h : Heat) (st : StreamId) : Option Nat := h.dp.streams.findIdx? fun x => x.id = st

/-- A translation for a stream of a heat: recorded, compared with a replay, kept; or its fault pauses the heat. -/
def State.streamXlate (s : State) (id c : Nat) (st : StreamId) (x : XReq) (e : Option XEnt) : State :=
  match s.heat c with
  | none => s
  | some h =>
    match h.streamIdx st with
    | none => s
    | some i =>
      let waits : Bool := (h.dp.streams[i]?).any fun y => y.wait = .xlate id
      match e with
      | some e =>
        let s := (s.traceXlate h st e.size false false e.ppage).replayXlate h st e.size false false e.ppage
        let s := s.cacheAdd e
        s.modStream c i fun y => if waits then { y with wait := .idle } else y
      | none =>
        if !waits then s
        else
          let s := (s.traceXlate h st 0 true false 0).replayXlate h st 0 true false 0
          s.pauseHeat c i x

/-- A translation that a pinned heat takes into the pin store, one entry a page (R190), or a page request. -/
def State.pinXlate (s : State) (c : Nat) (st : StreamId) (x : XReq) (e : Option XEnt) : State :=
  match s.heat c with
  | none => s
  | some h =>
    match e with
    | some e =>
      let s := (s.traceXlate h st e.size false false e.ppage).replayXlate h st e.size false false e.ppage
      let mine (y : XEnt × Nat) : Bool := y.2 = c && decide (y.1.vpage / pageUnits e.size = e.vpage / pageUnits e.size) && (e.write || !y.1.write)
      { s with wld := { s.wld with pins := (s.wld.pins.filter fun y => !mine y) ++ [(e, c)] } }
    | none =>
      let s := (s.traceXlate h st 0 true false 0).replayXlate h st 0 true false 0
      match s.askPage x with
      | some r => r.2
      | none => s

/-- A write of ENABLE or REPLAY whose buffer cannot be translated changes nothing and answers ERROR (R282). -/
def State.traceRefused (s : State) : State :=
  let s : State := { s with trc := { s.trc with xl := [], asking := none, pendWrite := 0 } }
  s.answer rspError 0

/-- A translation of the trace buffer (R282). -/
def State.traceXl (s : State) (n : Nat) (replay : Bool) (e : Option XEnt) : State :=
  match e with
  | some e => { s with trc := { s.trc with xl := s.trc.xl ++ [e] } }
  | none =>
    if s.trc.asking.isSome then s.traceRefused
    else if replay then (if s.trc.replay then s.diverge 4 n else s)
    else
      let s := s.traceLost n
      { s with trc := { s.trc with queue := s.trc.queue.tail, issued := s.trc.issued + 1 } }

/-- A TRANSLATE reply (R368): OK, or a fault. -/
def State.xlateAnswer (s : State) (id : Nat) (ok : Bool) (size : BitVec 2) (paddr : BitVec 40) : State :=
  match s.takeXlate id false with
  | none => s
  | some (x, s) =>
    let e : Option XEnt := if ok then
        some { space := x.space, vpage := x.vpage, size := size.toNat, ppage := paddr.toNat, write := x.write } else none
    match x.owner with
      | .fetch q _ =>
        if x.slag then s
        else match e with
          | some e => (s.cacheAdd e).fetch q 8
          | none => match s.askPage x with
            | some r => r.2
            | none => s
      | .cmpl q =>
        if x.slag then s
        else match e with
          | some e => if (s.queue q).cmplWait then (s.cacheAdd e).checkChain q else s.cacheAdd e
          | none =>
            if (s.queue q).cmplWait then
              match s.askPage x with
              | some r => r.2
              | none => s
            else s
      | .bad q => s.badThere q x e
      | .stream c st => if x.slag then s.slagXlate else s.streamXlate id c st x e
      | .pin c st => if x.slag then s.slagXlate else s.pinXlate c st x e
      | .trace n => s.traceXl n false e
      | .replay n => s.traceXl n true e
      | .crash c => match e with
        | some e => (s.cacheAdd e).crashStep c
        | none => s.skipSample c

/-- Count a page request that has failed (R198). -/
def State.pageFailed (s : State) : State := { s with wld := { s.wld with fails := satInc s.wld.fails } }

/-- A PAGE_REQ reply (R193, R368). -/
def State.pageAnswer (s : State) (id : Nat) (done : Bool) : State :=
  match s.takeXlate id true with
  | none => s
  | some (x, s') =>
    let full := s.xlFull
    let s := if done then s' else s'.pageFailed
    let s := match x.owner with
      | .fetch q idx => if x.slag then (if x.drop && !done then s.foundToo q reasonFetch else s) else if done then s.fetch q 8 else s.fetchFails q idx
      | .cmpl q =>
        if x.slag then (if x.drop && !done then s.foundToo q reasonCmpl else s)
        else if done then (s.modQueue q fun y => { y with cmplWait := false }).checkChain q
        else s.cmplFails q
      | .stream c st =>
        if x.slag then s.slagXlate
        else if done then s.resumeHeat c
        else match s.heat c with
          | some h => ((s.traceXlate h st 0 true true 0).replayXlate h st 0 true true 0).stopHeat c .xlateFail
          | none => s
      | .pin c st =>
        if x.slag then s.slagXlate
        else if done then s
        else match s.heat c with
          | some h => ((s.traceXlate h st 0 true true 0).replayXlate h st 0 true true 0).stopHeat c .xlateFail
          | none => s
      | _ => s
    (if full then s.serveXl else s).pumpAll

/-- An invalidation (R189): at most 16 await acknowledgement. -/
def State.invalidateXlate (s : State) (scope : BitVec 2) (asid : BitVec 16) (first last : BitVec 52) : State :=
  if 16 ≤ s.wld.invs.length then s
  else
    let i := (scope, asid, first.toNat, last.toNat)
    let s := s.cacheDrop fun e => invCovers i e.space e.vpage e.size
    let s : State := { s with
      wld := { s.wld with invs := s.wld.invs ++ [i] }
      trc := { s.trc with xl := s.trc.xl.filter fun e => !invCovers i e.space e.vpage e.size } }
    s.pumpAll

/-! ### Timers of heats -/

/-- 2 µs without a new billet on a flow that has commits not yet reported (R191): a paused heat reports what it has committed too, since
R193 stops its commits and not its reports. -/
def State.commitQuiet (s : State) (tag : Nat) : State :=
  match s.tag tag with
  | .recv c f =>
    match (s.heat c).bind fun h => if h.live then h.dp.ins[f]? else none with
    | some x => if x.reported < x.applied then (s.advanceTo (x.lastAt + 2 * usPs)).sendCommit c f else s
    | none => s
  | _ => s

/-- Every 50 µs a paused heat sends its beacon again (R194). -/
def State.beaconAgain (s : State) (c : Nat) : State :=
  match s.heat c with
  | none => s
  | some h => if h.live && h.paused && !h.run.capped then (s.advanceTo (h.run.lastBeacon + 50 * usPs)).pauseBeacon c else s

/-- A heat forgets its count for an origin 1 ms after it took one (R194). -/
def State.forgetCount (s : State) (c origin : Nat) : State :=
  match (s.heat c).bind fun h => h.run.seen.find? fun e => e.1 = origin with
  | none => s
  | some e => (s.advanceTo (e.2.2 + msPs)).modHeat c fun h =>
      { h with run := { h.run with seen := h.run.seen.filter fun x => x.1 ≠ origin } }

/-- The cumulative pause reaches PAUSE_CAP: no more beacons, and the watchdog runs (R195). -/
def State.capReached (s : State) (c : Nat) : State :=
  match s.heat c with
  | none => s
  | some h =>
    match s.capPs h, h.run.pausedAt with
    | some cap, some t =>
      if h.live && !h.run.capped then
        let s := s.advanceTo (t + (cap - h.run.pausedTotal))
        s.modHeat c fun h => { h with run := { if h.run.waking then h.run else h.run.runWdog s.time.now with capped := true } }
      else s
    | _, _ => s

/-- A heat's watchdog expires (R310), or does so in the tclk in which something else has ended the heat (R179). -/
def State.wdogExpires (s : State) (c : Nat) : State :=
  match s.heat c with
  | none => s
  | some h =>
    if h.live && h.id.q ≠ 0 && !h.run.wdogStopped then
      let s := s.advanceTo h.run.wdog
      let s := s.captureExpiry c h
      (((s.beginSample c).stopHeat c .abortTimeout).crashStep c).pumpAll
    else if !h.live && s.expiresNow h then ((s.captureExpiry c h).endHeat c .abortTimeout).pumpAll
    else s

/-- The hold of a flow tag ends (R308). -/
def State.tagFree (s : State) (t : Nat) : State :=
  match s.tag t with
  | .held _ u => (s.advanceTo u).setTag t .free
  | _ => s

/-- No reply to a SETUP within 1 ms (R217). -/
def State.setupTimeout (s : State) (c : Nat) : State :=
  match s.heat c with
  | none => s
  | some h =>
    if h.live && h.id.d.kind = .planLoad && h.grp.sentUp then
      ((s.advanceTo h.run.due).planFail c .noSlots).pumpAll
    else s

/-- A PARTITION_CREATE that waited for its key goes on (R292). -/
def State.keyWaitEnds (s : State) (c : Nat) : State :=
  match s.heat c with
  | none => s
  | some h =>
    if h.live && h.run.phase = .run && h.id.d.kind = .partCreate && h.run.due ≠ 0 then
      ((s.advanceTo h.run.due).startCreate c).pumpAll
    else s

/-- A PARTITION_RESET that waited for the spacing goes on (R300). -/
def State.spacingEnds (s : State) (c : Nat) : State :=
  match s.heat c with
  | none => s
  | some h =>
    if h.live && h.run.phase = .run && h.id.d.kind = .partReset && h.run.due ≠ 0 && !s.seqStopped then
      ((s.advanceTo h.run.due).startReset c).pumpAll
    else s

/-! ### Commands -/

/-- STAGING_PAIR_GRANT (R184). -/
def execStagingPairGrant (ctx : BitVec 12) (st : StreamId) (s : State) : Out :=
  .next <|
    match s.heat ctx.toNat with
    | none => s
    | some h =>
      match h.streamIdx st with
      | none => s
      | some i =>
        let waits : Bool := (h.dp.streams[i]?).any fun x => x.wait = .staging
        if h.live && !h.paused && waits && s.stagingFree h then (s.takePair ctx.toNat i).pumpAll else s

/-- WELD_GRANT (R361). -/
def execWeldGrant (ctx : BitVec 12) (s : State) : Out := .next (s.grantNext ctx.toNat)

/-- WELD_IN_BEAT (R185). -/
def execWeldInBeat (port : BitVec 5) (tag : BitVec 16) (data : BitVec 1024) (mask : W32) (last : Bool) (s : State) : Out :=
  .next (if s.mgmtReady then s.beatIn port tag data mask last else s)

/-- WELD_OUT_BEAT (R185). -/
def execWeldOutBeat (port : BitVec 5) (s : State) : Out := .next (s.beatOut port)

/-- MEMORY_RESPONSE (R364). -/
def execMemoryResponse (tag : BitVec 12) (status : BitVec 2) (rdata : Payload) (s : State) : Out :=
  .next (s.memAnswer tag.toNat (status = 0) rdata)

/-- PICK_WRITE_RESPONSE (R367). -/
def execPickWriteResponse (err : Bool) (s : State) : Out := .next (s.pickAnswered err)

/-- XLATE_INVALIDATE (R189). -/
def execXlateInvalidate (scope : BitVec 2) (asid : BitVec 16) (first last : BitVec 52) (s : State) : Out :=
  .next (s.invalidateXlate scope asid first last)

/-- THROTTLE_INPUT_CHANGE (R187). -/
def execThrottleInputChange (code : BitVec 2) (s : State) : Out :=
  .next { s with wld := { s.wld with level := code } }

/-- COMMIT_QUIET_TIMER (R191). -/
def execCommitQuietTimer (tag : BitVec 12) (s : State) : Out := .next (s.commitQuiet tag.toNat)

/-- BEACON_PERIOD (R194). -/
def execBeaconPeriod (ctx : BitVec 12) (s : State) : Out := .next (s.beaconAgain ctx.toNat)

/-- BEACON_COUNT_FORGET (R194). -/
def execBeaconCountForget (ctx : BitVec 12) (origin : BitVec 16) (s : State) : Out :=
  .next (s.forgetCount ctx.toNat origin.toNat)

/-- PAUSE_CAP_REACHED (R195). -/
def execPauseCapReached (ctx : BitVec 12) (s : State) : Out := .next (s.capReached ctx.toNat)

/-- WATCHDOG_EXPIRY (R310). -/
def execWatchdogExpiry (ctx : BitVec 12) (s : State) : Out := .next (s.wdogExpires ctx.toNat)

/-- TAG_HOLD_EXPIRY (R308). -/
def execTagHoldExpiry (tag : BitVec 12) (s : State) : Out := .next (s.tagFree tag.toNat)

/-- CIRCUIT_SETUP_TIMEOUT (R217). -/
def execCircuitSetupTimeout (ctx : BitVec 12) (s : State) : Out := .next (s.setupTimeout ctx.toNat)

/-- KEY_REUSE_WAIT_END (R292). -/
def execKeyReuseWaitEnd (ctx : BitVec 12) (s : State) : Out := .next (s.keyWaitEnds ctx.toNat)

/-- RESET_SPACING_END (R300). -/
def execResetSpacingEnd (ctx : BitVec 12) (s : State) : Out := .next (s.spacingEnds ctx.toNat)

end Sys2Proof.Machine
end

