-- ==== Sys2Proof/Machine/Telemetry.lean ====
section
/-! DEFINITION. The registers of Trace that start and stop recording, replay and telemetry (R226, R282, R283, R354), the entries
of a replay that are due (R283, R284), and telemetry samples (R226, R227). -/

namespace Sys2Proof.Machine

/-! ### Recording and replay begin and end (R282, R283) -/

/-- First and last page of the trace buffer. -/
def State.tracePages (s : State) : Nat × Nat :=
  (s.trc.base.toNat / 4096, (s.trc.base.toNat + 16 * s.traceSize - 1) / 4096)

/-- The fields of TRC_REC_CTL as a write leaves them. -/
def TrcSt.control (t : TrcSt) (v : W32) : TrcSt :=
  { t with enable := bit v 31, replay := bit v 30, all := bit v 29, part := field v 0 8 }

/-- A recording begins with a START entry. -/
def State.recordStart (s : State) (v : W32) : State :=
  let s := { s with trc := { s.trc.control v with
      active := true, full := false, incomplete := false, count := 0, queue := [], runs := [], issued := 0, gap := none } }
  s.traceEntry (traceWord (s.machineTime.setWidth 40) 4 [(0, 80), (s.trc.part.toNat, 72)])

/-- A replay begins: the buffer is read from entry 0. Its t0 is the machine time of the write (R283). -/
def State.replayBegin (s : State) (v : W32) : State :=
  let s := { s with trc := { s.trc.control v with
      active := true, count := 0, t0 := s.trc.pendAt, time0 := 0, entries := [], readNext := 0, readAll := false, met := []
      runEnds := [] } }
  s.replayRead

/-- A write of ENABLE or REPLAY whose buffer is translated takes effect (R282, R283). -/
def State.traceGo (s : State) : State :=
  let v := s.trc.pendWrite
  let s := { s with trc := { s.trc with asking := none, pendWrite := 0 } }
  let s := if s.trc.replay then s.replayEnd else s
  (if bit v 31 then s.recordStart v else s.replayBegin v).answer rspOkay 0

/-- Ask for page `vp` of the trace buffer for a write that waits. -/
def State.traceAskPage (s : State) (vp : Nat) : State :=
  let w := bit s.trc.pendWrite 31
  { s with trc := { s.trc with asking := some vp } }.traceAsk (if w then .trace 0 else .replay 0) vp w

/-- Translate the buffer page after page for a write that waits; it takes effect when the last is there. -/
def State.traceNext (s : State) : State :=
  match s.trc.asking with
  | none => s
  | some vp =>
    match s.trc.xl.find? fun e => e.covers .steward vp (bit s.trc.pendWrite 31) with
    | none => s.traceAskPage vp
    | some e =>
      let next := (vp / pageUnits e.size + 1) * pageUnits e.size
      if s.tracePages.2 < next then s.traceGo else s.traceAskPage next

/-- Begin to translate the buffer for a write of ENABLE or REPLAY. -/
def State.traceTranslate (s : State) (v : W32) : State :=
  { s with
    trc := { s.trc with pendWrite := v, xl := [], asking := some s.tracePages.1 }
    ctl := { s.ctl with ymbWait := some .trace } }.traceNext

/-- REPLAY may be written 1 (R283). -/
def State.replayOk (s : State) (v : W32) : Bool :=
  !s.trc.enable && !bit v 29 &&
    (s.part (fieldN v 0 8)).queues.all fun q => (s.queue q).st = .disabled && (s.queue q).idle

/-- Recording is in progress. -/
def State.recording (s : State) : Bool := s.trc.enable && s.trc.active

/-- A write of TRC_REC_CTL (R282 to R285, R354, R391). One that wakes Trace, or has the buffer translated, is answered when that
is over. -/
def State.recCtlWrite (s : State) (v : W32) : State :=
  if (bit v 31 || bit v 30) && !bit s.ctl.permits 2 then s.answer rspDenied 0
  else if bit v 30 && !s.replayOk v then s.answer rspDenied 0
  else if bit v 31 && bit v 30 then s.answer rspError 0
  else
    if bit v 30 || (bit v 31 && !s.recording) then
      let s := { s with trc := { s.trc with pendAt := s.machineTime } }
      if s.isReady .trace then s.traceTranslate v
      else
        { s with
          trc := { s.trc with pendWrite := v, asking := none }
          ctl := { s.ctl with ymbWait := some .trace } }.wake .trace
    else
      let s := if s.trc.replay && !bit v 30 then s.replayEnd else s
      let s := if s.recording && !bit v 31 then s.recordEnd else s
      { s with trc := s.trc.control v }.answer rspOkay 0

/-! ### TRC_TELE_CTL (R226, R228, R354) -/

/-- An interval of telemetry begins at a port: the counts start at 0, the most entries occupied at what is occupied now. -/
def Port.teleBegin (x : Port) : Port := { x with te := { PortTele.reset with rxMax := x.rx.occupied } }

/-- An interval of telemetry begins. -/
def State.teleBegin (s : State) : State :=
  let s := { s with trc := { s.trc with teleAt := s.epochPs } }
  (s.ports.map fun e => e.1).foldl (fun s p => s.modPort p Port.teleBegin) s

/-- A write of TRC_TELE_DEST: where ENABLE is set, a VALID that it sets begins an interval (R226). -/
def State.teleDestPut (s : State) (v : W32) : State :=
  let s := if bit v 31 && !s.trc.teleValid && s.trc.teleEnable then s.teleBegin else s
  { s with trc := { s.trc with teleValid := bit v 31, teleDest := field v 0 16 } }.answer rspOkay 0

/-- TRC_TELE_CTL takes a value. -/
def State.teleApply (s : State) (v : W32) : State :=
  let s := if bit v 31 && !s.trc.teleEnable then s.teleBegin else s
  let s := { s with trc := { s.trc with teleEnable := bit v 31, teleInterval := field v 0 16, telePend := 0 } }
  s.reclock.answer rspOkay 0

/-- A write of TRC_TELE_CTL. -/
def State.teleCtlWrite (s : State) (v : W32) : State :=
  if fieldN v 0 16 = 0 then s.answer rspError 0
  else if bit v 31 && !s.isReady .trace then
    { s with trc := { s.trc with telePend := v }, ctl := { s.ctl with ymbWait := some .trace } }.wake .trace
  else s.teleApply v

/-- Trace is ALIGNED: the writes that woke it take effect (R354, R387). -/
def State.traceAligned (s : State) : State :=
  if s.isReady .trace then
    let s := if s.trc.telePend ≠ 0 then s.teleApply s.trc.telePend else s
    if s.trc.pendWrite ≠ 0 && s.trc.asking.isNone then s.traceTranslate s.trc.pendWrite else s
  else s

/-! ### Entries of a replay (R283, R284) -/

/-- The machine time at which an entry takes effect. -/
def State.entryAt (s : State) (e : BitVec 128) : Nat := s.trc.t0.toNat + (entTime e - s.trc.time0).toNat

/-- Let time pass until a machine time, in lclk. -/
def State.untilMachine (s : State) (t : Nat) : State :=
  if s.time.running then s.advanceTo (s.time.now + (t - s.machineTime.toNat) * 640) else s

/-- An entry that takes effect by itself. -/
def entInput (e : BitVec 128) : Bool := entCode e = 1 || entCode e = 5 || entCode e = 6

/-- A recorded input takes effect. -/
def State.replayInput (s : State) (e : BitVec 128) : State :=
  if entCode e = 1 then
    let q := fieldN e 72 12
    s.ring q (assemble 32 [(fieldN e 71 1, 31), (fieldN e 54 17, 0)])
  else if entCode e = 5 then
    s.control (fieldN e 72 12) (assemble 32 [(fieldN e 68 4, 0)])
  else
    let b := fieldN e 70 14
    if bit e 69 then s.hostArm b (field e 53 16) else s.hostArrive b

/-- The next doorbell, queue control or barrier entry takes effect; the first lost entry ends the replay (R284). -/
def State.replayNext (s : State) : State :=
  match s.trc.entries.find? fun e => entInput e.2 with
  | none => s
  | some (i, e) =>
    if !s.trc.replay then s
    else
      match if s.trc.incomplete then s.trc.gap else none with
      | some g =>
        if g ≤ i then (s.diverge 4 g).pumpAll
        else (((s.untilMachine (s.entryAt e)).replayInput e).replayTake i).pumpAll
      | none => (((s.untilMachine (s.entryAt e)).replayInput e).replayTake i).pumpAll

/-- The heat of an entry has been dispatched. -/
def State.entryHeat (s : State) (e : BitVec 128) : Bool :=
  let q := fieldN e 72 12
  let i : BitVec 17 := field e 55 17
  (s.heatList.any fun h => h.2.id.q = q && h.2.id.idx = i) || decide ((s.queue q).size ≤ (s.queue q).d i)

/-- The run of an ARRIVAL entry is the next of its heat, and has not begun. -/
def State.runAwaited (s : State) (e : Nat × BitVec 128) : Bool :=
  entDone e.2 = 0 && (s.replayFor 2 (entHeat e.2)).head?.map (fun x => x.1) = some e.1

/-- What a replay waits for at one entry: the reason, the entry, and when its wait of 1 ms ends, in lclk of machine time: from the
entry's time for a heat that is not dispatched and for a heat's first run, from the end of the heat's previous run otherwise
(R284). -/
def State.entryWait (s : State) (e : Nat × BitVec 128) : Option (Nat × Nat × Nat) :=
  let ms := 1562500
  if (entCode e.2 = 2 || entCode e.2 = 3) && !s.entryHeat e.2 then some (3, e.1, s.entryAt e.2 + ms)
  else if entCode e.2 = 2 && s.runAwaited e then
    some (1, e.1, (((s.trc.runEnds.find? fun x => x.1 = entHeat e.2).map fun x => x.2).getD (s.entryAt e.2)) + ms)
  else none

/-- The wait of a replay that ends first, of all its entries: replay stops at the first divergence (R284); of two that end at
the same time, the entry that was recorded earlier (DESIGN CHOICE, log 75). -/
def State.overdue (s : State) : Option (Nat × Nat × Nat) :=
  (s.trc.entries.filterMap s.entryWait).foldl (fun w x =>
    match w with
    | none => some x
    | some y => if x.2.2 < y.2.2 then some x else w) none

/-- 1 ms has passed without an expected run or heat, and without another entry falling due. -/
def State.replayLate (s : State) : State :=
  match s.overdue with
  | none => s
  | some (r, i, t) =>
    if !s.trc.replay || s.trc.entries.any fun e => entInput e.2 && decide (s.entryAt e.2 ≤ t) then s
    else ((s.untilMachine t).diverge r i).pumpAll

/-! ### Telemetry (R226, R227) -/

/-- The 14 bytes of a port in a sample, as one number. -/
def State.teleBytes (s : State) (p : Nat) : Nat :=
  let x := s.port p
  let util := if x.te.frames = 0 then 0 else x.te.sent * 65535 / (4 * x.te.frames)
  let slots := x.tx.wheel.length
  util + min x.te.rxMax 65535 * 256 ^ 2 + min x.te.stall (2 ^ 32 - 1) * 256 ^ 4 + min x.te.replays 65535 * 256 ^ 8 +
    x.reg.width.toNat * 256 ^ 10 + x.reg.st.code * 256 ^ 11 + slots * 256 ^ 12

/-- Billet `t` of a sample. -/
def State.teleBillet (s : State) (t : Nat) : Billet :=
  { dest := s.trc.teleDest, key := 0, kind := kTelemetry, vc := 7, gen := 0, tag := BitVec.ofNat 12 t, seq := s.trc.sample
    data := payloadAt ((s.epoch.toNat, 0) :: (List.range 4).map fun k => (s.teleBytes (4 * t + k), 8 + 14 * k)) }

/-- Discard the billets of the last sample that still wait (R227). -/
def State.teleDiscard (s : State) : State :=
  let mine (b : Billet) : Bool := s.trc.sampled.elem b
  let n := (s.ports.map fun e => (e.2.tx.queue.filter mine).length).sum +
    ((s.route.hold.map fun h => (h.waiting.filter mine).length).getD 0)
  let s := (s.ports.map fun e => e.1).foldl (fun s p =>
    s.modPort p fun x => { x with tx := { x.tx with queue := x.tx.queue.filter fun b => !mine b } }) s
  { s with
    route := { s.route with hold := s.route.hold.map fun h => { h with waiting := h.waiting.filter fun b => !mine b } }
    trc := { s.trc with teleDrop := satAdd s.trc.teleDrop n } }

/-- A sample is taken and sent, at a fixed phase of the epoch counter (R278). -/
def State.telemetry (s : State) : State :=
  if s.trc.teleEnable && s.trc.teleValid && s.isReady .trace then
    let s := s.toPhase s.trc.teleAt (s.trc.teleInterval.toNat * usPs)
    let s := s.teleDiscard
    let bs := (List.range 10).map s.teleBillet
    let s := s.teleBegin
    let s : State := { s with trc := { s.trc with sample := s.trc.sample + 1, sampled := bs } }
    bs.foldl State.inject s
  else s

/-! ### Commands -/

/-- XLATE_REPLY (R188). -/
def execXlateReply (id : BitVec 8) (status size : BitVec 2) (paddr : BitVec 40) (s : State) : Out :=
  let r := (s.xlateAnswer id.toNat (status = 0) size paddr).traceNext
  .next (if s.xlFull then r.serveXl else r).pumpAll

/-- PAGE_REQ_REPLY (R193). -/
def execPageReqReply (id : BitVec 8) (status : BitVec 2) (s : State) : Out :=
  .next ((s.pageAnswer id.toNat (status = 0)).traceNext).pumpAll

/-- REPLAY_ENTRY_DUE (R283). -/
def execReplayEntryDue (s : State) : Out := .next s.replayNext

/-- REPLAY_DIVERGE_TIMEOUT (R284). -/
def execReplayDivergeTimeout (s : State) : Out := .next s.replayLate

/-- TELEMETRY_SAMPLE (R226). -/
def execTelemetrySample (s : State) : Out := .next s.telemetry

end Sys2Proof.Machine
end

