-- ==== Sys2Proof/Machine/Regs.lean ====
section
/-! DEFINITION. The registers that the YMB writes (R384 to R402) but for those of boot: each write as its register's table and
rules lay it down, answered with its code. -/

namespace Sys2Proof.Machine

/-! ### Access (R334, R384, R402) -/

/-- The registers that the YMB reaches before boot completes (R334, R402). -/
def earlyReg (a : Nat) : Bool :=
  a = 0 || a = 4 || a = 0x010000 || a = 0x010004 || a = 0x010020 || a = 0x010024 || a = 0x010030 || a = 0x010034 ||
    a = 0x010038 || a = 0x010040

/-- The port whose block holds an address, and the offset in the block (R389). -/
def portReg (a : Nat) : Option (Nat × Nat) :=
  if 0x100000 ≤ a ∧ a < 0x120000 then some ((a - 0x100000) / 0x1000, a % 0x1000)
  else if 0x140000 ≤ a ∧ a < 0x148000 then some (32 + (a - 0x140000) / 0x1000, a % 0x1000)
  else none

/-- An offset of a port's block holds a register (R389). -/
def portOffset (o : Nat) : Bool := o % 4 = 0 && (decide (o ≤ 0x1C) || (decide (0x100 ≤ o) && decide (o ≤ 0x10C)))

/-- Addresses of the map outside the port blocks: first and last of each run of registers (R389). -/
def regRuns : List (Nat × Nat) :=
  [(0x00, 0x08), (0x40, 0x58), (0x60, 0x70), (0x80, 0x98), (0xA0, 0xAC), (0xC0, 0xCC), (0x010000, 0x010024),
   (0x010030, 0x010038), (0x010040, 0x010040), (0x020000, 0x020004), (0x020010, 0x02002C), (0x040000, 0x040004),
   (0x040100, 0x040118), (0x040120, 0x040150), (0x080000, 0x080000), (0x080040, 0x080050), (0x0A0000, 0x0A0010),
   (0x0C000C, 0x0C0020), (0x180000, 0x18001C), (0x1C0000, 0x1C001C), (0x1C0100, 0x1C0108)]

/-- An aligned address holds a register of the map. 0x08004C lies within a run and holds none. -/
def regThere (a : Nat) : Bool :=
  match portReg a with
  | some (_, o) => portOffset o
  | none => a ≠ 0x08004C && regRuns.any fun r => decide (r.1 ≤ a ∧ a ≤ r.2)

/-- Rows 1 to 3 of R384: the code of an access that is refused before its register is reached. -/
def State.ymbGate (s : State) (a : Nat) : Option (BitVec 2) :=
  if a % 4 ≠ 0 then some rspError
  else if s.boot.state ≠ .done && !earlyReg a then some rspDenied
  else if !regThere a then some rspError
  else none

/-- The YMB takes an access: no reset input is asserted, and none is outstanding (R373, R377). -/
def State.ymbOpen (s : State) : Bool := !s.inReset && s.ctl.ymbWait.isNone

/-- An access of the YMB at an address: refused, or carried out by its register's rule. -/
def State.ymbAt (s : State) (a : Nat) (f : State → State) : State :=
  if !s.ymbOpen then s
  else match s.ymbGate a with
    | some code => s.answer code 0
    | none => f s

/-- A write answered OKAY. -/
def State.okay (s : State) : State := s.answer rspOkay 0
/-- A write answered DENIED. -/
def State.denied (s : State) : State := s.answer rspDenied 0
/-- A write answered ERROR. -/
def State.error (s : State) : State := s.answer rspError 0

/-- A lock violation at an address (R392 to R394). -/
def State.violation (s : State) (a : Nat) : State :=
  { s with ctl := { s.ctl with viol := satInc s.ctl.viol, violValid := true, violAddr := BitVec.ofNat 24 a } }.denied

/-! ### Control -/

/-- CTL_TIME_CTL (R271): a change of role begins without correction; the master holds offset 0 (R268). -/
def State.timeCtlWrite (s : State) (v : W32) : State :=
  let role : BitVec 2 := field v 30 2
  let t := s.time
  if role = 3 || fieldN v 26 4 = 0 then s.error
  else
    let t := { t with role := role, periodMs := field v 26 4, upstream := field v 0 16 }
    let t := if role = s.time.role then t
      else if role = roleMaster then { t with offset := 0, pend := [], exch := none, small := 0, locked := true }
      else { t with pend := [], exch := none, exchAt := t.now, small := 0, locked := false }
    { s with time := t }.okay

/-- CTL_POLICY (R391, R392). -/
def State.policy (s : State) (v : W32) : State :=
  if s.ctl.lock then s.violation 0xC0
  else
    let old := s.ctl.permits
    let s := { s with ctl := { s.ctl with permits := field v 0 4, lock := bit v 31 } }
    let s := if bit old 1 && !bit v 1 then s.diagOff else s
    s.okay

/-- CTL_PLATFORM_TAG (R393). -/
def State.platformTag (s : State) (v : W32) : State :=
  if s.ctl.tagWritten then s.violation 0xC4
  else { s with ctl := { s.ctl with tag := v, tagWritten := true } }.okay

/-! ### Power (R357) -/

/-- PWR_GATE_CTL: a write recomputes CLOCK_PROFILE. -/
def State.gateCtlWrite (s : State) (v : W32) : State :=
  if fieldN v 16 12 = 0 || 5 < fieldN v 0 3 then s.error
  else
    { s with power := { s.power with
      idleUs := field v 16 12, autoTrace := bit v 10, autoHearth := bit v 9, autoAnvil := bit v 8
      minAnvil := field v 0 3 } }.reclock.okay

/-- A value of PWR_THERM_CTL is within its ranges. -/
def thermOk (v : W32) : Bool :=
  let duty := fieldN v 16 2
  let thr := fieldN v 0 8
  let crit := fieldN v 8 8
  duty ≠ 0 && duty ≠ 3 && fieldN v 20 4 ≠ 0 && decide (70 ≤ thr ∧ thr ≤ 120 ∧ thr + 5 ≤ crit ∧ crit ≤ 130)

/-- PWR_THERM_CTL. -/
def State.thermCtlWrite (s : State) (v : W32) : State :=
  if thermOk v then
    { s with power := { s.power with
      hystC := field v 20 4, duty := field v 16 2, critC := field v 8 8, throttleC := field v 0 8 } }.reclock.okay
  else s.error

/-! ### Tongs and Weld -/

/-- The partition selected for Tongs registers is FREE: a write of them is an error (R395). -/
def State.selFree (s : State) : Bool := (s.part s.tng.partSel.toNat).state = .free

/-- TNG_WDOG (R320). -/
def State.wdog (s : State) (v : W32) : State :=
  let n := fieldN v 0 26
  if s.selFree || 60000000 < n then s.error
  else (s.modPart s.tng.partSel.toNat fun p => { p with wdogUs := BitVec.ofNat 26 (max n 100) }).okay

/-- WLD_PAUSE_CAP (R198). -/
def State.pauseCapWrite (s : State) (v : W32) : State :=
  let n := fieldN v 0 16
  let i := s.wld.partSel.toNat
  if (s.part i).state = .free || n = 0 || 60000 < n then s.error
  else (s.modPart i fun p => { p with pauseCap := field v 0 16 }).okay

/-- TNG_ABORT (R297): the heat's watchdog expires at once with reason FORCED. -/
def State.abort (s : State) (v : W32) : State :=
  let q := s.tng.abortQueue.toNat
  match s.heatList.find? fun e => e.2.live && q ≠ 0 && e.2.id.q = q && e.2.id.idx = field v 0 17 with
  | none => s.error
  | some (c, h) =>
    let s := s.captureHeats causeWatchdog h.id.part [(c, ⟨0x10, 0x18, 0, 0⟩)] [s.crashOf h]
    (((s.beginSample c).stopHeat c .abortTimeout).crashStep c).pumpAll.okay

/-! ### Anvil -/

/-- No partition is active (R83). -/
def State.noActive (s : State) : Bool := s.tab.parts.all fun e => !e.2.state.isActive

/-- ANV_DIAG_CTL (R83, R84, R391). -/
def State.diagCtl (s : State) (v : W32) : State :=
  if bit v 0 && (!bit s.ctl.permits 1 || !s.noActive) then s.denied
  else
    let s : State := { s with hrt := { s.hrt with diag := bit v 0, flagWords := if bit v 1 then [] else s.hrt.flagWords } }
    s.okay

/-! ### Ports (R210, R228, R256) -/

/-- LNK_CREDIT_DATA: the allotment of the selected pair, for the next training (R210). Pairs are numbered as in R232. -/
def State.creditWrite (s : State) (p : Nat) (v : W32) : State :=
  let x := s.port p
  let k := 4 + 32 * x.reg.creditVc.toNat + x.reg.creditClass.toNat
  let allot := Tbl.set 0 x.tr.allot k (field v 0 12)
  if 4000 < ((allot.filter fun e => 4 ≤ e.1).map fun e => e.2.toNat).sum then s.error
  else (s.modTr p fun t => { t with allot := allot }).okay

/-- A write to a register of a port's block. -/
def State.portWrite (s : State) (p o : Nat) (v : W32) : State :=
  if o = 0 then (s.modReg p fun r => { r with event := r.event && !bit v 4 }).okay
  else if o = 4 then (s.lnkCtl p v).pumpAll
  else if o = 0x108 then (s.modReg p fun r => { r with creditVc := field v 5 2, creditClass := field v 0 5 }).okay
  else if o = 0x10C then s.creditWrite p v
  else s.okay

/-! ### Routes (R221, R228) -/

/-- RTE_TBL_DATA written: the standby bank only (R221, R399). -/
def State.routeWrite (s : State) (v : W32) : State :=
  if !s.route.tblStandby || s.route.swap.isSome then s.denied
  else
    let b := Tbl.set 0 (s.bank true) s.route.tblIndex.toNat (field v 0 16)
    let s : State := if s.route.activeBank then { s with route := { s.route with bank0 := b } }
      else { s with route := { s.route with bank1 := b } }
    { s with route := { s.route with tblIndex := s.route.tblIndex + 1 } }.okay

/-! ### The write map (R389) -/

/-- A write to a register of Control, power or Tongs that its register's rule carries out. -/
def State.regWriteLow (s : State) (a : Nat) (v : W32) : State :=
  if a = 0x4C then s.timeCtlWrite v
  else if a = 0x54 then { s with time := { s.time with asym := field v 0 16 } }.okay
  else if a = 0x84 then { s with quench := { s.quench with word := field v 0 12 } }.okay
  else if a = 0x8C then s.islandWrite v
  else if a = 0x90 then { s with ctl := { s.ctl with notifyValid := bit v 31, notifyDest := field v 0 16 } }.okay
  else if a = 0xA4 then { s with ctl := { s.ctl with irqMask := field v 0 4 } }.okay
  else if a = 0xC4 then s.platformTag v
  else if a = 0xCC then { s with ctl := { s.ctl with violValid := s.ctl.violValid && !bit v 31 } }.okay
  else if a = 0x020010 then s.gateCtlWrite v
  else if a = 0x020014 then s.thermCtlWrite v
  else if a = 0x020020 then
    if 25 < fieldN v 0 5 then s.error else { s with power := { s.power with sensorSel := field v 0 5 } }.okay
  else if a = 0x02002C then { s with power := { s.power with event := clearBits s.power.event (field v 0 3) } }.okay
  else if a = 0x040004 then { s with tng := { s.tng with dbValid := s.tng.dbValid && !bit v 31 } }.okay
  else if a = 0x040104 then { s with tng := { s.tng with leftValid := s.tng.leftValid && !bit v 31 } }.okay
  else if a = 0x040108 then
    if s.selFree then s.error else (s.modPart s.tng.partSel.toNat fun p => { p with instep := field v 0 16 }).okay
  else if a = 0x04010C then { s with tng := { s.tng with partSel := field v 0 8 } }.okay
  else if a = 0x040110 then s.wdog v
  else if a = 0x040114 then if s.selFree then s.error else s.okay
  else if a = 0x040118 then
    if s.selFree then s.error else { s with tng := { s.tng with useItem := field v 28 4, useQuota := bit v 27 } }.okay
  else if a = 0x040140 then { s with tng := { s.tng with event := clearBits s.tng.event (field v 0 5) } }.okay
  else if a = 0x040144 then { s with tng := { s.tng with abortQueue := field v 0 12 } }.okay
  else if a = 0x040148 then s.abort v
  else s.okay

/-- A write to a register of Anvil, Hearth, Weld, the routes or Trace that its register's rule carries out. -/
def State.regWriteHigh (s : State) (a : Nat) (v : W32) : State :=
  if a = 0x080040 then s.diagCtl v
  else if a = 0x080044 then { s with hrt := { s.hrt with flagLane := field v 0 12 } }.okay
  else if a = 0x0A000C then { s with hrt := { s.hrt with logValid := s.hrt.logValid && !bit v 31 } }.okay
  else if a = 0x0A0010 then { s with hrt := { s.hrt with patrol := bit v 0 } }.reclock.okay
  else if a = 0x0C000C then { s with wld := { s.wld with partSel := field v 0 8 } }.okay
  else if a = 0x0C0010 then s.pauseCapWrite v
  else if a = 0x180008 then { s with route := { s.route with tblStandby := bit v 16, tblIndex := field v 0 16 } }.okay
  else if a = 0x18000C then s.routeWrite v
  else if a = 0x180010 then { s with route := { s.route with keyPort := field v 7 6, keyWord := field v 0 7 } }.okay
  else if a = 0x1C0000 then (s.recCtlWrite v).pumpAll
  else if a = 0x1C0004 then
    { s with trc := { s.trc with base := assemble 64 [(fieldN s.trc.base 32 32, 32), (fieldN v 4 28, 4)] } }.okay
  else if a = 0x1C0008 then
    { s with trc := { s.trc with base := assemble 64 [(v.toNat, 32), (fieldN s.trc.base 0 32, 0)] } }.okay
  else if a = 0x1C000C then
    if fieldN v 0 5 < 10 || 26 < fieldN v 0 5 then s.error else { s with trc := { s.trc with log2 := field v 0 5 } }.okay
  else if a = 0x1C0010 then { s with trc := { s.trc with diverged := s.trc.diverged && !bit v 28 } }.okay
  else if a = 0x1C0100 then s.teleCtlWrite v
  else if a = 0x1C0104 then
    s.teleDestPut v
  else s.okay

end Sys2Proof.Machine
end

