-- ==== Sys2Proof/Machine/Prov.lean ====
section
/-! DEFINITION. Provisioning sessions (R335, R336, R343), the NVM window (R337) and the unlock of the private TAP chain
(R338). The contents of the NVM device belong to the surroundings (log 8). -/

namespace Sys2Proof.Machine

def provClosed : BitVec 3 := 0
def provRequested : BitVec 3 := 1
def provOpen : BitVec 3 := 2

/-! ### Sessions (R335) -/

/-- A session ends (R335), and with it the private TAP chain: the ports that it had disabled train again (R338). -/
def State.closeSession (s : State) (why : BitVec 4) : State :=
  let tap := s.prov.tapOpen
  let s := { s with prov := { s.prov with
      state := provClosed, lastClose := why, tapOpen := false, closeAfter := none, bistHrt := none, bistSram := none } }
  if tap then
    ((List.range 40).filter fun p => (s.port p).reg.st = .disabled && (s.port p).reg.enable).foldl State.series s
  else s

/-- The jumper or the seal ends a session; while an NVM command is BUSY, once it completes (R343). -/
def State.endSession (s : State) (why : BitVec 4) : State :=
  if s.prov.state = provClosed then s
  else if s.prov.busy.isSome then
    { s with prov := { s.prov with closeAfter := some (s.prov.closeAfter.getD why) } }
  else s.closeSession why

/-- A write of REQUEST = 1 is refused (R335, R391). -/
def State.requestRefused (s : State) : Bool :=
  !bit s.ctl.permits 0 || (s.prov.state = provClosed && (!s.prov.enHigh || s.boot.sealBroken))

/-- A write of TAP_UNLOCK = 1 is refused (R338). -/
def State.unlockRefused (s : State) : Bool :=
  s.prov.state ≠ provOpen || !(s.tab.parts.all fun e => e.2.state = .free)

/-- Staging is scrubbed (R338): every byte that a stream holds becomes 0. -/
def State.scrubStaging (s : State) : State :=
  (s.heatList.map fun e => e.1).foldl (fun s c => s.modHeat c fun h =>
    { h with dp := { h.dp with streams := h.dp.streams.map fun x => { x with buf := x.buf.map fun b => b.map fun _ => 0 } } }) s

/-- The private TAP chain opens (R338): every port takes the actions of ENABLE = 0, the replay buffers and staging are
scrubbed. -/
def State.unlock (s : State) : State :=
  let s := (List.range 40).foldl State.disablePort s
  let s := (List.range 40).foldl (fun s p => s.modPort p fun x => { x with tx := { x.tx with kept := [], resend := [] } }) s
  let s := s.scrubStaging
  { s with prov := { s.prov with tapOpen := true } }

/-- A write of BOOT_PROV_CTL: refused whole, or its parts in the order TAP_UNLOCK, REQUEST, CLOSE (R335, R338, R385). -/
def State.provCtlWrite (s : State) (v : W32) : State :=
  if bit v 0 && s.requestRefused || bit v 2 && s.unlockRefused then s.denied
  else
    let s := if bit v 2 then s.unlock else s
    let s := if bit v 0 && s.prov.state = provClosed then
        { s with prov := { s.prov with state := provRequested, requestedAt := s.time.now } }
      else s
    let s := if bit v 1 && s.prov.state ≠ provClosed then s.closeSession 1 else s
    s.okay

/-- The time within which a press opens a requested session. -/
def requestPs : Nat := 10000 * msPs

/-- A press: yx_present_n is low for 20 ms without interruption (R335). -/
def pressPs : Nat := 20 * msPs

/-- A press of yx_present_n that begins now, within 10 s of the request, and is held (R335): it opens the session when 20 ms
have passed. -/
def State.pressed (s : State) : State :=
  if s.prov.state = provRequested && decide (s.time.now ≤ s.prov.requestedAt + requestPs) && !s.boot.porLow then
    let s := s.advanceTo (s.time.now + pressPs)
    { s with prov := { s.prov with state := provOpen, sessions := satInc s.prov.sessions } }
  else s

/-- 10 s without a press (R335). -/
def State.requestExpires (s : State) : State :=
  if s.prov.state = provRequested then (s.advanceTo (s.prov.requestedAt + requestPs)).closeSession 2 else s

/-- A level of yx_provision_en is taken (R335, R380). -/
def State.jumper (s : State) (high : Bool) : State :=
  let s := { s with prov := { s.prov with enHigh := high } }
  if high then s else s.endSession 3

/-- 16 cclk, the period in which yx_ctl_seal_drive keeps its bit (R380), in ps. -/
def sealPs : Nat := 32000

/-- What the generator gives yx_ctl_seal_drive now (R380). -/
def State.sealBit (s : State) : Bool := Config.sealBit (s.time.now / sealPs)

/-- The comparison of R380, 8 cclk after a change of yx_ctl_seal_drive: the loop counts as open from a mismatch until the next comparison
that matches. -/
def State.sealCompare (s : State) (loop : Bool) : State := { s with prov := { s.prov with sealOpen := loop ≠ s.sealBit } }

/-- The seal loop breaks (R336): for 500 cclk every comparison has found a mismatch, the last one now. -/
def State.sealBreaks (s : State) : State :=
  if s.boot.porLow then s
  else
    let s := s.sealCompare !s.sealBit
    ({ s with boot := { s.boot with sealBroken := true } }).endSession 4

/-- CTL_POLICY, with the closing of a session when PROV_PERMIT falls (R391, R392). -/
def State.policyWrite (s : State) (v : W32) : State :=
  let closes := !s.ctl.lock && bit s.ctl.permits 0 && !bit v 0 && s.prov.state ≠ provClosed
  (if closes then s.closeSession 1 else s).policy v

/-! ### The NVM window (R337) -/

/-- The window works: a session is OPEN, and neither boot nor a reload owns the device. -/
def State.windowOpen (s : State) : Bool :=
  s.prov.state = provOpen && s.boot.state ≠ .nvm && !s.seq.reload && s.prov.busy.isNone

/-- ADDR lies outside the image region (R323, R398). -/
def State.nvmPast (s : State) : Bool := decide (s.boot.region ≤ s.prov.nvmAddr.toNat)

/-- BOOT_NVM_ADDR. -/
def State.nvmAddrWrite (s : State) (v : W32) : State :=
  if s.boot.region ≤ fieldN v 0 26 then s.error
  else { s with prov := { s.prov with nvmAddr := field v 0 26 } }.okay

/-- A write of BOOT_NVM_DATA: a word of the page buffer, at byte ADDR mod 256; one that reaches past the page's end goes on at its
start (log 57). -/
def State.nvmDataPut (s : State) (v : W32) : State :=
  if !s.windowOpen then s.denied
  else if s.nvmPast then s.error
  else
    let off := s.prov.nvmAddr.toNat % 256
    let page := (List.range 4).foldl (fun (l : List Byte) k => l.set ((off + k) % 256) (field v (8 * k) 8)) s.prov.page
    { s with prov := { s.prov with page := page, nvmAddr := s.prov.nvmAddr + 4 } }.okay

/-- A read of BOOT_NVM_DATA, for which the device gives the word at ADDR. -/
def State.nvmDataGet (s : State) (devWord : W32) : State :=
  if !s.windowOpen then s.denied
  else if s.nvmPast then s.error
  else { s with prov := { s.prov with nvmAddr := s.prov.nvmAddr + 4 } }.answer rspOkay devWord

/-- BOOT_NVM_CMD: 1 ERASE, 2 PROGRAM; 0 and 3 have no effect. -/
def State.nvmCmdWrite (s : State) (v : W32) : State :=
  let cmd := fieldN v 0 2
  if !s.windowOpen then s.denied
  else if cmd = 0 || cmd = 3 then s.okay
  else if s.nvmPast then s.error
  else { s with prov := { s.prov with busy := some (BitVec.ofNat 2 cmd), err := false } }.okay

/-- The device has finished a command. -/
def State.nvmDone (s : State) (ok : Bool) : State :=
  match s.prov.busy with
  | none => s
  | some cmd =>
    let s := { s with prov := { s.prov with
        busy := none, err := s.prov.err || !ok
        page := if cmd = 2 then List.replicate 256 0xFF else s.prov.page } }
    match s.prov.closeAfter with
    | some why => s.closeSession why
    | none => s

/-! ### The commands -/

/-- PRESENCE_PRESS (R335). -/
def execPresencePress (s : State) : Out := .next s.pressed

/-- PROV_REQUEST_TIMEOUT (R335). -/
def execProvRequestTimeout (s : State) : Out := .next s.requestExpires

/-- PROVISION_EN_CHANGE (R380). -/
def execProvisionEnChange (high : Bool) (s : State) : Out := .next (s.jumper high)

/-- SEAL_BREAK (R336). -/
def execSealBreak (s : State) : Out := .next s.sealBreaks

/-- NVM_DATA_READ (R337). -/
def execNvmDataRead (devWord : W32) (s : State) : Out :=
  .next (s.ymbAt 0x010034 fun s => s.nvmDataGet devWord)

/-- NVM_CMD_DONE (R337). -/
def execNvmCmdDone (ok : Bool) (s : State) : Out := .next (s.nvmDone ok)

end Sys2Proof.Machine
end

