-- ==== Sys2Proof/Machine/Boot.lean ====
section
/-! DEFINITION. Boot from the image (R321 to R334), and the resets: power-on, warm reset, zeroize and the test-scan edges
(R305, R351, R352, R379). The bytes that boot reads come with the commands (log 8). -/

namespace Sys2Proof.Machine

/-! ### SFDP (R321 to R323) -/

/-- DWORD k of the Basic Flash Parameter Table, counted from 1 as JESD216 counts them (log 55). -/
def sfdpDword (d : Sfdp) (k : Nat) : W32 := d.bfpt.getD (k - 1) 0

/-- The density in bytes, DWORD 2: bits less one, or a power of two of bits. -/
def sfdpDensity (d : Sfdp) : Nat :=
  let w := sfdpDword d 2
  (if bit w 31 then 2 ^ min (fieldN w 0 31) 64 else fieldN w 0 31 + 1) / 8

/-- The 1-1-4 fast read is advertised, DWORD 1 bit 22. -/
def sfdpQuad (d : Sfdp) : Bool := bit (sfdpDword d 1) 22

/-- The method of 4-byte addressing: its own table, the means of entry of DWORD 16, or a device of 4-byte addresses only. -/
def sfdpMethod (d : Sfdp) : Addr4 :=
  match d.addr4 with
  | some (w :: _) => .table w
  | _ =>
    if 16 ≤ d.bfpt.length && fieldN (sfdpDword d 16) 24 8 ≠ 0 then .enter (field (sfdpDword d 16) 24 8)
    else if fieldN (sfdpDword d 1) 17 2 = 2 then .only
    else .none

/-- The erase types of DWORDs 8 and 9: log2 of the size, and the instruction. -/
def sfdpErase (d : Sfdp) : List (Nat × Byte) :=
  [(8, 0), (8, 16), (9, 0), (9, 16)].filterMap fun x =>
    let n := fieldN (sfdpDword d x.1) x.2 8
    if n = 0 then none else some (n, field (sfdpDword d x.1) (x.2 + 8) 8)

/-- What the tables give (R321): the 1-1-4 fast read of DWORD 3 with its wait states and mode clocks, or 0x0B with 8 dummy
cycles. -/
def sfdpInfo (d : Sfdp) : NvmInfo :=
  let w := sfdpDword d 3
  { density := (sfdpDensity d), quad := (sfdpQuad d), read := if (sfdpQuad d) then field w 24 8 else 0x0B
    dummy := if (sfdpQuad d) then fieldN w 16 5 + fieldN w 21 3 else 8, erase := (sfdpErase d), addr4 := (sfdpMethod d) }

/-- The smallest erase type, or 0 where none is named. -/
def NvmInfo.eraseLog2 (n : NvmInfo) : BitVec 4 := BitVec.ofNat 4 (((n.erase.map fun e => e.1).min?).getD 0)

/-- Reason codes of R333 for a failure of discovery (R322). -/
def whySfdp (d : Sfdp) : Option (BitVec 4) :=
  if !d.responds then some 1
  else if d.signature ≠ 0x50444653 || d.bfpt.length < 9 || (sfdpDensity d) < 0x400000 ||
      (0x1000000 < (sfdpDensity d) && (sfdpMethod d) = .none) then some 2
  else none

/-- What SFDP discovery leaves (R321, R323). -/
def State.discover (s : State) (d : Sfdp) : State :=
  { s with
    boot := { s.boot with sfdpDone := true, nvm := (sfdpInfo d), slow := !(sfdpQuad d), region := min (sfdpDensity d) 0x4000000 }
    prov := { s.prov with eraseLog2 := (sfdpInfo d).eraseLog2 } }

/-! ### The header (R324 to R327) -/

/-- A component entry (R325). -/
def compAt (b : List Byte) (k : Nat) : Comp :=
  let o := 0x20 + 32 * k
  { type := leAt b o 1, ifrev := leAt b (o + 1) 1, version := BitVec.ofNat 32 (leAt b (o + 4) 4)
    min := BitVec.ofNat 32 (leAt b (o + 8) 4), max := BitVec.ofNat 32 (leAt b (o + 0xC) 4)
    offset := leAt b (o + 0x10) 4, length := leAt b (o + 0x14) 4, crc := BitVec.ofNat 32 (leAt b (o + 0x18) 4) }

/-- The component table of a header. -/
def compTable (b : List Byte) : List Comp := (List.range (leAt b 6 1)).map (compAt b)

/-- Reserved fields of the header and its entries are 0, and so are the low bits of MIN and MAX. -/
def hdrReservedOk (b : List Byte) (cs : List Comp) : Bool :=
  leAt b 7 1 = 0 && leAt b 0x10 12 = 0 &&
    (List.range cs.length).all fun k =>
      leAt b (0x22 + 32 * k) 2 = 0 && leAt b (0x3C + 32 * k) 4 = 0 && leAt b (0x28 + 32 * k) 1 = 0 &&
        leAt b (0x2C + 32 * k) 1 = 0

/-- Type and length of a component (R326). -/
def compTypeOk (c : Comp) : Bool :=
  if c.type = 1 then c.length = 0x23800
  else if c.type = 2 then c.length % 4 = 0 && decide (c.length ≤ 262144)
  else if c.type = 3 then c.length % 4 = 0 && decide (c.length ≤ 131072)
  else decide (0x80 ≤ c.type)

/-- No two components overlap. -/
def compsApart : List Comp → Bool
  | [] => true
  | c :: cs =>
    (cs.all fun d => decide (c.offset + c.length ≤ d.offset ∨ d.offset + d.length ≤ c.offset)) && compsApart cs

/-- Check 3 of R327. -/
def layoutOk (b : List Byte) (region : Nat) : Bool :=
  let cs := compTable b
  let len := leAt b 8 4
  decide (3 ≤ cs.length ∧ cs.length ≤ 8 ∧ len ≤ region / 2) && hdrReservedOk b cs && cs.all compTypeOk &&
    ([1, 2, 3].all fun t => (cs.filter fun c => c.type = t).length = 1) &&
    (cs.all fun c => c.offset % 4096 = 0 && decide (4096 ≤ c.offset ∧ c.offset + c.length ≤ len)) && compsApart cs

/-- Checks 1 to 3 of R327. -/
def whyHeader (b : List Byte) (region : Nat) : Option (BitVec 4) :=
  if leAt b 0 4 ≠ 0x5958494D || leAt b 4 2 ≠ 2 then some 3
  else if crc32 (slice b 0 0x1C ++ slice b 0x20 (32 * leAt b 6 1)) ≠ BitVec.ofNat 32 (leAt b 0x1C 4) then some 4
  else if !layoutOk b region then some 5
  else none

/-- A component that boot uses. -/
def Comp.used (c : Comp) : Bool := decide (1 ≤ c.type ∧ c.type ≤ 3)

/-- The window of a component admits the hardware (R327, check 4). -/
def Comp.admits (c : Comp) : Bool :=
  decide (c.min.toNat / 256 ≤ ctlVersion.toNat / 256 ∧ ctlVersion.toNat / 256 ≤ c.max.toNat / 256)

/-- The entry of a type. -/
def compOf (cs : List Comp) (t : Nat) : Option Comp := cs.find? fun c => c.type = t

/-- Checks 4 and 5 of R327: the reason, and the table index of the component that fails. -/
def whyWindow (cs : List Comp) : Option (BitVec 4 × BitVec 4) :=
  let k := cs.findIdx fun c => c.used && !c.admits
  if k < cs.length then some (6, BitVec.ofNat 4 k)
  else
    let rev (t : Nat) : Nat := ((compOf cs t).map fun c => c.ifrev).getD 0
    if rev 2 = rev 3 && rev 2 ≠ 0 then none else some (7, 0xF)

/-- Check 6 of R327: the first component whose bytes do not carry its CRC. -/
def whyCrc (cs : List Comp) (bytes : List (List Byte)) : Option (BitVec 4 × BitVec 4) :=
  let bad (k : Nat) : Bool := match cs[k]? with
    | some c => c.used && crc32 (slice (bytes.getD k []) 0 c.length) ≠ c.crc
    | none => false
  ((List.range cs.length).find? bad).map fun k => (8, BitVec.ofNat 4 k)

/-! ### The configuration block (R328, R329) -/

/-- Little-endian 16-bit entries. -/
def halves : List Byte → List Nat
  | a :: b :: t => (a.toNat + 256 * b.toNat) :: halves t
  | _ => []

/-- Little-endian 32-bit words. -/
def fullWords (b : List Byte) (off n : Nat) : List W32 := (List.range n).map fun k => BitVec.ofNat 32 (leAt b (off + 4 * k) 4)

/-- The 40 cabling entries. -/
def cfgCabling (b : List Byte) : List W32 := fullWords b 0x40 40
/-- The route entries. -/
def cfgRoutes (b : List Byte) : List Nat := halves (slice b 0x1000 0x20000)
/-- The allotments of a port: 128 pairs. -/
def cfgCredits (b : List Byte) (p : Nat) : List Nat := halves (slice b (0x21000 + 256 * p) 256)

/-- The named ranges' gaps are 0. -/
def cfgReservedOk (b : List Byte) : Bool :=
  let zero (off len : Nat) : Bool := (slice b off len).all fun x => x = 0
  zero 6 2 && zero 0xE 0x32 && zero 0xE0 0x20 && zero 0x180 0xE80 && decide (leAt b 0xD 1 < 2)

/-- Bundle rules of a link port's entry (R243). -/
def bundleOk (es : List W32) (p : Nat) : Bool :=
  let e := es.getD p 0
  let k := 2 ^ fieldN e 29 2
  let b := p / k * k
  let base := fieldN (es.getD b 0) 0 6
  fieldN e 29 2 ≠ 3 && base % k = 0 &&
    (List.range k).all fun i =>
      let x := es.getD (b + i) 0
      bit x 31 && fieldN x 29 2 = fieldN e 29 2 && fieldN x 6 16 = fieldN e 6 16 && fieldN x 0 6 = base + i

/-- A cabling entry of port p (R243, R329). -/
def cableOk (es : List W32) (own : BitVec 16) (p : Nat) : Bool :=
  let e := es.getD p 0
  let sib := fieldN e 29 2 = 0 && decide (32 ≤ fieldN e 0 6 ∧ fieldN e 0 6 ≤ 39)
  fieldN e 22 7 = 0 &&
    (!bit e 31 ||
      ((if p < 32 then bundleOk es p else sib) && (planPeer e).1 ≠ own &&
        (List.range 40).all fun q => q = p || !bit (es.getD q 0) 31 || planPeer (es.getD q 0) ≠ planPeer e))

/-- A route entry of the image (R205, R329). -/
def routeOk (e : Nat) : Bool := e / 64 % 128 = 0 && !decide (40 ≤ e % 64 ∧ e % 64 ≤ 62)

/-- The allotments of a port (R328, R329). -/
def creditsOk (cs : List Nat) : Bool := (cs.all fun c => decide (c < 4096)) && decide (cs.sum ≤ 4000)

/-- The clock plan (R346). -/
def clockOk (ws : List W32) : Bool :=
  let w0 := ws.getD 0 0
  let w1 := ws.getD 1 0
  let w2 := ws.getD 2 0
  decide (500 ≤ w0.toNat ∧ w0.toNat ≤ 2000) && w0.toNat % 25 = 0 &&
    (fieldN w1 16 12 ≠ 0 && decide (fieldN w1 0 3 ≤ 5) && fieldN w1 28 4 = 0 && fieldN w1 11 5 = 0 && fieldN w1 3 5 = 0) &&
    (thermOk w2 && fieldN w2 24 8 = 0 && fieldN w2 18 2 = 0) && (ws.drop 3).all fun w => w = 0

/-- Check 7 of R327 (R329, R331, R346). -/
def configOk (b : List Byte) : Bool :=
  let es := cfgCabling b
  leAt b 0 4 = 0x59584346 && leAt b 4 2 = 2 && cfgReservedOk b && decide (leAt b 0xC 1 ≤ 24) &&
    ((List.range 40).all (cableOk es (BitVec.ofNat 16 (leAt b 8 2)))) && (cfgRoutes b).all routeOk &&
    ((List.range 40).all fun p => creditsOk (cfgCredits b p)) && clockOk (fullWords b 0x100 16) &&
    ((fullWords b 0x140 16).drop 1).all fun w => w = 0

/-- Checks 6 and 7 of R327. -/
def whyComponents (cs : List Comp) (bytes : List (List Byte)) : Option (BitVec 4 × BitVec 4) :=
  match whyCrc cs bytes with
  | some r => some r
  | none =>
    let k := cs.findIdx fun c => c.type = 1
    if configOk (bytes.getD k []) then none else some (9, BitVec.ofNat 4 k)

/-! ### The boot sequence (R332) -/

/-- A table of 16-bit entries from index k, those of 0 left out. -/
def tblFrom : Nat → List Nat → Tbl (BitVec 16)
  | _, [] => []
  | k, e :: es => if e = 0 then tblFrom (k + 1) es else (k, BitVec.ofNat 16 e) :: tblFrom (k + 1) es

/-- The ports' entries and allotments applied (step 4). -/
def State.applyPorts (s : State) (b : List Byte) : State :=
  let es := cfgCabling b
  (List.range 40).foldl (fun s p => s.modPort p fun x =>
    { x with
      reg := { x.reg with plan := es.getD p 0 }
      tr := { x.tr with allot := (tblFrom 4 (cfgCredits b p)).map fun e => (e.1, e.2.setWidth 12) } }) s

/-- Boot step 4: the image is applied (R332). -/
def State.applyImage (s : State) (cs : List Comp) (bytes : List (List Byte)) : State :=
  let b := bytes.getD (cs.findIdx fun c => c.type = 1) []
  let ver (t : Nat) : W32 := ((compOf cs t).map fun c => c.version).getD 0
  let rev (t : Nat) : Nat := ((compOf cs t).map fun c => c.ifrev).getD 0
  let crc : W32 := ((compOf cs 2).map fun c => c.crc).getD 0
  let ws := fullWords b 0x100 16
  let w1 := ws.getD 1 0
  let w2 := ws.getD 2 0
  let routes := tblFrom 0 (cfgRoutes b)
  let s := { s with
    boot := { s.boot with
      cfgVer := ver 1, trnVer := ver 3, seqVer := ver 2, trnIfrev := rev 3, seqBootVer := ver 2, seqBootCrc := crc
      cfg := { ownId := BitVec.ofNat 16 (leAt b 8 2), stewardRid := BitVec.ofNat 16 (leAt b 0xA 2)
               repair := BitVec.ofNat 5 (leAt b 0xC 1), reimageEn := leAt b 0xD 1 = 1, clockPlan := ws
               bitDefaults := fullWords b 0x140 16 } }
    seq := { s.seq with
      standby := .loading, ifrev := BitVec.ofNat 8 (rev 2), loadVer := ver 2, loadIfrev := BitVec.ofNat 8 (rev 2)
      stage := none, fails := 0 }
    power := { s.power with
      idleUs := field w1 16 12, autoTrace := bit w1 10, autoHearth := bit w1 9, autoAnvil := bit w1 8
      minAnvil := field w1 0 3, hystC := field w2 20 4, duty := field w2 16 2, critC := field w2 8 8
      throttleC := field w2 0 8 }
    route := { s.route with bank0 := routes, bank1 := routes }
    wld := { s.wld with issued := [], heldIn := [] }
    hrt := { s.hrt with repair := BitVec.ofNat 5 (leAt b 0xC 1), active := 24 } }
  let s := s.applyPorts b
  { s with ctl := { s.ctl with bitProfile := s.bitDigest, clockProfile := s.clockDigest, profValid := true } }

/-- A port at power-on: what the PHY and the adapter report is no state of the block. -/
def Port.fresh (x : Port) : Port :=
  { Port.reset with rx := { PortRx.reset with x32 := x.rx.x32 }, tr := { PortTrain.reset with sig := x.tr.sig } }

/-- Ports at power-on. -/
def freshPorts (t : Tbl Port) : Tbl Port := (t.map fun e => (e.1, e.2.fresh)).filter fun e => e.2 ≠ Port.reset

/-- What a slot had applied is gone, and every island is gated again (R332); counters keep their values (R386). -/
def State.unapply (s : State) : State :=
  { s with
    boot := { s.boot with
      serial := 0, cfgVer := 0, trnVer := 0, seqVer := 0, trnIfrev := 0, seqBootVer := 0, seqBootCrc := 0, comps := []
      bytes := [], cfg := .reset }
    seq := { SeqSt.reset with takeovers := s.seq.takeovers, reloads := s.seq.reloads }
    power := { PowerSt.reset with wakes := s.power.wakes, alignRetries := s.power.alignRetries, temps := s.power.temps
                                  maxs := s.power.maxs, throttleUs := s.power.throttleUs, event := s.power.event }
    route := .reset, ports := freshPorts s.ports
    hrt := { HrtSt.reset with
      corr := s.hrt.corr, uncorr := s.hrt.uncorr, logValid := s.hrt.logValid, logPatrol := s.hrt.logPatrol, logBank := s.hrt.logBank
      logStripe := s.hrt.logStripe, logWord := s.hrt.logWord, reorderHolds := s.hrt.reorderHolds }
    ctl := { s.ctl with bitProfile := 0, clockProfile := 0, profValid := false } }

/-- A slot fails (R332): slot A is followed by slot B, slot B by the identity-only state. -/
def State.slotFails (s : State) (reason comp : BitVec 4) : State :=
  let s := s.unapply
  if s.boot.slot then
    { s with boot := { s.boot with state := .identOnly, reasonB := reason, compB := comp } }
  else
    { s with boot := { s.boot with state := .nvm, step := 2, slot := true, reasonA := reason, compA := comp } }

/-- The slot's header has been read (steps 2 and, for checks 4 and 5, 3). -/
def State.headerRead (s : State) (b : List Byte) : State :=
  match whyHeader b s.boot.region with
  | some r => s.slotFails r 0xF
  | none =>
    let cs := compTable b
    match whyWindow cs with
    | some r => s.slotFails r.1 r.2
    | none =>
      { s with boot := { s.boot with comps := cs, serial := BitVec.ofNat 32 (leAt b 0xC 4), step := 3 } }

/-- Step 2: SFDP discovery on the first pass, then the header. -/
def State.bootHeader (s : State) (d : Sfdp) (b : List Byte) : State :=
  if s.boot.sfdpDone then s.headerRead b
  else
    match whySfdp d with
    | some r => { s with boot := { s.boot with state := .identOnly, reasonA := r, reasonB := r } }
    | none => (s.discover d).headerRead b

/-- Step 3: the components have been read. -/
def State.bootComponents (s : State) (bytes : List (List Byte)) : State :=
  match whyComponents s.boot.comps bytes with
  | some r => s.slotFails r.1 r.2
  | none =>
    let s := s.applyImage s.boot.comps bytes
    { s with boot := { s.boot with state := .apply, step := 4 } }

/-- Every island. -/
def allIslands : List Island := (List.range 32).filterMap islandOfCode

/-- Every island is ALIGNED. -/
def State.allAligned (s : State) : Bool := s.power.aligned = BitVec.allOnes 24 && s.power.weldAligned && s.power.ctlAligned

/-- Boot step 5 begins: the generators start once the epoch runs, and every domain wakes. Weld and Control, always powered, align from the
next frame edge on (R349), the others once they are powered. -/
def State.bootAlign (s : State) : State :=
  let s := { s with
    boot := { s.boot with state := .align, step := 5, since := s.time.now }
    power := { s.power with alignFrom := allIslands.foldl (fun t i => Tbl.set 0 t (islandCode i) s.time.now) s.power.alignFrom } }
  allIslands.foldl State.wake s.startFrames

/-- Boot step 6 begins: used ports train, the others are UNUSED. -/
def State.bootTrain (s : State) : State :=
  let s := { s with boot := { s.boot with state := .train, step := 6 } }
  (List.range 40).foldl (fun s p =>
    if bit (s.port p).reg.plan 31 then (s.series p).detectStep p
    else s.modReg p fun r => { r with st := .unused }) s

/-- A port of step 6 has come to rest. -/
def PState.settled : PState → Bool
  | .active | .retrain | .quarantine | .swapped | .absent => true
  | _ => false

/-- Step 6 is over. -/
def State.trained (s : State) : Bool :=
  (List.range 40).all fun p => !bit (s.port p).reg.plan 31 || (s.port p).reg.st.settled

/-- Boot step 7. -/
def State.bootDone (s : State) : State :=
  let s := { s with boot := { s.boot with state := .done, step := 7 } }
  s.modQueue 0 fun q => { q with st := .disabled }

/-- Boot may run: no reset input is low, no scrub runs. -/
def State.bootRuns (s : State) : Bool := !s.inReset && !s.boot.scrub

/-- A boot step that waited has what it waited for. -/
def State.bootStep (s : State) (inp : BootInput) : State :=
  if !s.bootRuns then s
  else
    match s.boot.state, inp with
    | .por, .none => { s with boot := { s.boot with state := .nvm, step := 2 } }
    | .nvm, .header d b => if s.boot.step = 2 && s.prov.busy.isNone then s.bootHeader d b else s
    | .nvm, .components bs => if s.boot.step = 3 then s.bootComponents bs else s
    | .apply, .none => s.bootAlign
    | .align, .none => if s.allAligned && decide (s.time.now ≤ s.boot.since + 100 * msPs) then s.bootTrain else s
    | .train, .none => if s.trained then s.bootDone else s
    | _, _ => s

/-- 100 ms in step 5, in which alignment has not completed (R332). -/
def State.alignTimeout (s : State) : State :=
  if s.boot.state = .align && !(s.allAligned && decide (s.time.now ≤ s.boot.since + 100 * msPs)) then
    (s.advanceTo (s.boot.since + 100 * msPs)).slotFails 0xA 0xF
  else s

/-- BOOT_CTL (R334). -/
def State.bootCtlWrite (s : State) (v : W32) : State :=
  if !bit v 0 then s.okay
  else if s.boot.state ≠ .identOnly then s.denied
  else
    let s := s.unapply
    { s with boot := { s.boot with
        state := .nvm, step := 2, slot := false, sfdpDone := false, reasonA := 0, reasonB := 0, compA := 0xF
        compB := 0xF } }.okay

/-! ### Resets (R305, R351, R352, R379) -/

/-- The block at power-on, but for what is no state of it: the levels of its pins, what the PHY reports, the model's own
time, counter and queue. -/
def State.powerOn (s : State) : State :=
  { State.reset with
    time := { TimeSt.reset with now := s.time.now }
    boot := { BootSt.reset with
      porLow := s.boot.porLow, warmLow := s.boot.warmLow, assertAt := s.boot.assertAt, scan := s.boot.scan
      zeroAt := s.boot.zeroAt }
    prov := { ProvSt.reset with enHigh := s.prov.enHigh }
    ports := freshPorts s.ports
    wld := { WldSt.reset with level := s.wld.level }
    freeCtr := s.freeCtr, pending := s.pending }

/-- The engine reset of a warm reset or zeroize (R351): straps and SEAL_BROKEN stay, and unless it is a zeroize the epoch
counter with CTL_EPOCH_STAT and the frame counter. -/
def State.coldReset (s : State) : State :=
  let t := s.time
  let r := s.powerOn
  { r with
    time := if s.boot.zeroizing then r.time
      else { r.time with epochBase := t.epochBase, epochAt := t.epochAt, running := t.running, slip := t.slip, frame0 := t.frame0 }
    ctl := { r.ctl with strapInst := s.ctl.strapInst, strapMfr := s.ctl.strapMfr }
    boot := { r.boot with sealBroken := s.boot.sealBroken } }

/-- Stop and scrub (R305, steps 1 and 2): every store is empty and no output goes on; the registers that stay reachable keep
their values until the reset. Of resets and zeroizes that overlap, a single scrub runs (R352). -/
def State.stopAndScrub (s : State) : State :=
  let r := s.coldReset
  { r with
    time := s.time
    boot := { s.boot with state := .por, step := 1, scrub := !s.boot.scrubbed }
    prov := { s.prov with
      state := provClosed, lastClose := 0, tapOpen := false, closeAfter := none, bistHrt := none, bistSram := none } }

/-- The reset follows the scrub once no reset input is low; boot then starts at step 1. -/
def State.afterScrub (s : State) : State := if s.inReset || s.boot.scrub then s else s.coldReset

/-- An assertion of yx_warm_n: the NVM command in progress is abandoned (R352). -/
def State.warmAssert (s : State) : State :=
  let s := s.stopAndScrub
  { s with prov := { s.prov with busy := none } }

/-- The shortest assertion of a reset input that is not ignored: 16 refclk periods (R351). -/
def assertPs : Nat := 16 * refPs

/-- The reset input that holds the block has been asserted long enough. -/
def State.assertOver (s : State) : State := s.advanceTo (s.boot.assertAt + assertPs)

/-- POR_RELEASE (R332, R351, R379). -/
def State.porReleased (s : State) (inst : BitVec 3) (mfr : BitVec 11) : State :=
  if s.boot.porLow then
    let s := s.assertOver
    { s with boot := { s.boot with porLow := false }, ctl := { s.ctl with strapInst := inst, strapMfr := mfr } }
  else s

/-- The assertion of yx_warm_n. -/
def State.warmFalls (s : State) : State :=
  let s := { s with boot := { s.boot with
      warmLow := true, assertAt := if s.inReset then s.boot.assertAt else s.time.now } }
  if s.boot.porLow then s else s.warmAssert

/-- How long yx_zeroize_n must be low to be accepted (R380). -/
def zeroizePs : Nat := msPs

/-- An accepted zeroize: not while yx_por_n is low. yx_zeroize_n has returned high since the last one was accepted, and has been low for
1 ms without interruption (R380), so that much time has passed since then (log 36). -/
def State.zeroized (s : State) : State :=
  if s.boot.porLow then s
  else
    let s := match s.boot.zeroAt with
      | some t => s.advanceTo (t + zeroizePs)
      | none => s
    let s := { s with boot := { s.boot with zeroizing := true, zeroAt := some s.time.now } }
    s.stopAndScrub

/-- The scrub has finished. -/
def State.scrubbed (s : State) : State :=
  if s.boot.scrub then
    let s := { s with boot := { s.boot with scrub := false, scrubbed := true } }
    s.afterScrub
  else s

/-- An edge of yx_ctl_test_scan_en (R379). -/
def State.scanEdge (s : State) (rising : Bool) : State :=
  let s := { s with boot := { s.boot with scan := rising } }
  if s.boot.porLow then s else s.warmAssert

/-! ### The commands -/

/-- POR_RELEASE (R332). -/
def execPorRelease (inst : BitVec 3) (mfr : BitVec 11) (s : State) : Out := .next (s.porReleased inst mfr)

/-- POWER_ON_RESET (R351). -/
def execPowerOnReset (s : State) : Out :=
  .next (let r := s.powerOn; { r with boot := { r.boot with porLow := true, assertAt := r.time.now } })

/-- BOOT_STEP_ADVANCE (R332). -/
def execBootStepAdvance (inp : BootInput) (s : State) : Out := .next (s.bootStep inp)

/-- BOOT_ALIGN_TIMEOUT (R332). -/
def execBootAlignTimeout (s : State) : Out := .next s.alignTimeout

/-- WARM_RESET (R351). -/
def execWarmReset (s : State) : Out := .next s.warmFalls

/-- WARM_RESET_RELEASE (R351). -/
def execWarmResetRelease (s : State) : Out :=
  .next (if s.boot.warmLow && !s.boot.porLow then
           let r := s.assertOver
           ({ r with boot := { r.boot with warmLow := false } }).afterScrub
         else { s with boot := { s.boot with warmLow := false } })

/-- ZEROIZE (R305). -/
def execZeroize (s : State) : Out := .next s.zeroized

/-- ZEROIZE_SCRUB_DONE (R305). -/
def execZeroizeScrubDone (s : State) : Out := .next s.scrubbed

/-- TEST_SCAN_EN_EDGE (R379). -/
def execTestScanEnEdge (rising : Bool) (s : State) : Out := .next (s.scanEdge rising)

end Sys2Proof.Machine
end

