-- ==== Sys2Proof/Machine/Access.lean ====
section
/-! DEFINITION. What the register ports read and write: every register's value (R256, R271, R285, R320, R344, R357, R383,
R390 to R397), the windows (R398 to R401), the YMB's writes (R384 to R389) and the pick port's accesses (R154, R155, R258, R365,
R366). -/

namespace Sys2Proof.Machine

/-! ### Register values -/

/-- CTL_IRQ_LNK and CTL_IRQ_SIB: EVENT of ports from `base`. -/
def State.irqPorts (s : State) (base n : Nat) : W32 :=
  BitVec.ofNat 32 (((List.range n).map fun k => if (s.port (base + k)).reg.event then 2 ^ k else 0).sum)

/-- CTL_IRQ_STAT (R383). -/
def State.irqStat (s : State) : W32 :=
  assemble 32 [(b2n s.hrt.logValid, 3), (b2n (s.irqPorts 0 32 ≠ 0 || s.irqPorts 32 8 ≠ 0), 2), (b2n (s.power.event ≠ 0), 1),
    (b2n (s.tng.event ≠ 0), 0)]

/-- yx_mgmt_irq (R370). -/
def State.irq (s : State) : Bool := s.irqStat &&& s.ctl.irqMask.setWidth 32 ≠ 0

/-- yx_mgmt_thermal_trip (R370). -/
def State.thermalTrip (s : State) : Bool := s.power.level = 2

/-- Registers of Control. -/
def State.readCtl (s : State) (a : Nat) : W32 :=
  if a = 0x00 then 0x59580002
  else if a = 0x04 then ctlVersion
  else if a = 0x08 then assemble 32 [(s.ctl.strapInst.toNat, 12), (s.ctl.strapMfr.toNat, 0)]
  else if a = 0x40 then field s.epoch 0 32
  else if a = 0x44 then s.time.hiLatch
  else if a = 0x48 then assemble 32 [(b2n s.time.running, 31), (s.time.slip.toNat, 0)]
  else if a = 0x4C then assemble 32 [(s.time.role.toNat, 30), (s.time.periodMs.toNat, 26), (s.time.upstream.toNat, 0)]
  else if a = 0x50 then s.time.offset
  else if a = 0x54 then s.time.asym.setWidth 32
  else if a = 0x58 then assemble 32 [(b2n (s.time.role = roleMaster || s.time.locked), 31), (s.time.lost.toNat, 0)]
  else if a = 0x60 then field s.ctl.bitProfile 0 32
  else if a = 0x64 then s.ctl.bitHi
  else if a = 0x68 then field s.ctl.clockProfile 0 32
  else if a = 0x6C then s.ctl.clockHi
  else if a = 0x70 then assemble 32 [(b2n s.ctl.profValid, 31), (s.ctl.changes.toNat, 0)]
  else if a = 0x80 then
    assemble 32 [(b2n s.quench.valid, 31), (b2n s.quench.unread, 30), (s.quench.lost.toNat, 16), (s.quench.seq.toNat, 0)]
  else if a = 0x84 then s.quench.word.setWidth 32
  else if a = 0x8C then assemble 32 [(b2n s.ctl.islBusy, 31), (b2n s.ctl.islDone, 30), (s.ctl.islCode.toNat, 0)]
  else if a = 0x90 then assemble 32 [(b2n s.ctl.notifyValid, 31), (s.ctl.notifyDest.toNat, 0)]
  else if a = 0x94 then
    assemble 32 [(b2n (s.quench.mbox ≠ []), 31), (s.quench.mboxDrops.toNat, 8), (s.quench.mbox.length, 0)]
  else if a = 0xA0 then s.irqStat
  else if a = 0xA4 then s.ctl.irqMask.setWidth 32
  else if a = 0xA8 then s.irqPorts 0 32
  else if a = 0xAC then s.irqPorts 32 8
  else if a = 0xC0 then assemble 32 [(b2n s.ctl.lock, 31), (s.ctl.permits.toNat, 0)]
  else if a = 0xC4 then s.ctl.tag
  else if a = 0xC8 then s.ctl.viol.setWidth 32
  else if a = 0xCC then assemble 32 [(b2n s.ctl.violValid, 31), (s.ctl.violAddr.toNat, 0)]
  else 0

/-- BOOT_STATUS.STATE (R344). -/
def BootState.code : BootState → Nat
  | .por => 0 | .nvm => 1 | .apply => 2 | .align => 3 | .train => 4 | .done => 5 | .identOnly => 6

/-- BOOT_SEQ_STAT.STANDBY (R339). -/
def Standby.code : Standby → Nat
  | .ready => 0 | .loading => 1 | .staged => 2 | .failed => 3

/-- Registers of boot (R344). -/
def State.readBoot (s : State) (a : Nat) : W32 :=
  if a = 0x010000 then
    assemble 32 [(s.boot.state.code, 28), (b2n s.boot.slot, 27), (b2n s.boot.slow, 26), (b2n s.boot.sealBroken, 25),
      (b2n (s.prov.state = provOpen), 24)]
  else if a = 0x010004 then
    assemble 32 [(s.boot.compB.toNat, 20), (s.boot.compA.toNat, 16), (s.boot.reasonB.toNat, 4), (s.boot.reasonA.toNat, 0)]
  else if a = 0x010008 then s.boot.serial
  else if a = 0x01000C then s.boot.cfgVer
  else if a = 0x010010 then s.boot.trnVer
  else if a = 0x010014 then s.boot.seqVer
  else if a = 0x010018 then
    assemble 32 [(s.seq.standby.code, 29), (b2n s.seq.activeId, 28), (fieldN s.seq.ifrev 0 4, 24), (s.seq.takeovers.toNat, 16),
      (s.seq.reloads.toNat, 8), (b2n s.seq.fatal, 0)]
  else if a = 0x01001C then s.seq.stagedVer
  else if a = 0x010024 then
    assemble 32 [(s.prov.state.toNat, 29), (b2n s.prov.tapOpen, 28), (s.prov.lastClose.toNat, 24), (s.prov.sessions.toNat, 0)]
  else if a = 0x010030 then s.prov.nvmAddr.setWidth 32
  else if a = 0x010038 then
    assemble 32 [(b2n s.prov.busy.isSome, 31), (b2n s.prov.err, 30), (s.prov.eraseLog2.toNat, 20)]
  else 0

/-- Registers of power and clocks (R357). -/
def State.readPower (s : State) (a : Nat) : W32 :=
  if a = 0x020000 then s.power.on.setWidth 32
  else if a = 0x020004 then
    assemble 32 [(b2n s.power.ctlAligned, 25), (b2n s.power.weldAligned, 24), (s.power.aligned.toNat, 0)]
  else if a = 0x020010 then s.power.gateCtl
  else if a = 0x020014 then s.power.thermCtl
  else if a = 0x020018 then
    assemble 32 [(s.power.level.toNat, 30), (b2n s.thermalTrip, 29), (s.power.hottest.toNat, 24), (s.power.hotTemp.toNat, 0)]
  else if a = 0x02001C then s.power.throttleUs
  else if a = 0x020020 then s.power.sensorSel.setWidth 32
  else if a = 0x020024 then
    assemble 32 [((s.power.maxs.getD s.power.sensorSel.toNat 0).toNat, 8),
      (if decide (s.power.sensorSel.toNat < 24) && !bit s.power.on s.power.sensorSel.toNat then 0
       else (s.power.temps.getD s.power.sensorSel.toNat 0).toNat, 0)]
  else if a = 0x020028 then assemble 32 [(s.power.wakes.toNat, 16), (s.power.alignRetries.toNat, 0)]
  else if a = 0x02002C then s.power.event.setWidth 32
  else 0

/-- TNG_USE.VALUE (R320); an item of a FREE partition reads 0 (R395). -/
def State.useValue (s : State) : Nat :=
  let i := s.tng.partSel.toNat
  if s.selFree then 0
  else ((if s.tng.useQuota then (s.part i).quota else s.use i).items).getD s.tng.useItem.toNat 0

/-- TNG_HALTED_n. -/
def State.haltedWord (s : State) (n : Nat) : W32 :=
  BitVec.ofNat 32 (((List.range 32).map fun b => if (s.part (32 * n + b)).state = .halted then 2 ^ b else 0).sum)

/-- Registers of Tongs (R271, R320, R395, R396). -/
def State.readTongs (s : State) (a : Nat) : W32 :=
  let sel := s.part s.tng.partSel.toNat
  let p := if s.selFree then Part.free else sel
  if a = 0x040000 then s.tng.dbReject
  else if a = 0x040004 then assemble 32 [(b2n s.tng.dbValid, 31), (s.tng.dbCause.toNat, 16), (s.tng.dbRid.toNat, 0)]
  else if a = 0x040100 then
    assemble 32 [(s.tng.barOver.toNat, 12), (s.tng.barBadwr.toNat, 4), (s.tng.barHeld.toNat, 0)]
  else if a = 0x040104 then
    assemble 32 [(b2n s.tng.leftValid, 31), (s.tng.leftCount.toNat, 16), (s.tng.leftFirst.toNat, 0)]
  else if a = 0x040108 then p.instep.setWidth 32
  else if a = 0x04010C then s.tng.partSel.setWidth 32
  else if a = 0x040110 then p.wdogUs.setWidth 32
  else if a = 0x040114 then
    assemble 32 [(p.state.code, 29), (p.cls.toNat, 24), (p.gen.toNat, 20), (p.key.toNat, 0)]
  else if a = 0x040118 then
    if s.selFree then 0 else assemble 32 [(s.tng.useItem.toNat, 28), (b2n s.tng.useQuota, 27), (s.useValue, 0)]
  else if 0x040120 ≤ a ∧ a ≤ 0x04013C then s.haltedWord ((a - 0x040120) / 4)
  else if a = 0x040140 then s.tng.event.setWidth 32
  else if a = 0x040144 then s.tng.abortQueue.setWidth 32
  else if a = 0x04014C then
    assemble 32 [(s.tng.slagBillet.toNat, 16), (s.tng.slagMem.toNat, 8), (s.tng.slagXlate.toNat, 0)]
  else if a = 0x040150 then s.tng.tagDrop
  else 0

/-- Registers of Anvil and Hearth (R84, R85, R135, R397). -/
def State.readAnvil (s : State) (a : Nat) : W32 :=
  if a = 0x080000 then assemble 32 [(s.hrt.repair.toNat, 8), (s.hrt.active.toNat, 0)]
  else if a = 0x080040 then BitVec.ofNat 32 (b2n s.hrt.diag)
  else if a = 0x080044 then s.hrt.flagLane.setWidth 32
  else if a = 0x080050 then s.hrt.reorderHolds
  else if a = 0x0A0000 then assemble 32 [(b2n (s.hrt.scrub ≠ [] || s.hrt.resetting), 31), (if s.hrt.resetting then 0 else s.freeIngotCount, 0)]
  else if a = 0x0A0004 then BitVec.ofNat 32 (0x10000 - s.hrt.slots.length)
  else if a = 0x0A0008 then assemble 32 [(s.hrt.corr.toNat, 16), (s.hrt.uncorr.toNat, 0)]
  else if a = 0x0A000C then
    assemble 32 [(b2n s.hrt.logValid, 31), (b2n s.hrt.logPatrol, 30), (s.hrt.logBank.toNat, 27), (s.hrt.logStripe.toNat, 12),
      (s.hrt.logWord.toNat, 6)]
  else if a = 0x0A0010 then s.hrt.patrolCtl
  else 0

/-- Registers of Weld (R198, R383, R395). -/
def State.readWeld (s : State) (a : Nat) : W32 :=
  if a = 0x0C000C then s.wld.partSel.setWidth 32
  else if a = 0x0C0010 then (s.part s.wld.partSel.toNat).pauseCap.setWidth 32
  else if a = 0x0C0014 then assemble 32 [(s.wld.faults.toNat, 16), (s.wld.fails.toNat, 0)]
  else if a = 0x0C0018 then assemble 32 [(s.wld.level.toNat, 30), (s.wld.heldCycles.toNat, 0)]
  else if a = 0x0C001C then assemble 32 [(s.wld.noTag.toNat, 14), (s.wld.short_.toNat, 7), (s.wld.long_.toNat, 0)]
  else if a = 0x0C0020 then
    assemble 32 [(s.wld.memPick.toNat, 24), (s.wld.memData.toNat, 16), (s.wld.memFetch.toNat, 8), (s.wld.memOther.toNat, 0)]
  else 0

/-- Registers of a port's block (R228, R256). -/
def State.readPort (s : State) (p o : Nat) : W32 :=
  let x := s.port p
  let r := x.reg
  if o = 0x00 then
    assemble 32 [(r.st.code, 28), (r.qreason.toNat, 24), (r.laneUse.toNat, 16), (r.other.toNat, 10), (r.attempt.toNat, 8),
      (b2n r.event, 4), (r.width.toNat, 0)]
  else if o = 0x04 then assemble 32 [(r.reprobeMs.toNat, 16), (b2n r.enable, 0)]
  else if o = 0x08 then assemble 32 [(b2n r.peerValid, 31), (r.peerId.toNat, 6), (r.peerPort.toNat, 0)]
  else if o = 0x0C then r.plan
  else if o = 0x10 then r.rtt.setWidth 32
  else if o = 0x14 then assemble 32 [(r.corr.toNat, 16), (r.uncorr.toNat, 0)]
  else if o = 0x18 then assemble 32 [(r.discard.toNat, 16), (r.replays.toNat, 0)]
  else if o = 0x1C then assemble 32 [(r.adjust.toNat, 16), (r.auditErr.toNat, 0)]
  else if o = 0x100 then BitVec.ofNat 32 (256 - x.tx.wheel.length)
  else if o = 0x104 then assemble 32 [(r.keyIn.toNat, 16), (r.keyOut.toNat, 0)]
  else if o = 0x108 then assemble 32 [(r.creditVc.toNat, 5), (r.creditClass.toNat, 0)]
  else if o = 0x10C then
    (Tbl.get 0 x.tr.allot (4 + 32 * r.creditVc.toNat + r.creditClass.toNat)).setWidth 32
  else 0

/-- Registers of the routes (R228). -/
def State.readRoute (s : State) (a : Nat) : W32 :=
  if a = 0x180000 then
    assemble 32 [(b2n s.route.swap.isSome, 31), (b2n (s.route.hold.any Hold.drained), 30), (b2n s.route.hold.isSome, 29),
      (((s.route.hold.map Hold.vcs).getD 0).toNat, 8), (b2n s.route.activeBank, 0)]
  else if a = 0x180004 then s.own.setWidth 32
  else if a = 0x180008 then assemble 32 [(b2n s.route.tblStandby, 16), (s.route.tblIndex.toNat, 0)]
  else if a = 0x180010 then assemble 32 [(s.route.keyPort.toNat, 7), (s.route.keyWord.toNat, 0)]
  else if a = 0x180018 then BitVec.ofNat 32 s.route.circ.length
  else if a = 0x18001C then
    assemble 32 [(s.route.noroute.toNat, 24), (s.route.portdown.toNat, 16), (s.route.kindDrop.toNat, 8),
      (s.route.swapDrop.toNat, 0)]
  else 0

/-- Registers of Trace (R228, R285). -/
def State.readTrace (s : State) (a : Nat) : W32 :=
  if a = 0x1C0000 then
    assemble 32 [(b2n s.trc.enable, 31), (b2n s.trc.replay, 30), (b2n s.trc.all, 29), (s.trc.part.toNat, 0)]
  else if a = 0x1C0004 then field s.trc.base 0 32
  else if a = 0x1C0008 then field s.trc.base 32 32
  else if a = 0x1C000C then s.trc.log2.setWidth 32
  else if a = 0x1C0010 then
    assemble 32 [(b2n (s.trc.active || s.trc.replay), 31), (b2n s.trc.full, 30), (b2n s.trc.incomplete, 29),
      (b2n s.trc.diverged, 28)]
  else if a = 0x1C0014 then s.trc.count
  else if a = 0x1C0018 then s.trc.drop
  else if a = 0x1C001C then assemble 32 [(s.trc.divReason.toNat, 28), (s.trc.divIndex.toNat, 0)]
  else if a = 0x1C0100 then s.trc.teleCtl
  else if a = 0x1C0104 then assemble 32 [(b2n s.trc.teleValid, 31), (s.trc.teleDest.toNat, 0)]
  else if a = 0x1C0108 then s.trc.teleDrop
  else 0

/-- The value of the register at an address of the map (R389), data registers of windows apart (R398). -/
def State.readReg (s : State) (a : Nat) : W32 :=
  match portReg a with
  | some (p, o) => s.readPort p o
  | none =>
    if a < 0x010000 then s.readCtl a
    else if a < 0x020000 then s.readBoot a
    else if a < 0x040000 then s.readPower a
    else if a < 0x080000 then s.readTongs a
    else if a < 0x0C0000 then s.readAnvil a
    else if a < 0x100000 then s.readWeld a
    else if a < 0x1C0000 then s.readRoute a
    else s.readTrace a

/-- A read of a register without effect (R334, R384): the response code and the data; no response while the YMB takes no access (R377,
R402). -/
def State.ymbRead (s : State) (a : Nat) : Option (BitVec 2 × W32) :=
  if !s.ymbOpen then none
  else match s.ymbGate a with
    | some code => some (code, 0)
    | none => some (rspOkay, s.readReg a)

/-! ### Windows and latches (R85, R271, R285, R317, R398 to R401) -/

/-- RTE_TBL_DATA read. -/
def State.routeGet (s : State) : State :=
  let e := Tbl.get 0 (s.bank s.route.tblStandby) s.route.tblIndex.toNat
  { s with route := { s.route with tblIndex := s.route.tblIndex + 1 } }.answer rspOkay (e.setWidth 32)

/-- A word of a port's key table. -/
def State.keyWord (s : State) (p w : Nat) : W32 :=
  BitVec.ofNat 32 (((List.range 32).map fun b => if Tbl.get false s.route.keys (p * 4096 + 32 * w + b) then 2 ^ b else 0).sum)

/-- RTE_KEY_DATA read. -/
def State.keyGet (s : State) : State :=
  if 39 < s.route.keyPort.toNat then s.error
  else
    let v := s.keyWord s.route.keyPort.toNat s.route.keyWord.toNat
    { s with route := { s.route with keyWord := s.route.keyWord + 1 } }.answer rspOkay v

/-- The Anvil island of a lane (R57, R330). -/
def State.laneIsland (s : State) (lane : Nat) : Option Island :=
  let u := lane / 128
  islandOfCode (8 + (if s.hrt.repair.toNat ≤ u then u + 1 else u) / 5)

/-- The flag word of the lane named is answered, and LANE goes on. -/
def State.flagAnswer (s : State) : State :=
  let w : FlagWord := Tbl.get { heat := 0, valid := false, flags := 0 } s.hrt.flagWords s.hrt.flagLane.toNat
  { s with hrt := { s.hrt with flagLane := s.hrt.flagLane + 1 } }.answer rspOkay
    (assemble 32 [(w.heat.toNat, 16), (b2n w.valid, 4), (w.flags.toNat, 0)])

/-- ANV_FLAG_DATA read: one of a lane of a gated island is answered when the island that it wakes is ALIGNED (R85, R373,
R387). -/
def State.flagGet (s : State) : State :=
  let lane := s.hrt.flagLane.toNat
  if 3072 ≤ lane then s.error
  else match s.laneIsland lane with
    | some i => if s.isReady i then s.flagAnswer
        else ({ s with ctl := { s.ctl with ymbWait := some (.flag i) } }).wake i
    | none => s.flagAnswer

/-- The island that a YMB access waits for is ALIGNED: the access is answered (R354, R373, R387). -/
def State.ymbGoes (s : State) : State :=
  match s.ctl.ymbWait with
  | some (.flag i) => if s.isReady i then s.flagAnswer else s
  | some (.link p v) => if s.isReady (portIsland p) then s.portOn p v else s
  | _ => s

/-- CTL_QUENCH_DATA read: the record counts as read once its last word has been read (R317). -/
def State.quenchGet (s : State) : State :=
  let n := 4 * s.quench.record.length
  let w := s.quench.word.toNat
  if !s.quench.valid || n ≤ w then s.error
  else
    let v := field (s.quench.record.getD (w / 4) 0) (32 * (w % 4)) 32
    { s with quench := { s.quench with word := s.quench.word + 1, unread := s.quench.unread && w + 1 ≠ n } }.answer rspOkay v

/-- CTL_MBOX_DATA read (R401). -/
def State.mboxGet (s : State) : State :=
  match s.quench.mbox with
  | [] => s.error
  | m :: rest =>
    let k := s.quench.mboxPtr.toNat
    { s with quench := { s.quench with
        mbox := if k = 15 then rest else m :: rest, mboxPtr := s.quench.mboxPtr + 1 } }.answer rspOkay (field m (32 * k) 32)

/-- CTL_EPOCH_LO read. -/
def State.epochGet (s : State) : State :=
  { s with time := { s.time with hiLatch := field s.epoch 32 32 } }.answer rspOkay (field s.epoch 0 32)

/-- A read of a profile's LO register. -/
def State.profileGet (s : State) (clock : Bool) : State :=
  if clock then
    { s with ctl := { s.ctl with clockHi := field s.ctl.clockProfile 32 32 } }.answer rspOkay (field s.ctl.clockProfile 0 32)
  else { s with ctl := { s.ctl with bitHi := field s.ctl.bitProfile 32 32 } }.answer rspOkay (field s.ctl.bitProfile 0 32)

/-! ### YMB writes (R384, R385, R389) -/

/-- Carry out a write to a register of the map. -/
def State.regWrite (s : State) (a : Nat) (v : W32) : State :=
  match portReg a with
  | some (p, o) => s.portWrite p o v
  | none =>
    if a = 0xC0 then s.policyWrite v
    else if a = 0x010020 then s.provCtlWrite v
    else if a = 0x010030 then s.nvmAddrWrite v
    else if a = 0x010034 then s.nvmDataPut v
    else if a = 0x010038 then s.nvmCmdWrite v
    else if a = 0x010040 then s.bootCtlWrite v
    else if a < 0x080000 then s.regWriteLow a v
    else s.regWriteHigh a v

/-- A write of the YMB. -/
def State.ymbWrite (s : State) (a : Nat) (v : W32) : State := s.ymbAt a fun s => s.regWrite a v

/-- Address of LNK_CTL or another register of a port's block (R389). -/
def portAddr (p : PortId) (o : Nat) : Nat :=
  if p.val < 32 then 0x100000 + p.val * 0x1000 + o else 0x140000 + (p.val - 32) * 0x1000 + o

/-! ### The pick port (R154, R155, R258, R365, R366, R396) -/

/-- Byte enables that an access may have. -/
def beOk (be : Byte) : Bool := be = 0x0F || be = 0xF0 || be = 0xFF

/-- Byte address of an access in the target space. -/
def pickByte (addr : BitVec 17) : Nat := 8 * addr.toNat

/-- Causes of rejecting an access, the lowest code first. -/
def lowest (cs : List (BitVec 3)) : Option (BitVec 3) :=
  cs.foldl (fun b c => match b with
    | none => some c
    | some x => if c < x then some c else some x) none

/-- Causes of rejecting a write. -/
def State.pickWriteCauses (s : State) (a : Nat) (be : Byte) (rid : BitVec 16) : List (BitVec 3) :=
  let badBe := if beOk be then [] else [causeBe]
  if a < 0x40000 then
    let off := a % 64
    let own := (s.pageRefused rid (a / 64) (off = 0 && (be = 0x0F || be = 0xFF))).toList
    if own = [causeUnassigned] then own
    else own ++ badBe ++ (if 0x20 ≤ off then [causeReserved] else [])
  else if a < 0x80000 then (s.barRefused rid ((a - 0x40000) / 16)).toList ++ badBe
  else badBe ++ [causeReserved]

/-- One 32-bit write of an access that is not rejected. -/
def State.pickPut (s : State) (rid : BitVec 16) (a : Nat) (v : W32) : State :=
  if a < 0x40000 then
    let q := a / 64
    let off := a % 64
    s.pageWrite rid q (off = 0) fun s =>
      if off = 0x00 then s.ring q v
      else if off = 0x04 then s.control q v
      else if off = 0x10 then s.ringWrite q .lo v
      else if off = 0x14 then s.ringWrite q .hi v
      else if off = 0x18 then s.ringWrite q .cfg v
      else s
  else
    let b := (a - 0x40000) / 16
    let off := a % 16
    if off = 0 then s.barWrite0 rid b v else if off = 4 then s.barWrite4 rid b v else s

/-- A write of the pick port: rejected once, or its registers, the lower first. -/
def State.pickWrite (s : State) (addr : BitVec 17) (be : Byte) (rid : BitVec 16) (wdata : W64) : State :=
  let a := pickByte addr
  match lowest (s.pickWriteCauses a be rid) with
  | some cause => s.pickReject cause rid
  | none =>
    let s := if be = 0xF0 then s else s.pickPut rid a (field wdata 0 32)
    if be = 0x0F then s else s.pickPut rid (a + 4) (field wdata 32 32)

/-- Causes of rejecting a read: the steward reads any queue page, the owner its own; barrier pages are the owner's. A page of an UNASSIGNED
queue has no owner: what is rejected there for another cause, the steward's read with it, is recorded as OWNER (R396). -/
def State.pickReadCauses (s : State) (a : Nat) (be : Byte) (rid : BitVec 16) : List (BitVec 3) :=
  let badBe := if beOk be then [] else [causeBe]
  if a < 0x40000 then
    let more := badBe ++ (if 0x20 ≤ a % 64 then [causeReserved] else [])
    let none_ := (s.queue (a / 64)).st = .unassigned
    (if rid = s.boot.cfg.stewardRid then (if none_ && more ≠ [] then [causeOwner] else [])
     else if !none_ && s.ownsQueue rid (a / 64) then [] else [causeOwner]) ++ more
  else if a < 0x80000 then
    (match s.partOfBar ((a - 0x40000) / 16) with
     | some p => if (s.part p).requester = rid then [] else [causeOwner]
     | none => [causeOwner]) ++ badBe
  else badBe ++ [causeReserved]

/-- A register of the target space. -/
def State.pickReg (s : State) (a : Nat) : W32 :=
  if a < 0x40000 then (s.queue (a / 64)).read (a % 64) else (s.bar ((a - 0x40000) / 16)).read (a % 16)

/-- A read of the pick port. -/
def State.pickRead (s : State) (addr : BitVec 17) (be : Byte) (rid : BitVec 16) : State :=
  let a := pickByte addr
  match lowest (s.pickReadCauses a be rid) with
  | some cause =>
    let s := s.pickReject cause rid
    { s with ctl := { s.ctl with pickData := 0 } }
  | none =>
    let lo := if be = 0xF0 then 0 else (s.pickReg a).toNat
    let hi := if be = 0x0F then 0 else (s.pickReg (a + 4)).toNat
    { s with ctl := { s.ctl with pickData := assemble 64 [(hi, 32), (lo, 0)] } }

/-- An access of the pick port, which is open while yx_mgmt_ready is 1 (R359, R377). -/
def State.pickAt (s : State) (f : State → State) : State := if s.mgmtReady then f s else s

end Sys2Proof.Machine
end

