-- ==== Sys2Proof/Machine/Dispatches.lean ====
section
/-! DEFINITION. The dispatch rows, one for each heat kind and variant of a kind (R19, R20, R160 to R166): the queue's next
grant is taken by a chain of that kind; and the rows of a heat's way from the descriptor to its record. -/

namespace Sys2Proof.Machine

/-- ALLREDUCE (R34). -/
def execAllreduce (q : BitVec 12) (s : State) : Out := .next (s.dispatch q.toNat .allreduce fun _ => true)

/-- REDUCE_SCATTER (R34). -/
def execReduceScatter (q : BitVec 12) (s : State) : Out := .next (s.dispatch q.toNat .reduceScatter fun _ => true)

/-- ALLGATHER (R34). -/
def execAllgather (q : BitVec 12) (s : State) : Out := .next (s.dispatch q.toNat .allgather fun _ => true)

/-- REDUCE (R34). -/
def execReduce (q : BitVec 12) (s : State) : Out := .next (s.dispatch q.toNat .reduce fun _ => true)

/-- BROADCAST (R38). -/
def execBroadcast (q : BitVec 12) (s : State) : Out := .next (s.dispatch q.toNat .broadcast fun _ => true)

/-- ALLTOALL (R39). -/
def execAlltoall (q : BitVec 12) (s : State) : Out := .next (s.dispatch q.toNat .alltoall fun _ => true)

/-- ROTATE (R41). -/
def execRotate (q : BitVec 12) (s : State) : Out := .next (s.dispatch q.toNat .rotate fun _ => true)

/-- TOPK (R148). -/
def execTopk (q : BitVec 12) (s : State) : Out := .next (s.dispatch q.toNat .topk fun _ => true)

/-- SOFTMAX_MERGE (R143). -/
def execSoftmaxMerge (q : BitVec 12) (s : State) : Out := .next (s.dispatch q.toNat .softmax fun _ => true)

/-- BARRIER (R263). -/
def execBarrier (q : BitVec 12) (s : State) : Out := .next (s.dispatch q.toNat .barrier fun _ => true)

/-- SEND (R44). -/
def execSend (q : BitVec 12) (s : State) : Out := .next (s.dispatch q.toNat .send fun _ => true)

/-- RECV (R44). -/
def execRecv (q : BitVec 12) (s : State) : Out := .next (s.dispatch q.toNat .recv fun _ => true)

/-- PARTIAL_WRITE (R45). -/
def execPartialWrite (q : BitVec 12) (s : State) : Out := .next (s.dispatch q.toNat .partialWrite fun _ => true)

/-- PLAN_LOAD (R26). -/
def execPlanLoad (q : BitVec 12) (s : State) : Out := .next (s.dispatch q.toNat .planLoad fun _ => true)

/-- PLAN_UNLOAD (R28). -/
def execPlanUnload (q : BitVec 12) (s : State) : Out := .next (s.dispatch q.toNat .planUnload fun _ => true)

/-- PRELOAD_SLOT (R122). -/
def execPreloadSlot (q : BitVec 12) (s : State) : Out := .next (s.dispatch q.toNat .preload fun _ => true)

/-- DRAIN_SLOT (R124). -/
def execDrainSlot (q : BitVec 12) (s : State) : Out := .next (s.dispatch q.toNat .drainSlot fun _ => true)

/-- NOP (R48). -/
def execNop (q : BitVec 12) (s : State) : Out := .next (s.dispatch q.toNat .nop fun _ => true)

/-- PARTITION_CREATE (R292). -/
def execPartitionCreate (s : State) : Out := .next (s.dispatch 0 .partCreate fun w => !bit w.w6 32)

/-- PARTITION_UPDATE (R292). -/
def execPartitionUpdate (s : State) : Out := .next (s.dispatch 0 .partCreate fun w => bit w.w6 32)

/-- PARTITION_RESET (R298). -/
def execPartitionReset (s : State) : Out := .next (s.dispatch 0 .partReset fun w => !bit w.w6 8)

/-- PARTITION_RELEASE (R299). -/
def execPartitionRelease (s : State) : Out := .next (s.dispatch 0 .partReset fun w => bit w.w6 8)

/-- KEY_SET (R293). -/
def execKeySet (s : State) : Out := .next (s.dispatch 0 .keySet fun _ => true)

/-- QUOTA_SET (R295). -/
def execQuotaSet (s : State) : Out := .next (s.dispatch 0 .quotaSet fun _ => true)

/-- ROUTE_SWAP (R223). -/
def execRouteSwap (s : State) : Out := .next (s.dispatch 0 .routeSwap fun w => !bit w.w6 0)

/-- ROUTE_SWAP_FORCED (R224). -/
def execRouteSwapForced (s : State) : Out := .next (s.dispatch 0 .routeSwap fun w => bit w.w6 0)

/-- DRAIN_VC (R222). -/
def execDrainVc (s : State) : Out := .next (s.dispatch 0 .drainVc fun w => !bit w.w6 8)

/-- DRAIN_VC_RELEASE (R222). -/
def execDrainVcRelease (s : State) : Out := .next (s.dispatch 0 .drainVc fun w => bit w.w6 8)

/-- CABLE_ADOPT (R246). -/
def execCableAdopt (s : State) : Out := .next (s.dispatch 0 .cableAdopt fun w => !bit w.w6 16)

/-- CABLE_ADOPT_PAIR (R246). -/
def execCableAdoptPair (s : State) : Out := .next (s.dispatch 0 .cableAdopt fun w => bit w.w6 16)

/-- REIMAGE_STAGE (R340). -/
def execReimageStage (s : State) : Out := .next (s.dispatch 0 .reimageStage fun _ => true)

/-- REIMAGE_ACTIVATE (R341). -/
def execReimageActivate (s : State) : Out := .next (s.dispatch 0 .reimageActivate fun _ => true)

/-- PLAN_REVOKE (R302). -/
def execPlanRevoke (s : State) : Out := .next (s.dispatch 0 .planRevoke fun _ => true)

/-! ### From the ring to the record -/

/-- PENDING_TAIL_APPLY (R158). -/
def execPendingTailApply (q : BitVec 12) (s : State) : Out := .next (s.applyTail q.toNat)

/-- DESCRIPTOR_FETCH (R163): up to 8 entries. -/
def execDescriptorFetch (q : BitVec 12) (s : State) : Out := .next (s.fetch q.toNat 8)

/-- CHAIN_VALIDATE (R173): at most 16 entries, then the checks. -/
def execChainValidate (q : BitVec 12) (s : State) : Out := .next (s.consume q.toNat 17).pumpAll

/-- SLOT_OBTAIN (R52). -/
def execSlotObtain (ctx : BitVec 12) (s : State) : Out := .next (s.slotObtain ctx.toNat)

/-- SET_DRAIN_DONE (R127). -/
def execSetDrainDone (ctx : BitVec 12) (s : State) : Out := .next (s.drainDone ctx.toNat).pumpAll

/-- HEAT_COMPLETION (R177). -/
def execHeatCompletion (ctx : BitVec 12) (s : State) : Out := .next (s.finish ctx.toNat)

/-- COMPLETION_EVENT (R369). -/
def execCompletionEvent (s : State) : Out := .next s.sendEvent

end Sys2Proof.Machine
end

