-- ==== Sys2Proof/Machine/Pages.lean ====
section
/-! DEFINITION. The rows of the register ports: queue pages, register writes and window reads (R154 to R165, R384 to R402). -/

namespace Sys2Proof.Machine

/-! ### Queue pages -/

/-- A 32-bit write of the pick port to a queue page. -/
def State.pageRow (s : State) (rid : BitVec 16) (q : BitVec 12) (doorbell : Bool) (f : State → State) : State :=
  s.pickAt fun s => (s.pageWrite rid q.toNat doorbell f).pumpAll

/-- DOORBELL (R157). -/
def execDoorbell (rid : BitVec 16) (q : BitVec 12) (v : W32) (s : State) : Out :=
  .next (s.pageRow rid q true fun s => s.ring q.toNat v)

/-- QUEUE_ENABLE (R161): a write of QP_CTRL. -/
def execQueueEnable (rid : BitVec 16) (q : BitVec 12) (v : W32) (s : State) : Out :=
  .next (s.pageRow rid q false fun s => s.control q.toNat v)

/-- QUEUE_DISABLE (R161): a write of QP_CTRL. -/
def execQueueDisable (rid : BitVec 16) (q : BitVec 12) (v : W32) (s : State) : Out :=
  .next (s.pageRow rid q false fun s => s.control q.toNat v)

/-- QUEUE_HOLD (R165): a write of QP_CTRL. -/
def execQueueHold (rid : BitVec 16) (q : BitVec 12) (v : W32) (s : State) : Out :=
  .next (s.pageRow rid q false fun s => s.control q.toNat v)

/-- QUEUE_INVAL (R165): a write of QP_CTRL. -/
def execQueueInval (rid : BitVec 16) (q : BitVec 12) (v : W32) (s : State) : Out :=
  .next (s.pageRow rid q false fun s => s.control q.toNat v)

/-- QUEUE_RESET (R161): a write of QP_CTRL. -/
def execQueueReset (rid : BitVec 16) (q : BitVec 12) (v : W32) (s : State) : Out :=
  .next (s.pageRow rid q false fun s => s.control q.toNat v)

/-- RING_CONFIG_WRITE (R156). -/
def execRingConfigWrite (rid : BitVec 16) (q : BitVec 12) (r : RingReg) (v : W32) (s : State) : Out :=
  .next (s.pageRow rid q false fun s => s.ringWrite q.toNat r v)

/-- PICK_PORT_READ (R154). -/
def execPickPortRead (addr : BitVec 17) (be : Byte) (rid : BitVec 16) (s : State) : Out :=
  .next (s.pickAt fun s => s.pickRead addr be rid)

/-! ### Writes of the YMB -/

/-- LINK_ENABLE (R239): a write of LNK_CTL. -/
def execLinkEnable (p : PortId) (v : W32) (s : State) : Out := .next (s.ymbWrite (portAddr p 0x04) v)

/-- LINK_DISABLE (R239): a write of LNK_CTL. -/
def execLinkDisable (p : PortId) (v : W32) (s : State) : Out := .next (s.ymbWrite (portAddr p 0x04) v)

/-- LINK_PROBE (R241): a write of LNK_CTL. -/
def execLinkProbe (p : PortId) (v : W32) (s : State) : Out := .next (s.ymbWrite (portAddr p 0x04) v)

/-- LINK_RESTORE (R250): a write of LNK_CTL. -/
def execLinkRestore (p : PortId) (v : W32) (s : State) : Out := .next (s.ymbWrite (portAddr p 0x04) v)

/-- CREDIT_ALLOT_WRITE (R210). -/
def execCreditAllotWrite (p : PortId) (v : W32) (s : State) : Out := .next (s.ymbWrite (portAddr p 0x10C) v)

/-- ROUTE_TABLE_WRITE (R221): a write of RTE_TBL_DATA. -/
def execRouteTableWrite (v : W32) (s : State) : Out := .next (s.ymbWrite 0x18000C v)

/-- ISLAND_RESET (R303): a write of CTL_ISLAND_RST. -/
def execIslandReset (v : W32) (s : State) : Out := .next (s.ymbWrite 0x8C v)

/-- TNG_ABORT (R297): a write of TNG_ABORT. -/
def execTngAbort (v : W32) (s : State) : Out := .next (s.ymbWrite 0x040148 v)

/-- DIAG_ENABLE (R83): a write of ANV_DIAG_CTL. -/
def execDiagEnable (v : W32) (s : State) : Out := .next (s.ymbWrite 0x080040 v)

/-- DIAG_CLEAR (R84): a write of ANV_DIAG_CTL. -/
def execDiagClear (v : W32) (s : State) : Out := .next (s.ymbWrite 0x080040 v)

/-- POLICY_WRITE (R392): a write of CTL_POLICY. -/
def execPolicyWrite (v : W32) (s : State) : Out := .next (s.ymbWrite 0xC0 v)

/-- PLATFORM_TAG_WRITE (R393): a write of CTL_PLATFORM_TAG. -/
def execPlatformTagWrite (v : W32) (s : State) : Out := .next (s.ymbWrite 0xC4 v)

/-- WDOG_WRITE (R320): a write of TNG_WDOG. -/
def execWdogWrite (v : W32) (s : State) : Out := .next (s.ymbWrite 0x040110 v)

/-- RECORD_ENABLE (R282): a write of TRC_REC_CTL. -/
def execRecordEnable (v : W32) (s : State) : Out := .next (s.ymbWrite 0x1C0000 v)

/-- RECORD_DISABLE (R282): a write of TRC_REC_CTL. -/
def execRecordDisable (v : W32) (s : State) : Out := .next (s.ymbWrite 0x1C0000 v)

/-- REPLAY_START (R283): a write of TRC_REC_CTL. -/
def execReplayStart (v : W32) (s : State) : Out := .next (s.ymbWrite 0x1C0000 v)

/-- TELEMETRY_ENABLE (R226): a write of TRC_TELE_CTL. -/
def execTelemetryEnable (v : W32) (s : State) : Out := .next (s.ymbWrite 0x1C0100 v)

/-- PROV_REQUEST (R335): a write of BOOT_PROV_CTL. -/
def execProvRequest (v : W32) (s : State) : Out := .next (s.ymbWrite 0x010020 v)

/-- PROV_CLOSE (R335): a write of BOOT_PROV_CTL. -/
def execProvClose (v : W32) (s : State) : Out := .next (s.ymbWrite 0x010020 v)

/-- TAP_UNLOCK (R338): a write of BOOT_PROV_CTL. -/
def execTapUnlock (v : W32) (s : State) : Out := .next (s.ymbWrite 0x010020 v)

/-- NVM_ERASE (R337): a write of BOOT_NVM_CMD. -/
def execNvmErase (v : W32) (s : State) : Out := .next (s.ymbWrite 0x010038 v)

/-- NVM_PROGRAM (R337): a write of BOOT_NVM_CMD. -/
def execNvmProgram (v : W32) (s : State) : Out := .next (s.ymbWrite 0x010038 v)

/-- NVM_DATA_WRITE (R337): a write of BOOT_NVM_DATA. -/
def execNvmDataWrite (v : W32) (s : State) : Out := .next (s.ymbWrite 0x010034 v)

/-- BOOT_RETRY (R334): a write of BOOT_CTL. -/
def execBootRetry (v : W32) (s : State) : Out := .next (s.ymbWrite 0x010040 v)

/-- REGISTER_WRITE (R384): a write of the YMB or of the pick port. -/
def execRegisterWrite (w : RegWrite) (s : State) : Out :=
  .next (match w with
    | .ymb a v => s.ymbWrite a.toNat v
    | .pick a be rid d => s.pickAt fun s => (s.pickWrite a be rid d).pumpAll)

/-! ### Reads that act -/

/-- ROUTE_TABLE_READ (R398). -/
def execRouteTableRead (s : State) : Out := .next (s.ymbAt 0x18000C State.routeGet)

/-- KEY_TABLE_READ (R398). -/
def execKeyTableRead (s : State) : Out := .next (s.ymbAt 0x180014 State.keyGet)

/-- FLAG_DATA_READ (R85). -/
def execFlagDataRead (s : State) : Out := .next (s.ymbAt 0x080048 State.flagGet)

/-- QUENCH_DATA_READ (R317). -/
def execQuenchDataRead (s : State) : Out := .next (s.ymbAt 0x88 State.quenchGet)

/-- MBOX_DATA_READ (R401). -/
def execMboxDataRead (s : State) : Out := .next (s.ymbAt 0x98 State.mboxGet)

/-- EPOCH_READ (R271). -/
def execEpochRead (s : State) : Out := .next (s.ymbAt 0x40 State.epochGet)

/-- PROFILE_READ (R285). -/
def execProfileRead (clock : Bool) (s : State) : Out :=
  .next (s.ymbAt (if clock then 0x68 else 0x60) fun s => s.profileGet clock)

end Sys2Proof.Machine
end

