-- ==== Sys2Proof/Machine/Wires.lean ====
section
/-! DEFINITION. The rows of links (R236 to R253, R372), of drains and swaps (R222 to R224), of power, alignment and islands (R303,
R304, R349, R353 to R356), of Hearth's patrol and scrub (R131 to R134), of the sequencers (R339 to R342) and of the TAP
(R375). -/

namespace Sys2Proof.Machine

/-! ### Links -/

/-- The link and sibling islands run: from boot step 6 on. -/
def State.linksRun (s : State) : Bool := s.boot.state = .train || s.boot.state = .done

/-- An event of a port while the links run. -/
def State.linkRow (s : State) (f : State → State) : State := if s.linksRun then (f s).pumpAll else s

/-- 20 µs, the retry budget (R251). -/
def budgetPs : Nat := 20 * usPs

/-- A re-probe of an ABSENT port is due (R241): REPROBE_MS after the entry into ABSENT, so after the end of the last attempt's gap
(DESIGN CHOICE, log 81). -/
def State.reprobe (s : State) (p : Nat) : State :=
  let x := s.port p
  if x.reg.st = .absent then (s.advanceTo (x.tr.since + x.reg.reprobeMs.toNat * msPs)).attempt p true else s

/-- No frame has resumed within 8 µs (R249). -/
def State.retrainFails (s : State) (p : Nat) : State :=
  let x := s.port p
  if x.reg.st = .retrain then (s.advanceTo (x.tr.since + 8 * usPs)).portLoss p else s

/-- No ACK progress for 20 µs with frames kept (R251). -/
def State.ackStalls (s : State) (p : Nat) : State :=
  let x := s.port p
  if x.reg.st.inService && x.tx.kept ≠ [] then (s.advanceTo (x.tx.progressAt + budgetPs)).portLoss p else s

/-- No good frame for 20 µs (R251). -/
def State.falls (s : State) (p : Nat) : State :=
  let x := s.port p
  if x.reg.st.inService then (s.advanceTo (x.rx.lastGood + budgetPs)).portLoss p else s

/-- The port loss actions are complete (R252). -/
def State.lossDone (s : State) (p : Nat) : State := if (s.port p).reg.st = .lost then (s.series p).detectStep p else s

/-- The lanes that the PHY or an adapter reports while the links do not run: what it reports is kept. -/
def State.noteLanes (s : State) (p : Nat) (f : Byte → Byte) : State := s.modTr p fun t => { t with sig := f t.sig }

/-- FRAME_RECEIVE (R236). -/
def execFrameReceive (p : PortId) (f : Option Frame) (s : State) : Out := .next (s.linkRow fun s => s.frameIn p f)

/-- FRAME_SEND (R215). -/
def execFrameSend (p : PortId) (s : State) : Out := .next (s.linkRow fun s => s.sendFrame p)

/-- REPLAY_TIMEOUT (R237). -/
def execReplayTimeout (p : PortId) (s : State) : Out := .next (s.linkRow fun s => s.replay p)

/-- PERIOD_BOUNDARY (R238). -/
def execPeriodBoundary (p : PortId) (r : PeriodIn) (s : State) : Out := .next (s.linkRow fun s => s.period p r)

/-- TRAINING_WORD (R242). -/
def execTrainingWord (p : PortId) (w : BitVec 256) (s : State) : Out :=
  .next (s.linkRow fun s => match TWord.of w with
    | some t => s.trainWord p t
    | none => s)

/-- TRAIN_PHASE_TIMEOUT (R240). -/
def execTrainPhaseTimeout (p : PortId) (s : State) : Out := .next (s.linkRow fun s => s.phaseTimeout p)

/-- ATTEMPT_GAP_END (R241). -/
def execAttemptGapEnd (p : PortId) (s : State) : Out := .next (s.linkRow fun s => s.gapEnd p)

/-- REPROBE_TIMER (R241). -/
def execReprobeTimer (p : PortId) (s : State) : Out := .next (s.linkRow fun s => s.reprobe p)

/-- LANE_SIGNAL_CHANGE (R248). -/
def execLaneSignalChange (p : PortId) (lane : BitVec 3) (ok : Bool) (s : State) : Out :=
  .next (if s.linksRun then (s.laneSignal p lane.toNat ok).pumpAll else s.noteLanes p fun m => putBit m lane.toNat ok)

/-- RETRAIN_TIMEOUT (R249). -/
def execRetrainTimeout (p : PortId) (s : State) : Out := .next (s.linkRow fun s => s.retrainFails p)

/-- ACK_PROGRESS_TIMEOUT (R251). -/
def execAckProgressTimeout (p : PortId) (s : State) : Out := .next (s.linkRow fun s => s.ackStalls p)

/-- RX_SILENCE_TIMEOUT (R251). -/
def execRxSilenceTimeout (p : PortId) (s : State) : Out := .next (s.linkRow fun s => s.falls p)

/-- PORT_LOSS_DONE (R252). -/
def execPortLossDone (p : PortId) (s : State) : Out := .next (s.linkRow fun s => s.lossDone p)

/-- FDI_STATE_CHANGE (R372). -/
def execFdiStateChange (n : Fin 8) (st : FdiState) (s : State) : Out :=
  .next (if s.linksRun then (s.fdi (32 + n.val) st).pumpAll
    else s.noteLanes (32 + n.val) fun m => match st with
      | .active => 0xFF
      | .retrain => m
      | _ => 0)

/-- SIB_X32_CHANGE (R372). -/
def execSibX32Change (n : Fin 8) (x32 : Bool) (s : State) : Out := .next (s.sibWidth (32 + n.val) x32).pumpAll

/-! ### Drains and swaps -/

/-- DRAIN_VC_QUIET (R222). -/
def execDrainVcQuiet (s : State) : Out := .next s.drainQuiet.pumpAll

/-- DRAIN_VC_TIMEOUT (R222). -/
def execDrainVcTimeout (s : State) : Out := .next s.drainTimeout.pumpAll

/-- SWAP_EDGE (R223). -/
def execSwapEdge (s : State) : Out := .next s.swapNow.pumpAll

/-- FORCED_SWAP_QUIET_END (R224). -/
def execForcedSwapQuietEnd (s : State) : Out :=
  .next (match s.route.forceUntil with
    | some t =>
      let s := s.advanceTo t
      { s with route := { s.route with forceUntil := none } }
    | none => s)

/-! ### Power, alignment, islands -/

/-- SENSOR_SAMPLE (R356). -/
def execSensorSample (temps : List Byte) (s : State) : Out := .next (if s.inReset then s else s.sample temps)

/-- THERMAL_HYST_EXPIRY (R356). -/
def execThermalHystExpiry (s : State) : Out := .next s.cooled

/-- ISLAND_GATE (R353, R354): once boot is over, and IDLE_US has passed. -/
def execIslandGate (i : Island) (s : State) : Out :=
  .next (if (s.boot.state = .done || s.boot.state = .identOnly) && s.mayGate i then (s.advanceTo (s.idleOver i)).gate i
    else s)

/-- ISLAND_WAKE (R353). -/
def execIslandWake (i : Island) (s : State) : Out := .next (s.ramped i)

/-- ALIGN_FRAME_CHECK (R349): frame edges exist from boot step 5 on, once the epoch runs (R347). In step 5 a check that would end
after its limit finds the limit passed (R350). -/
def execAlignFrameCheck (i : Island) (ok : Bool) (s : State) : Out :=
  .next (if (s.boot.state = .align || s.linksRun) && s.time.running then
    if s.boot.state = .align && decide (s.boot.since + 100 * msPs < s.checkEnd i) then s.alignTimeout
    else (s.alignCheck i ok).wakeOver.ymbGoes.traceAligned.pumpAll
  else s)

/-- ISLAND_FAULT (R304). -/
def execIslandFault (i : Island) (unit : BitVec 5) (touched : List (BitVec 12)) (s : State) : Out :=
  .next (if s.boot.state = .done then (s.islandFaults i unit.toNat (touched.map fun c => c.toNat)).pumpAll else s)

/-- ISLAND_RESET_START (R303). -/
def execIslandResetStart (s : State) : Out := .next s.startIsland.pumpAll

/-- LANE_OCCUPANCY_WAKE (R354). -/
def execLaneOccupancyWake (s : State) : Out :=
  .next (if s.boot.state = .done && s.power.autoAnvil then s.wakeAnvil else s)

/-! ### Patrol and scrub (R131 to R134) -/

/-- Poison what an ingot belongs to: a set, with the heat that uses it, or a bias region (R134). -/
def State.poisonIngot (s : State) (i : Nat) : State :=
  match s.hrt.slots.find? fun e => e.2.any fun sl => sl.biasIngots.elem i || sl.sets.any fun x => x.ingots.elem i with
  | some (k, some sl) =>
    if sl.biasIngots.elem i then s.setSlot (k / 65536) (k % 65536) (some { sl with biasBad := true })
    else
      let j := sl.sets.findIdx fun x => x.ingots.elem i
      let s := s.setSlot (k / 65536) (k % 65536)
        (some { sl with sets := sl.sets.modify j fun x => { x with st := .poisoned, cells := [] } })
      match s.heatList.find? fun e => e.2.live && e.2.dp.slotHeld && !e.2.dp.setDone && e.2.dp.setIdx = j &&
          e.2.id.part.map (fun p => p * 65536 + e.2.id.w.slot) = some k with
      | some e => s.endHeat e.1 .hearthEcc
      | none => s
  | _ => s

/-- Patrol has found an uncorrectable error in ingot `i`: what it belongs to is poisoned; a free one is scrubbed again (R134). -/
def State.patrolFound (s : State) (i : Nat) : State :=
  if Tbl.get false s.hrt.ingots i then (if s.hrt.scrub.elem i then s else s.poisonIngot i)
  else { s with hrt := { s.hrt with ingots := Tbl.set false s.hrt.ingots i true, scrub := s.hrt.scrub ++ [i] } }

/-- Words of a patrol line, in every bank: line `l` of a bank is 64 B of stripe `l / 8`. -/
def lineWords (l : Nat) : List Nat :=
  (List.range 64).map fun j => wordKey (l / 8) (j / 8) (l % 8 * 8 + j % 8)

/-- Patrol reads a line of every bank; it skips ingots awaiting scrub (R134). -/
def State.patrolLine (s : State) (l : Nat) : State :=
  if s.hrt.resetting || s.hrt.scrub.elem (l / 8) || s.hrt.upsets = [] then s
  else (lineWords l).foldl (fun s k =>
    let r := s.readWord k true
    if r.2 then r.1 else r.1.patrolFound (l / 8)) s

/-- 4,096 hclk (R134, R345). -/
def patrolPs : Nat := 4096 * 500

/-- Bits of Hearth have flipped, and patrol reads its next line (R134), at a fixed phase of the epoch counter (R278). -/
def State.patrolRun (s : State) (fs : List Flip) : State :=
  let s := s.flips fs
  if s.hrt.patrol && s.hearthServes then
    let s := s.toPhase s.hrt.patrolAt patrolPs
    let s := s.patrolLine s.hrt.patrolLine.toNat
    { s with hrt := { s.hrt with patrolLine := s.hrt.patrolLine + 1, patrolAt := s.epochPs } }
  else s

/-- The first `n` ingots that wait are scrubbed and free, in the order of their release (R133). After a reset, a wake or BIST every ingot
waits, and the scrub ends with all of them, whatever `n` is (log 26). -/
def State.scrubOver (s : State) (n : Nat) : State :=
  if !s.hearthServes then s
  else
    let all := s.hrt.resetting
    let gone := if all then s.hrt.scrub else s.hrt.scrub.take n
    let s := if all then s.written fun _ => true else s.ingotsWritten gone
    let s : State := { s with hrt := { s.hrt with
      ingots := gone.foldl (fun t i => Tbl.set false t i false) s.hrt.ingots, scrub := s.hrt.scrub.drop gone.length, resetting := false } }
    let s : State := if all then { s with power := { s.power with woken := clearBits s.power.woken (maskOf ((List.range 8).map (13 + ·))) } } else s
    { s with power := { s.power with hearthIdle := if s.hrt.ingots = [] && (all || gone ≠ []) then s.time.now else s.power.hearthIdle } }

/-- PATROL_READ (R134). -/
def execPatrolRead (fs : List Flip) (s : State) : Out := .next (s.patrolRun fs).pumpAll

/-- SCRUB_DONE (R133). -/
def execScrubDone (s : State) (n : Nat := 1) : Out := .next (s.scrubOver n).wakeOver

/-! ### Sequencers -/

/-- Checks 1 to 6 of R327 on a header and a SEQ_UCODE read again, whose VERSION and CRC must be those loaded at boot (R342). -/
def State.reloadOk (s : State) (hdr ucode : List Byte) : Bool :=
  let cs := compTable hdr
  (whyHeader hdr s.boot.region).isNone && (whyWindow cs).isNone &&
    match compOf cs 2 with
    | some c => crc32 (slice ucode 0 c.length) = c.crc && c.version = s.boot.seqBootVer && c.crc = s.boot.seqBootCrc
    | none => false

/-- A reset or release that waited for a sequencer goes on from the step that it had reached (R342), and the steward heats behind it start. -/
def State.resetsGo (s : State) : State :=
  let s := ((s.heatList.filter fun e => e.2.live && e.2.run.phase ≠ .queued && e.2.id.d.kind = .partReset).map Prod.fst).foldl
    (fun s c => match s.heat c with
      | some h =>
        let st := (s.part h.id.w.partIdx).state
        if st = .resetting || st = .releasing then s.resetGo h.id.w.partIdx else s.startReset c
      | none => s) s
  ((s.heatList.filter fun e => e.2.live && e.2.run.phase = .queued).map fun e => e.2.id.w.partIdx).foldl State.startQueued s

/-- The reload of R342 has ended: the active store holds the microcode of the image again, the captures that waited are written, and resets
go on; or FATAL is set. -/
def State.reloaded (s : State) (hdr ucode : List Byte) : State :=
  if !s.seq.reload || s.prov.busy.isSome then s
  else if s.reloadOk hdr ucode then
    ({ s with
       boot := { s.boot with seqVer := s.boot.seqBootVer }
       seq := { s.seq with reload := false, ifrev := BitVec.ofNat 8 s.boot.trnIfrev } }).reclock.publishWaiting.resetsGo
  else { s with seq := { s.seq with reload := false, fatal := true } }

/-- The quiesce boundary (R341), before TIMEOUT_MS has passed. -/
def State.quiesce (s : State) : State :=
  match s.seq.hold with
  | some (_, t) =>
    if !s.seqBusy && s.seq.standby = .staged && decide (s.time.now ≤ t) then (s.switch.perturbAll.endHoldSeq .ok).pumpAll else s
  | none => s

/-- TIMEOUT_MS passes before the boundary (R341): the boundary comes first where no sequencer work is in progress by then. -/
def State.holdExpires (s : State) : State :=
  match s.seq.hold with
  | some (_, t) =>
    if !s.seqBusy && s.seq.standby = .staged && decide (s.time.now ≤ t) then s.quiesce
    else ((s.advanceTo t).endHoldSeq .abortTimeout).pumpAll
  | none => s

/-- SEQ_FAULT (R342). -/
def execSeqFault (s : State) : Out := .next (if s.boot.state = .done then s.seqFaulted.pumpAll else s)

/-- STANDBY_LOAD_DONE (R339). -/
def execStandbyLoadDone (ok : Bool) (s : State) : Out := .next (s.loadDone ok).pumpAll

/-- NVM_RELOAD_DONE (R342). -/
def execNvmReloadDone (b : List Byte × List Byte) (s : State) : Out := .next (s.reloaded b.1 b.2).pumpAll

/-- REIMAGE_QUIESCE (R341). -/
def execReimageQuiesce (s : State) : Out := .next s.quiesce

/-- REIMAGE_ACTIVATE_TIMEOUT (R341). -/
def execReimageActivateTimeout (s : State) : Out := .next s.holdExpires

/-! ### The TAP (R130, R375) -/

/-- Load the instruction register. -/
def State.tap (s : State) (code : Byte) : State := { s with prov := { s.prov with tapInstr := code } }

/-- The IDCODE. -/
def State.idcode (s : State) : W32 := assemble 32 [(1, 28), (0x5958, 12), (s.ctl.strapMfr.toNat, 1), (1, 0)]

/-- The instruction that acts: outside the open private chain, EXTEST, PRIV_SCAN and the BIST instructions act as BYPASS, and so
does every reserved code. -/
def State.tapActs (s : State) : Byte :=
  let i := s.prov.tapInstr
  if i = 0x01 || i = 0x02 then i
  else if (i = 0x03 || i = 0x10 || i = 0x11 || i = 0x12) && s.prov.tapOpen then i
  else 0xFF

/-- Memory BIST of Hearth: only from the open chain, only when every ingot has been scrubbed; Hearth is scrubbed again before any
slot is allocated (R130). -/
def State.hearthBist (s : State) (pass : BitVec 8) : State :=
  let s := s.tap 0x11
  if s.prov.tapOpen && s.hrt.ingots = [] && !s.hrt.resetting then
    { s with prov := { s.prov with bistHrt := some pass }, hrt := { s.hrt with resetting := true } }
  else s

/-- IDCODE (R375). -/
def execIdcode (s : State) : Out := .next (s.tap 0x01)

/-- The boundary register takes what has been shifted into it. -/
def State.shiftBoundary (s : State) (b : Boundary) : State := { s with prov := { s.prov with boundary := b } }

/-- The bypass register takes a bit. -/
def State.shiftBypass (s : State) (tdi : Bool) : State := { s with prov := { s.prov with bypass := tdi } }

/-- EXTEST drives the wrapped outputs. -/
def State.extest (s : State) : Bool := s.tapActs = 0x03

/-- A wrapped output: the boundary register's cell under EXTEST, else what the block drives. -/
def State.driven {α : Type} (s : State) (cell : Boundary → α) (own : α) : α := if s.extest then cell s.prov.boundary else own

/-- yx_irq, yx_pwr_trip and yx_mgmt_ready as the pins show them (R370, R375, R377). -/
def State.irqPin (s : State) : Bool := s.driven (fun b => b.irq) s.irq
def State.tripPin (s : State) : Bool := s.driven (fun b => b.trip) s.thermalTrip
def State.readyPin (s : State) : Bool := s.driven (fun b => b.ready) s.mgmtReady

/-- yx_ctl_nvm_cs_n (R374, R377): low while an operation of the NVM window, a boot step or a reload reads or writes the device. -/
def State.nvmCsN (s : State) : Bool :=
  s.driven (fun b => b.nvmCsN) (s.inReset || !(s.prov.busy.isSome || s.seq.reload || s.boot.state = .nvm))

/-- The other outputs of the SPI NOR (R374): the clock rests low, and IO0 to IO3 are not driven, but within a transfer, which no command shows
(log 8). -/
def State.nvmSck (s : State) : Bool := s.driven (fun b => b.nvmSck) false
def State.nvmOut (s : State) : BitVec 4 := s.driven (fun b => b.nvmOut) 0
def State.nvmOe (s : State) : BitVec 4 := s.driven (fun b => b.nvmOe) 0

/-- The outputs of the YMB (R373): an access is taken while the YMB is open; its response is given within the command that carries it out, or
that ends its wait, and its code and data are those of the last. -/
def State.reqReady (s : State) : Bool := s.driven (fun b => b.reqReady) s.ymbOpen
def State.rspValid (s : State) : Bool := s.driven (fun b => b.rspValid) false
def State.rspCode (s : State) : BitVec 2 := s.driven (fun b => b.rspCode) s.ctl.rspCode
def State.rspData (s : State) : W32 := s.driven (fun b => b.rspData) s.ctl.rspData

/-- yx_ctl_seal_drive (R380). -/
def State.sealDrive (s : State) : Bool := s.driven (fun b => b.sealDrive) s.sealBit

/-- yx_lnk_tx_en of a PHY lane of a link port (R371, R377). -/
def State.txEn (s : State) (p lane : Nat) : Bool :=
  let x := s.port p
  let down : Bool := match x.reg.st with
    | .unused | .disabled | .lost => true
    | _ => false
  !s.inReset && s.linksRun && s.isOn (portIsland p) && !down && !x.tr.gap && (!x.reg.st.inService || bit x.reg.laneUse lane)

/-- SAMPLE_PRELOAD (R375): the boundary register is selected, and a value shifted in, with no effect on the ports. -/
def execSamplePreload (s : State) (b : Boundary := .zero) : Out := .next ((s.tap 0x02).shiftBoundary b)

/-- EXTEST (R375): as BYPASS unless TAP_OPEN is 1. -/
def execExtest (s : State) (b : Boundary := .zero) : Out :=
  .next (let r := s.tap 0x03
         if r.extest then r.shiftBoundary b else r)

/-- PRIV_SCAN (R375). -/
def execPrivScan (s : State) : Out := .next (s.tap 0x10)

/-- HRT_BIST (R130). -/
def execHrtBist (pass : BitVec 8) (s : State) : Out := .next (s.hearthBist pass)

/-- SRAM_BIST (R375). -/
def execSramBist (pass : Bool) (s : State) : Out :=
  .next (let r := s.tap 0x12
         if r.prov.tapOpen then { r with prov := { r.prov with bistSram := some pass } } else r)

/-- BYPASS (R375): a bit passes through the bypass register. -/
def execBypass (s : State) (tdi : Bool := false) : Out := .next ((s.tap 0xFF).shiftBypass tdi)

/-- TEST_LOGIC_RESET (R375). -/
def execTestLogicReset (s : State) : Out := .next (s.tap 0x01)

end Sys2Proof.Machine
end

