-- ==== Sys2Proof/Machine/Dispatch.lean ====
section
/-! DEFINITION. The dispatch of a command to its meaning: one arm per command. -/

namespace Sys2Proof.Machine

/-- The effect of a command on everything but the queue. -/
def exec (i : Instr) (s : State) : Host.Outcome State Fault Refusal :=
  match i with
  | .allreduce q => Sys2Proof.Machine.execAllreduce q s
  | .reduceScatter q => Sys2Proof.Machine.execReduceScatter q s
  | .allgather q => Sys2Proof.Machine.execAllgather q s
  | .reduce q => Sys2Proof.Machine.execReduce q s
  | .broadcast q => Sys2Proof.Machine.execBroadcast q s
  | .alltoall q => Sys2Proof.Machine.execAlltoall q s
  | .rotate q => Sys2Proof.Machine.execRotate q s
  | .topk q => Sys2Proof.Machine.execTopk q s
  | .softmaxMerge q => Sys2Proof.Machine.execSoftmaxMerge q s
  | .barrier q => Sys2Proof.Machine.execBarrier q s
  | .send q => Sys2Proof.Machine.execSend q s
  | .recv q => Sys2Proof.Machine.execRecv q s
  | .partialWrite q => Sys2Proof.Machine.execPartialWrite q s
  | .planLoad q => Sys2Proof.Machine.execPlanLoad q s
  | .planUnload q => Sys2Proof.Machine.execPlanUnload q s
  | .preloadSlot q => Sys2Proof.Machine.execPreloadSlot q s
  | .drainSlot q => Sys2Proof.Machine.execDrainSlot q s
  | .nop q => Sys2Proof.Machine.execNop q s
  | .partitionCreate => Sys2Proof.Machine.execPartitionCreate s
  | .partitionUpdate => Sys2Proof.Machine.execPartitionUpdate s
  | .partitionReset => Sys2Proof.Machine.execPartitionReset s
  | .partitionRelease => Sys2Proof.Machine.execPartitionRelease s
  | .keySet => Sys2Proof.Machine.execKeySet s
  | .quotaSet => Sys2Proof.Machine.execQuotaSet s
  | .routeSwap => Sys2Proof.Machine.execRouteSwap s
  | .routeSwapForced => Sys2Proof.Machine.execRouteSwapForced s
  | .drainVc => Sys2Proof.Machine.execDrainVc s
  | .drainVcRelease => Sys2Proof.Machine.execDrainVcRelease s
  | .cableAdopt => Sys2Proof.Machine.execCableAdopt s
  | .cableAdoptPair => Sys2Proof.Machine.execCableAdoptPair s
  | .reimageStage => Sys2Proof.Machine.execReimageStage s
  | .reimageActivate => Sys2Proof.Machine.execReimageActivate s
  | .planRevoke => Sys2Proof.Machine.execPlanRevoke s
  | .doorbell rid q v => Sys2Proof.Machine.execDoorbell rid q v s
  | .pendingTailApply q => Sys2Proof.Machine.execPendingTailApply q s
  | .queueEnable rid q v => Sys2Proof.Machine.execQueueEnable rid q v s
  | .queueDisable rid q v => Sys2Proof.Machine.execQueueDisable rid q v s
  | .queueHold rid q v => Sys2Proof.Machine.execQueueHold rid q v s
  | .queueInval rid q v => Sys2Proof.Machine.execQueueInval rid q v s
  | .queueReset rid q v => Sys2Proof.Machine.execQueueReset rid q v s
  | .ringConfigWrite rid q r v => Sys2Proof.Machine.execRingConfigWrite rid q r v s
  | .descriptorFetch q => Sys2Proof.Machine.execDescriptorFetch q s
  | .chainValidate q => Sys2Proof.Machine.execChainValidate q s
  | .slotObtain ctx => Sys2Proof.Machine.execSlotObtain ctx s
  | .stagingPairGrant ctx st => Sys2Proof.Machine.execStagingPairGrant ctx st s
  | .setDrainDone ctx => Sys2Proof.Machine.execSetDrainDone ctx s
  | .heatCompletion ctx => Sys2Proof.Machine.execHeatCompletion ctx s
  | .completionEvent => Sys2Proof.Machine.execCompletionEvent s
  | .ready p b => Sys2Proof.Machine.execReady p b s
  | .readyReply p b => Sys2Proof.Machine.execReadyReply p b s
  | .data p b ecc => Sys2Proof.Machine.execData p b ecc s
  | .mask p b => Sys2Proof.Machine.execMask p b s
  | .commit p b => Sys2Proof.Machine.execCommit p b s
  | .hold p b => Sys2Proof.Machine.execHold p b s
  | .resume p b => Sys2Proof.Machine.execResume p b s
  | .beacon p b => Sys2Proof.Machine.execBeacon p b s
  | .barrierArrive p b => Sys2Proof.Machine.execBarrierArrive p b s
  | .barrierRelease p b => Sys2Proof.Machine.execBarrierRelease p b s
  | .counts p b => Sys2Proof.Machine.execCounts p b s
  | .circuitSetup p b => Sys2Proof.Machine.execCircuitSetup p b s
  | .circuitConfirm p b => Sys2Proof.Machine.execCircuitConfirm p b s
  | .circuitRefuse p b => Sys2Proof.Machine.execCircuitRefuse p b s
  | .circuitRelease p b => Sys2Proof.Machine.execCircuitRelease p b s
  | .circuitForward p b => Sys2Proof.Machine.execCircuitForward p b s
  | .billetIngress p b => Sys2Proof.Machine.execBilletIngress p b s
  | .timeReq p b => Sys2Proof.Machine.execTimeReq p b s
  | .timeResp p b => Sys2Proof.Machine.execTimeResp p b s
  | .timeQuery p b => Sys2Proof.Machine.execTimeQuery p b s
  | .timeState p b => Sys2Proof.Machine.execTimeState p b s
  | .mgmtNotice p b => Sys2Proof.Machine.execMgmtNotice p b s
  | .frameReceive p f => Sys2Proof.Machine.execFrameReceive p f s
  | .frameSend p => Sys2Proof.Machine.execFrameSend p s
  | .replayTimeout p => Sys2Proof.Machine.execReplayTimeout p s
  | .periodBoundary p r => Sys2Proof.Machine.execPeriodBoundary p r s
  | .trainingWord p w => Sys2Proof.Machine.execTrainingWord p w s
  | .trainPhaseTimeout p => Sys2Proof.Machine.execTrainPhaseTimeout p s
  | .attemptGapEnd p => Sys2Proof.Machine.execAttemptGapEnd p s
  | .reprobeTimer p => Sys2Proof.Machine.execReprobeTimer p s
  | .laneSignalChange p lane ok => Sys2Proof.Machine.execLaneSignalChange p lane ok s
  | .retrainTimeout p => Sys2Proof.Machine.execRetrainTimeout p s
  | .ackProgressTimeout p => Sys2Proof.Machine.execAckProgressTimeout p s
  | .rxSilenceTimeout p => Sys2Proof.Machine.execRxSilenceTimeout p s
  | .portLossDone p => Sys2Proof.Machine.execPortLossDone p s
  | .fdiStateChange n st => Sys2Proof.Machine.execFdiStateChange n st s
  | .sibX32Change n x32 => Sys2Proof.Machine.execSibX32Change n x32 s
  | .weldGrant ctx => Sys2Proof.Machine.execWeldGrant ctx s
  | .weldInBeat port tag data mask last => Sys2Proof.Machine.execWeldInBeat port tag data mask last s
  | .weldOutBeat port => Sys2Proof.Machine.execWeldOutBeat port s
  | .memoryResponse tag status rdata => Sys2Proof.Machine.execMemoryResponse tag status rdata s
  | .pickWriteResponse err => Sys2Proof.Machine.execPickWriteResponse err s
  | .xlateReply id status size paddr => Sys2Proof.Machine.execXlateReply id status size paddr s
  | .pageReqReply id status => Sys2Proof.Machine.execPageReqReply id status s
  | .xlateInvalidate scope asid first last => Sys2Proof.Machine.execXlateInvalidate scope asid first last s
  | .throttleInputChange code => Sys2Proof.Machine.execThrottleInputChange code s
  | .commitQuietTimer tag => Sys2Proof.Machine.execCommitQuietTimer tag s
  | .beaconPeriod ctx => Sys2Proof.Machine.execBeaconPeriod ctx s
  | .beaconCountForget ctx origin => Sys2Proof.Machine.execBeaconCountForget ctx origin s
  | .pauseCapReached ctx => Sys2Proof.Machine.execPauseCapReached ctx s
  | .watchdogExpiry ctx => Sys2Proof.Machine.execWatchdogExpiry ctx s
  | .tagHoldExpiry tag => Sys2Proof.Machine.execTagHoldExpiry tag s
  | .circuitSetupTimeout ctx => Sys2Proof.Machine.execCircuitSetupTimeout ctx s
  | .keyReuseWaitEnd ctx => Sys2Proof.Machine.execKeyReuseWaitEnd ctx s
  | .resetSpacingEnd ctx => Sys2Proof.Machine.execResetSpacingEnd ctx s
  | .drainVcQuiet => Sys2Proof.Machine.execDrainVcQuiet s
  | .drainVcTimeout => Sys2Proof.Machine.execDrainVcTimeout s
  | .swapEdge => Sys2Proof.Machine.execSwapEdge s
  | .forcedSwapQuietEnd => Sys2Proof.Machine.execForcedSwapQuietEnd s
  | .instepRelease ctx => Sys2Proof.Machine.execInstepRelease ctx s
  | .barrierWake ctx => Sys2Proof.Machine.execBarrierWake ctx s
  | .arrive rid obj v => Sys2Proof.Machine.execArrive rid obj v s
  | .arm rid obj v => Sys2Proof.Machine.execArm rid obj v s
  | .epochPulse => Sys2Proof.Machine.execEpochPulse s
  | .timeExchangePeriod => Sys2Proof.Machine.execTimeExchangePeriod s
  | .timeRespTimeout => Sys2Proof.Machine.execTimeRespTimeout s
  | .memberQueryPeriod => Sys2Proof.Machine.execMemberQueryPeriod s
  | .patrolRead errs => Sys2Proof.Machine.execPatrolRead errs s
  | .scrubDone n => Sys2Proof.Machine.execScrubDone s n
  | .telemetrySample => Sys2Proof.Machine.execTelemetrySample s
  | .sensorSample temps => Sys2Proof.Machine.execSensorSample temps s
  | .thermalHystExpiry => Sys2Proof.Machine.execThermalHystExpiry s
  | .islandGate isl => Sys2Proof.Machine.execIslandGate isl s
  | .islandWake isl => Sys2Proof.Machine.execIslandWake isl s
  | .alignFrameCheck isl ok => Sys2Proof.Machine.execAlignFrameCheck isl ok s
  | .islandFault isl unit touched => Sys2Proof.Machine.execIslandFault isl unit touched s
  | .islandReset v => Sys2Proof.Machine.execIslandReset v s
  | .islandResetStart => Sys2Proof.Machine.execIslandResetStart s
  | .tngAbort v => Sys2Proof.Machine.execTngAbort v s
  | .linkEnable p v => Sys2Proof.Machine.execLinkEnable p v s
  | .linkDisable p v => Sys2Proof.Machine.execLinkDisable p v s
  | .linkProbe p v => Sys2Proof.Machine.execLinkProbe p v s
  | .linkRestore p v => Sys2Proof.Machine.execLinkRestore p v s
  | .creditAllotWrite p v => Sys2Proof.Machine.execCreditAllotWrite p v s
  | .routeTableWrite v => Sys2Proof.Machine.execRouteTableWrite v s
  | .routeTableRead => Sys2Proof.Machine.execRouteTableRead s
  | .keyTableRead => Sys2Proof.Machine.execKeyTableRead s
  | .flagDataRead => Sys2Proof.Machine.execFlagDataRead s
  | .quenchDataRead => Sys2Proof.Machine.execQuenchDataRead s
  | .mboxDataRead => Sys2Proof.Machine.execMboxDataRead s
  | .epochRead => Sys2Proof.Machine.execEpochRead s
  | .profileRead clock => Sys2Proof.Machine.execProfileRead clock s
  | .diagEnable v => Sys2Proof.Machine.execDiagEnable v s
  | .diagClear v => Sys2Proof.Machine.execDiagClear v s
  | .policyWrite v => Sys2Proof.Machine.execPolicyWrite v s
  | .platformTagWrite v => Sys2Proof.Machine.execPlatformTagWrite v s
  | .wdogWrite v => Sys2Proof.Machine.execWdogWrite v s
  | .recordEnable v => Sys2Proof.Machine.execRecordEnable v s
  | .recordDisable v => Sys2Proof.Machine.execRecordDisable v s
  | .replayStart v => Sys2Proof.Machine.execReplayStart v s
  | .replayEntryDue => Sys2Proof.Machine.execReplayEntryDue s
  | .replayDivergeTimeout => Sys2Proof.Machine.execReplayDivergeTimeout s
  | .telemetryEnable v => Sys2Proof.Machine.execTelemetryEnable v s
  | .registerWrite w => Sys2Proof.Machine.execRegisterWrite w s
  | .provRequest v => Sys2Proof.Machine.execProvRequest v s
  | .provClose v => Sys2Proof.Machine.execProvClose v s
  | .tapUnlock v => Sys2Proof.Machine.execTapUnlock v s
  | .presencePress => Sys2Proof.Machine.execPresencePress s
  | .provRequestTimeout => Sys2Proof.Machine.execProvRequestTimeout s
  | .provisionEnChange high => Sys2Proof.Machine.execProvisionEnChange high s
  | .sealBreak => Sys2Proof.Machine.execSealBreak s
  | .nvmErase v => Sys2Proof.Machine.execNvmErase v s
  | .nvmProgram v => Sys2Proof.Machine.execNvmProgram v s
  | .nvmDataRead devWord => Sys2Proof.Machine.execNvmDataRead devWord s
  | .nvmDataWrite v => Sys2Proof.Machine.execNvmDataWrite v s
  | .nvmCmdDone ok => Sys2Proof.Machine.execNvmCmdDone ok s
  | .bootRetry v => Sys2Proof.Machine.execBootRetry v s
  | .porRelease inst mfr => Sys2Proof.Machine.execPorRelease inst mfr s
  | .powerOnReset => Sys2Proof.Machine.execPowerOnReset s
  | .bootStepAdvance inp => Sys2Proof.Machine.execBootStepAdvance inp s
  | .bootAlignTimeout => Sys2Proof.Machine.execBootAlignTimeout s
  | .warmReset => Sys2Proof.Machine.execWarmReset s
  | .warmResetRelease => Sys2Proof.Machine.execWarmResetRelease s
  | .zeroize => Sys2Proof.Machine.execZeroize s
  | .zeroizeScrubDone => Sys2Proof.Machine.execZeroizeScrubDone s
  | .testScanEnEdge rising => Sys2Proof.Machine.execTestScanEnEdge rising s
  | .seqFault => Sys2Proof.Machine.execSeqFault s
  | .standbyLoadDone ok => Sys2Proof.Machine.execStandbyLoadDone ok s
  | .nvmReloadDone b => Sys2Proof.Machine.execNvmReloadDone b s
  | .reimageQuiesce => Sys2Proof.Machine.execReimageQuiesce s
  | .reimageActivateTimeout => Sys2Proof.Machine.execReimageActivateTimeout s
  | .idcode => Sys2Proof.Machine.execIdcode s
  | .samplePreload b => Sys2Proof.Machine.execSamplePreload s b
  | .extest b => Sys2Proof.Machine.execExtest s b
  | .privScan => Sys2Proof.Machine.execPrivScan s
  | .hrtBist pass => Sys2Proof.Machine.execHrtBist pass s
  | .sramBist pass => Sys2Proof.Machine.execSramBist pass s
  | .bypass tdi => Sys2Proof.Machine.execBypass s tdi
  | .pickPortRead addr be rid => Sys2Proof.Machine.execPickPortRead addr be rid s
  | .laneOccupancyWake => Sys2Proof.Machine.execLaneOccupancyWake s
  | .testLogicReset => Sys2Proof.Machine.execTestLogicReset s

end Sys2Proof.Machine
end

