-- ==== Sys2Proof/Machine/Step.lean ====
section
/-! DEFINITION. One step of the block: the command at the front of the queue is taken and executed (log 1). -/

namespace Sys2Proof.Machine

/-- Nothing waits: one period of refclk passes (DESIGN CHOICE, log 2). -/
def State.idle (s : State) : State := { s with time := { s.time with now := s.time.now + refPs } }

/-- Take the command at the front of the queue; on an empty queue the block idles. -/
def step (s : State) : Host.Outcome State Fault Refusal :=
  match s.pending with
  | [] => .next s.idle
  | c :: rest => exec c { s with pending := rest }

/-- The state with the command that a word of the table spells at the front of its queue. The table gives no row any bits, so
no word spells a command (log 4). -/
def State.withFetchWord (s : State) (nbits w : Nat) : State :=
  match decodeTableWord nbits w with
  | some c => { s with pending := c :: s.pending }
  | none => s

end Sys2Proof.Machine
end

