-- ==== Sys2Proof/Safety.lean ====
section
/-! DEFINITION. The conditions in which commands complete, and the invariant of the block: the terms that statements use. -/

namespace Sys2Proof.Machine

/-- The YMB takes accesses of every register: no reset input is asserted (R377), boot is DONE (R334) and no access waits for its response
(R373). -/
def State.up (s : State) : Prop := s.inReset = false ∧ s.boot.state = .done ∧ s.ctl.ymbWait = none

end Sys2Proof.Machine

namespace Sys2Proof

/-- The command is an engine reset or carries one out: power-on, warm reset, zeroize (R351, R379). -/
def Instr.resets : Instr → Bool
  | .powerOnReset | .warmReset | .warmResetRelease | .zeroize | .zeroizeScrubDone | .testScanEnEdge _ => true
  | _ => false

end Sys2Proof

namespace Sys2Proof.Machine

/-- What the scrub of R305 leaves while boot has not begun: boot at POR with the scrub running, every store empty, the
session closed with LAST_CLOSE 0. -/
def State.scrubbedClean (s : State) : Prop :=
  s.boot.state = .por ∧ s.boot.scrub = true ∧ s.tab = .reset ∧ s.hrt = .reset ∧ s.route = .reset ∧ s.trc = .reset ∧
    s.quench = .reset ∧ s.wld = { WldSt.reset with level := s.wld.level } ∧
    (∀ p, (s.port p).tx = .reset ∧ (s.port p).rx.buf = []) ∧
    s.prov.state = provClosed ∧ s.prov.lastClose = 0 ∧ s.prov.tapOpen = false

/-- What the assertion of a reset or a zeroize leaves (R305): the stores are empty and the session is closed, whether a scrub runs or the
one scrub of the reset is over (R352). -/
def State.wiped (s : State) : Prop := ({ s with boot := { s.boot with scrub := true } } : State).scrubbedClean

/-- What a warm reset or zeroize leaves of `s` when boot starts (R351): power-on values, but for SEAL_BROKEN, the straps and,
after a warm reset, the epoch counter with CTL_EPOCH_STAT and the frame counter; the model's own time goes on. -/
def State.coldStart (t s : State) : Prop :=
  t.boot = { BootSt.reset with
      porLow := false, warmLow := false, assertAt := s.boot.assertAt, scan := false, sealBroken := s.boot.sealBroken
      zeroAt := s.boot.zeroAt } ∧
    t.ctl = { CtlSt.reset with strapInst := s.ctl.strapInst, strapMfr := s.ctl.strapMfr } ∧
    t.time = (if s.boot.zeroizing then { TimeSt.reset with now := t.time.now } else
      { TimeSt.reset with
        now := t.time.now, epochBase := s.time.epochBase, epochAt := s.time.epochAt, running := s.time.running
        slip := s.time.slip, frame0 := s.time.frame0 }) ∧
    t.power = .reset ∧ t.tng = .reset ∧ t.tab = .reset ∧ t.hrt = .reset ∧ t.route = .reset ∧ t.trc = .reset ∧ t.seq = .reset ∧
    t.quench = .reset ∧ t.prov = { ProvSt.reset with enHigh := s.prov.enHigh }

end Sys2Proof.Machine

namespace Sys2Proof.Machine

/-- A queue checks doorbells (R159). -/
def Queue.takesDoorbell (q : Queue) : Bool :=
  q.st ≠ .halted && q.st ≠ .unassigned && (q.st ≠ .disabled || q.cfgOk)

end Sys2Proof.Machine

namespace Sys2Proof.Machine

/-- Queue `q` has the next grant (R166) with a validated chain `d`, `w` of `n` entries and kind `k`, whose islands are there (R13) and
which takes context `c`; `u` is the block once the chain has entered that context (R52, R164). -/
def State.turn (s : State) (q : Nat) (k : Kind) (d : Desc) (w : Words) (n c : Nat) (u : State) : Prop :=
  (s.queue q).st = .active ∧ (s.queue q).ready = some (d, w, n) ∧ d.kind = k ∧ s.powered k = true ∧
    ∃ g, s.nextGrant = some (q, g) ∧ g.freeCtx q = some c ∧
      u = if (g.enter q c d w n).power.level ≠ 0 || (g.enter q c d w n).anvilOut then (g.enter q c d w n).perturb c
          else g.enter q c d w n

/-- The supplies and the thermal level are the same: which domains are powered, ALIGNED and waking. -/
def State.sameSupply (t s : State) : Prop :=
  t.power.on = s.power.on ∧ t.power.aligned = s.power.aligned ∧ t.power.waking = s.power.waking ∧ t.power.level = s.power.level

/-- What follows a check of alignment (R349): heats that waited for an island go on, so does an access of the YMB, and Trace. -/
def State.afterCheck (s : State) : State := s.wakeOver.ymbGoes.traceAligned.pumpAll

/-- What follows the start of a heat: the mark of a degraded port (R250), and whatever can go on, the scheduler's rounds with it (R166). -/
def State.afterStart (s : State) (c : Nat) : State := (s.perturbDegraded c).pumpAll

/-- A steward heat runs. -/
def State.runs (s : State) (c : Nat) : State := s.modHeat c fun h => { h with run := { h.run with phase := .run } }

/-- A steward heat that waits until a time. -/
def State.waits (s : State) (c t : Nat) : State := s.modHeat c fun h => { h with run := { h.run with due := t } }

/-- What the loss of port `p` in service leaves (R251, R252): its queues, kept frames and credits are gone, the circuits through it
are free, no other circuit and no other port's registers are touched. -/
def State.portGone (u s : State) (p : Nat) : Prop :=
  (u.port p).tx.kept = [] ∧ (u.port p).tx.queue = [] ∧ (u.port p).tx.resend = [] ∧ (u.port p).tx.credit = [] ∧
    (u.port p).reg.laneUse = 0 ∧ (u.port p).reg.width = 0 ∧
    u.route.portdown = satAdd s.route.portdown (s.port p).tx.queue.length ∧
    (∀ i e, (i, some e) ∈ s.route.circ → e.via p = true → u.circ i = none) ∧
    (∀ i, (∀ e, (i, some e) ∈ s.route.circ → e.via p = false) → u.circ i = s.circ i) ∧
    (∀ q, q ≠ p → (u.port q).reg = (s.port q).reg ∧ (u.port q).tx.queue = (s.port q).tx.queue)

/-- Only port `p` of the ports has changed, and no table of Tongs, no slot and no route has. -/
def State.onlyPort (u s : State) (p : Nat) : Prop :=
  (∀ q, q ≠ p → u.port q = s.port q) ∧ u.tab = s.tab ∧ u.hrt = s.hrt ∧ u.route = s.route ∧ u.boot = s.boot ∧
    u.prov = s.prov ∧ u.seq = s.seq

end Sys2Proof.Machine

namespace Sys2Proof.Machine

/-- Boot state and step go together (R332, R334); the identity-only state keeps the step that it was entered from. -/
def BootSt.agrees (b : BootSt) : Prop :=
  match b.state with
  | .por => b.step = 1
  | .nvm => b.step = 2 ∨ b.step = 3
  | .apply => b.step = 4
  | .align => b.step = 5
  | .train => b.step = 6
  | .done => b.step = 7
  | .identOnly => True

/-- The invariant of the block's control state, which every step keeps: resets hold boot at POR; a session is closed,
requested or open, and open or requested only with the jumper high and the seal whole, or while an NVM command in progress
delays its end (R335, R336, R343); the private chain is open only within an open session (R338); the page buffer is one page
(R337); an aligned domain is powered (R349, R353); the thermal level is one of three (R356). -/
structure State.Inv (s : State) : Prop where
  /-- While a reset input is low or the scrub runs, boot stands at POR (R305, R332, R379). -/
  heldAtPor : s.inReset = true ∨ s.boot.scrub = true → s.boot.state = .por
  stepAgrees : s.boot.agrees
  sessionState : s.prov.state = provClosed ∨ s.prov.state = provRequested ∨ s.prov.state = provOpen
  sessionJumper : s.prov.state ≠ provClosed → s.prov.enHigh = true ∨ s.prov.closeAfter.isSome = true
  sessionSeal : s.prov.state ≠ provClosed → s.boot.sealBroken = false ∨ s.prov.closeAfter.isSome = true
  closeWaits : s.prov.closeAfter.isSome = true → s.prov.busy.isSome = true ∧ s.prov.state ≠ provClosed
  tapInSession : s.prov.tapOpen = true → s.prov.state = provOpen
  nvmCommand : s.prov.busy = none ∨ s.prov.busy = some 1 ∨ s.prov.busy = some 2
  pageSize : s.prov.page.length = 256
  alignedOn : s.power.aligned &&& ~~~ s.power.on = 0
  levelLegal : s.power.level ≠ 3

end Sys2Proof.Machine
end

