-- ==== Sys2Proof/Certificates/Slice0/Obligations.lean ====
section
/-! DEFINITION. The statements about the block, for the provers: one definition each, in the order of OBLIGATIONS.json. -/

open Sys2Proof Sys2Proof.Machine

/-! ### Registers of the YMB (17) -/

/-- R392. A write of CTL_POLICY while LOCK is 0 writes the permits and may set LOCK; once LOCK is 1 every write is a lock
violation that changes nothing else; no command but a reset's takes LOCK back or changes the permits, and a reset, once it is
through, leaves LOCK 0. (What a falling permit also does is R391.) -/
def Obligations.PolicyLock : Prop :=
  (∀ (s : State) (v : W32), s.up → s.ctl.lock = false → ∃ t, exec (.policyWrite v) s = .next t ∧
    t.ctl = { s.ctl with permits := field v 0 4, lock := bit v 31, rspCode := rspOkay, rspData := 0 }) ∧
  (∀ (s : State) (v : W32), s.up → s.ctl.lock = true →
    exec (.policyWrite v) s = .next { s with ctl := { s.ctl with
      viol := satInc s.ctl.viol, violValid := true, violAddr := 0xC0, rspCode := rspDenied, rspData := 0 } }) ∧
  (∀ (s t : State) (c : Instr), exec c s = .next t → s.ctl.lock = true → c.resets = false →
    t.ctl.lock = true ∧ t.ctl.permits = s.ctl.permits) ∧
  (∀ (s : State), ∃ t, exec .powerOnReset s = .next t ∧ t.ctl.lock = false) ∧
  (∀ (s : State), s.boot.scrub = true → s.inReset = false → ∃ t, exec .zeroizeScrubDone s = .next t ∧ t.ctl.lock = false) ∧
  (∀ (s : State), s.boot.warmLow = true → s.boot.porLow = false → s.boot.scan = false → s.boot.scrub = false →
    ∃ t, exec .warmResetRelease s = .next t ∧ t.ctl.lock = false)

/-- R393. The first write of CTL_PLATFORM_TAG stores its value and touches nothing else; a later one is a lock violation; no command but
a reset's changes the tag again or makes another write the first, and a reset, once it is through, does. -/
def Obligations.PlatformTagOnce : Prop :=
  (∀ (s : State) (v : W32), s.up → s.ctl.tagWritten = false →
    exec (.platformTagWrite v) s =
      .next { s with ctl := { s.ctl with tag := v, tagWritten := true, rspCode := rspOkay, rspData := 0 } }) ∧
  (∀ (s : State) (v : W32), s.up → s.ctl.tagWritten = true →
    exec (.platformTagWrite v) s = .next { s with ctl := { s.ctl with
      viol := satInc s.ctl.viol, violValid := true, violAddr := 0xC4, rspCode := rspDenied, rspData := 0 } }) ∧
  (∀ (s t : State) (c : Instr), exec c s = .next t → s.ctl.tagWritten = true → c.resets = false →
    t.ctl.tagWritten = true ∧ t.ctl.tag = s.ctl.tag) ∧
  (∀ (s : State), ∃ t, exec .powerOnReset s = .next t ∧ t.ctl.tagWritten = false ∧ t.ctl.tag = 0) ∧
  (∀ (s : State), s.boot.scrub = true → s.inReset = false →
    ∃ t, exec .zeroizeScrubDone s = .next t ∧ t.ctl.tagWritten = false ∧ t.ctl.tag = 0) ∧
  (∀ (s : State), s.boot.warmLow = true → s.boot.porLow = false → s.boot.scan = false → s.boot.scrub = false →
    ∃ t, exec .warmResetRelease s = .next t ∧ t.ctl.tagWritten = false ∧ t.ctl.tag = 0)

/-- R391. What a write of CTL_POLICY does besides: with the session CLOSED, or PROV_PERMIT kept, the rest of the state stays,
but for the diagnostic capture that a falling DIAG_PERMIT clears; a falling PROV_PERMIT closes a session with LAST_CLOSE 1.

R83, R84, R391. ANV_DIAG_CTL: ENABLE = 1 is refused while a partition is active or DIAG_PERMIT is 0; otherwise ENABLE is
the written bit, and CLEAR = 1 clears every flag word.

R320, R395. TNG_WDOG of the partition that TNG_PART_SEL selects: at least 100; a value above 60,000,000, or a FREE
partition, gives ERROR and changes nothing. -/
def Obligations.PolicyAndSelected : Prop :=
  (∀ (s : State) (v : W32), s.up → s.ctl.lock = false →
    (bit s.ctl.permits 0 = false ∨ bit v 0 = true ∨ s.prov.state = provClosed) →
    exec (.policyWrite v) s = .next { s with
      ctl := { s.ctl with permits := field v 0 4, lock := bit v 31, rspCode := rspOkay, rspData := 0 }
      hrt := if bit s.ctl.permits 1 && !bit v 1 then { s.hrt with diag := false, flagWords := [] } else s.hrt }) ∧
  (∀ (s : State) (v : W32), s.up → s.ctl.lock = false → bit s.ctl.permits 0 = true → bit v 0 = false →
    s.prov.state ≠ provClosed → ∃ t, exec (.policyWrite v) s = .next t ∧ t.prov.state = provClosed ∧
      t.prov.lastClose = 1 ∧ t.prov.tapOpen = false ∧ t.time = s.time ∧ t.power = s.power ∧ t.boot = s.boot ∧ t.tab = s.tab) ∧
  (∀ (s : State) (v : W32), s.up → bit v 0 = true → (bit s.ctl.permits 1 = false ∨ s.noActive = false) →
    exec (.diagEnable v) s = .next (s.answer rspDenied 0) ∧ exec (.diagClear v) s = .next (s.answer rspDenied 0)) ∧
  (∀ (s : State) (v : W32), s.up → bit v 0 = true → bit s.ctl.permits 1 = true → s.noActive = true →
    exec (.diagEnable v) s = .next ({ s with hrt := { s.hrt with
      diag := true, flagWords := if bit v 1 then [] else s.hrt.flagWords } }.answer rspOkay 0)) ∧
  (∀ (s : State) (v : W32), s.up → bit v 0 = false → bit v 1 = true →
    exec (.diagClear v) s = .next ({ s with hrt := { s.hrt with diag := false, flagWords := [] } }.answer rspOkay 0)) ∧
  (∀ (s : State) (v : W32), s.up → (s.part s.tng.partSel.toNat).state ≠ .free → fieldN v 0 26 ≤ 60000000 →
    exec (.wdogWrite v) s = .next ((s.modPart s.tng.partSel.toNat fun p =>
      { p with wdogUs := BitVec.ofNat 26 (max (fieldN v 0 26) 100) }).answer rspOkay 0)) ∧
  (∀ (s : State) (v : W32), s.up → ((s.part s.tng.partSel.toNat).state = .free ∨ 60000000 < fieldN v 0 26) →
    exec (.wdogWrite v) s = .next (s.answer rspError 0))

/-- R221, R398. RTE_TBL_DATA: a write goes only to the standby bank, at INDEX, and advances INDEX, which wraps; with STANDBY 0 or
a swap pending it changes nothing and is DENIED. A read answers the entry of the bank that STANDBY names, and advances INDEX.

R398. What the route window writes in the standby bank it reads back there, for every index and value. -/
def Obligations.RouteWindow : Prop :=
  (∀ (s : State) (v : W32), s.up → (s.route.tblStandby = false ∨ s.route.swap.isSome = true) →
    exec (.routeTableWrite v) s = .next (s.answer rspDenied 0)) ∧
  (∀ (s : State) (v : W32), s.up → s.route.tblStandby = true → s.route.swap = none →
    ∃ t, exec (.routeTableWrite v) s = .next t ∧ t.bank false = s.bank false ∧
      t.bank true = Tbl.set 0 (s.bank true) s.route.tblIndex.toNat (field v 0 16) ∧
      t = { s with
        route := { s.route with
          bank0 := t.route.bank0, bank1 := t.route.bank1, tblIndex := s.route.tblIndex + 1 }
        ctl := { s.ctl with rspCode := rspOkay, rspData := 0 } }) ∧
  (∀ (s : State), s.up → exec .routeTableRead s = .next ({ s with
    route := { s.route with tblIndex := s.route.tblIndex + 1 } }.answer rspOkay
      ((Tbl.get 0 (s.bank s.route.tblStandby) s.route.tblIndex.toNat).setWidth 32))) ∧
  (∀ (s t u w : State) (v a : W32), s.up → s.route.tblStandby = true → s.route.swap = none →
     bit a 16 = true → field a 0 16 = s.route.tblIndex →
     exec (.routeTableWrite v) s = .next t → exec (.registerWrite (.ymb 0x180008 a)) t = .next u →
     exec .routeTableRead u = .next w → w.ctl.rspCode = rspOkay ∧ w.ctl.rspData = (field v 0 16).setWidth 32)

/-- R85, R271, R285, R317, R384, R398. The reads that act: each answers its word and advances its pointer or latches its high
half; past the end of its range it answers ERROR and moves nothing. -/
def Obligations.ActingReads : Prop :=
  (∀ (s : State), s.up → s.route.keyPort.toNat ≤ 39 → exec .keyTableRead s = .next ({ s with
    route := { s.route with keyWord := s.route.keyWord + 1 } }.answer rspOkay
      (s.keyWord s.route.keyPort.toNat s.route.keyWord.toNat))) ∧
  (∀ (s : State), s.up → 39 < s.route.keyPort.toNat → exec .keyTableRead s = .next (s.answer rspError 0)) ∧
  (∀ (s : State), s.up → s.hrt.flagLane.toNat < 3072 → (s.laneIsland s.hrt.flagLane.toNat).all s.isReady = true →
    exec .flagDataRead s = .next ({ s with hrt := { s.hrt with flagLane := s.hrt.flagLane + 1 } }.answer rspOkay
      (let w : FlagWord := Tbl.get { heat := 0, valid := false, flags := 0 } s.hrt.flagWords s.hrt.flagLane.toNat
       assemble 32 [(w.heat.toNat, 16), (b2n w.valid, 4), (w.flags.toNat, 0)]))) ∧
  (∀ (s : State), s.up → 3072 ≤ s.hrt.flagLane.toNat → exec .flagDataRead s = .next (s.answer rspError 0)) ∧
  (∀ (s : State), s.up → s.quench.valid = true → s.quench.word.toNat < 4 * s.quench.record.length →
    exec .quenchDataRead s = .next ({ s with quench := { s.quench with
      word := s.quench.word + 1
      unread := s.quench.unread && s.quench.word.toNat + 1 ≠ 4 * s.quench.record.length } }.answer rspOkay
        (field (s.quench.record.getD (s.quench.word.toNat / 4) 0) (32 * (s.quench.word.toNat % 4)) 32))) ∧
  (∀ (s : State), s.up → (s.quench.valid = false ∨ 4 * s.quench.record.length ≤ s.quench.word.toNat) →
    exec .quenchDataRead s = .next (s.answer rspError 0)) ∧
  (∀ (s : State), s.up → exec .epochRead s = .next ({ s with time := { s.time with hiLatch := field s.epoch 32 32 } }.answer
    rspOkay (field s.epoch 0 32))) ∧
  (∀ (s : State), s.up → exec (.profileRead false) s = .next ({ s with ctl := { s.ctl with
    bitHi := field s.ctl.bitProfile 32 32 } }.answer rspOkay (field s.ctl.bitProfile 0 32))) ∧
  (∀ (s : State), s.up → exec (.profileRead true) s = .next ({ s with ctl := { s.ctl with
    clockHi := field s.ctl.clockProfile 32 32 } }.answer rspOkay (field s.ctl.clockProfile 0 32)))

/-- R401, R319. The mailbox: a read answers the word at the pointer within the oldest message and advances it; the read of
word 15 removes the message and returns the pointer to 0; while it is empty a read is an ERROR. A NOTICE that arrives goes
behind the messages held and moves no pointer.

R401. Sixteen reads of the mailbox, with nothing else between them, answer the sixteen words of its oldest message in
order and remove that message alone.

R319. A NOTICE for this engine leaves the inbox and goes behind the messages of the mailbox, with TNG_EVENT.MBOX; with 32 messages
held, or another MGMT code, it is counted lost. A billet of another kind is no business of this command. -/
def Obligations.Mailbox : Prop :=
  (∀ (s : State) (m : Payload) (rest : List Payload), s.up → s.quench.mbox = m :: rest →
    exec .mboxDataRead s = .next ({ s with quench := { s.quench with
      mbox := if s.quench.mboxPtr = 15 then rest else m :: rest
      mboxPtr := if s.quench.mboxPtr = 15 then 0 else s.quench.mboxPtr + 1 } }.answer rspOkay
        (field m (32 * s.quench.mboxPtr.toNat) 32))) ∧
  (∀ (s : State), s.up → s.quench.mbox = [] → exec .mboxDataRead s = .next (s.answer rspError 0)) ∧
  (∀ (s : State) (b : Billet), s.quench.mbox.length < 32 → fieldN b.seq 0 3 = 1 →
    (s.mailbox b).quench.mbox = s.quench.mbox ++ [b.data] ∧ (s.mailbox b).quench.mboxPtr = s.quench.mboxPtr) ∧
  (∀ (s : State) (m : Payload) (rest : List Payload) (k : Nat), s.up → s.quench.mbox = m :: rest → s.quench.mboxPtr = 0 →
     k < 16 → ∃ t u : State, Sys2Proof.core.run k { s with pending := List.replicate 16 .mboxDataRead } =
         .next t ∧ step t = .next u ∧ u.ctl.rspCode = rspOkay ∧ u.ctl.rspData = field m (32 * k) 32 ∧
       u.quench.mbox = (if k = 15 then rest else m :: rest)) ∧
  (∀ (s : State) (p : PortId) (b : Billet), b.kind = kMgmt → b.key = 0 → fieldN b.seq 0 3 = 1 → s.quench.mbox.length < 32 →
    ∃ t, exec (.mgmtNotice p b) s = .next t ∧ t.quench = { s.quench with mbox := s.quench.mbox ++ [b.data] } ∧
      bit t.tng.event 4 = true ∧ (t.port p.val).rx.inbox = (s.port p.val).rx.inbox.erase b ∧ t.time = s.time ∧ t.tab = s.tab ∧
      ∀ q, q ≠ p.val → t.port q = s.port q) ∧
  (∀ (s : State) (p : PortId) (b : Billet), b.kind = kMgmt → b.key = 0 → (fieldN b.seq 0 3 ≠ 1 ∨ 32 ≤ s.quench.mbox.length) →
    ∃ t, exec (.mgmtNotice p b) s = .next t ∧ t.quench = { s.quench with mboxDrops := satInc s.quench.mboxDrops } ∧
      t.tng = s.tng ∧ t.time = s.time ∧ t.tab = s.tab) ∧
  (∀ (s : State) (p : PortId) (b : Billet), b.kind ≠ kMgmt → exec (.mgmtNotice p b) s = .next s)

/-- R384, R334, R389. A write of the YMB is refused, in this order: a misaligned address is an ERROR; before DONE a register
that R334 does not make reachable is DENIED; an address with no register is an ERROR. Nothing else changes.

R386, R320, R383, R271, R395, R398. Plain registers: a write that is answered OKAY has stored its fields, and nothing else
has changed. -/
def Obligations.RegisterWrites : Prop :=
  (∀ (s : State) (a : BitVec 24) (v : W32), s.ymbOpen = true → a.toNat % 4 ≠ 0 →
    exec (.registerWrite (.ymb a v)) s = .next (s.answer rspError 0)) ∧
  (∀ (s : State) (a : BitVec 24) (v : W32), s.ymbOpen = true → a.toNat % 4 = 0 → s.boot.state ≠ .done →
    earlyReg a.toNat = false → exec (.registerWrite (.ymb a v)) s = .next (s.answer rspDenied 0)) ∧
  (∀ (s : State) (a : BitVec 24) (v : W32), s.up → a.toNat % 4 = 0 → regThere a.toNat = false →
    exec (.registerWrite (.ymb a v)) s = .next (s.answer rspError 0)) ∧
  (∀ (s : State) (v : W32), s.up →
     exec (.registerWrite (.ymb 0x84 v)) s = .next ({ s with quench := { s.quench with word := field v 0 12 } }.answer rspOkay 0) ∧
     exec (.registerWrite (.ymb 0x90 v)) s =
       .next ({ s with ctl := { s.ctl with notifyValid := bit v 31, notifyDest := field v 0 16 } }.answer rspOkay 0) ∧
     exec (.registerWrite (.ymb 0xA4 v)) s = .next ({ s with ctl := { s.ctl with irqMask := field v 0 4 } }.answer rspOkay 0) ∧
     exec (.registerWrite (.ymb 0x54 v)) s = .next ({ s with time := { s.time with asym := field v 0 16 } }.answer rspOkay 0) ∧
     exec (.registerWrite (.ymb 0x04010C v)) s = .next ({ s with tng := { s.tng with partSel := field v 0 8 } }.answer rspOkay 0) ∧
     exec (.registerWrite (.ymb 0x040144 v)) s =
       .next ({ s with tng := { s.tng with abortQueue := field v 0 12 } }.answer rspOkay 0) ∧
     exec (.registerWrite (.ymb 0x080044 v)) s = .next ({ s with hrt := { s.hrt with flagLane := field v 0 12 } }.answer rspOkay 0) ∧
     exec (.registerWrite (.ymb 0x0C000C v)) s = .next ({ s with wld := { s.wld with partSel := field v 0 8 } }.answer rspOkay 0) ∧
     exec (.registerWrite (.ymb 0x180008 v)) s = .next ({ s with route := { s.route with
       tblStandby := bit v 16, tblIndex := field v 0 16 } }.answer rspOkay 0) ∧
     exec (.registerWrite (.ymb 0x180010 v)) s = .next ({ s with route := { s.route with
       keyPort := field v 7 6, keyWord := field v 0 7 } }.answer rspOkay 0) ∧
     ((s.trc.teleEnable = false ∨ s.trc.teleValid = true ∨ bit v 31 = false) →
       exec (.registerWrite (.ymb 0x1C0104 v)) s = .next ({ s with trc := { s.trc with
         teleValid := bit v 31, teleDest := field v 0 16 } }.answer rspOkay 0)) ∧
     exec (.registerWrite (.ymb 0x040140 v)) s = .next ({ s with tng := { s.tng with
       event := s.tng.event &&& ~~~(field v 0 5) } }.answer rspOkay 0))

/-! ### Provisioning, NVM, TAP, boot, resets (13 to 16) -/

/-- R335. A provisioning session: REQUEST from CLOSED needs the jumper high and the seal whole, and is DENIED otherwise; a press
begun within 10 s, low for 20 ms, opens a requested session and counts it; CLOSE, the time-out, the jumper and the seal close it with their
LAST_CLOSE; REQUEST in REQUESTED or OPEN has no effect and is OKAY. The session works in every boot state. (PROV_PERMIT is
R391; an NVM command in progress delays the jumper and the seal, R343; the private chain is R338.)

R343. The jumper falls or the seal breaks while an NVM command is BUSY: the session stays until the command completes, and
closes then with the LAST_CLOSE of the event that came first. -/
def Obligations.ProvisioningSession : Prop :=
  (∀ (s : State) (v : W32), s.ymbOpen = true → bit v 0 = true → bit v 1 = false → bit v 2 = false →
    bit s.ctl.permits 0 = true → s.prov.state = provClosed → s.prov.enHigh = true → s.boot.sealBroken = false →
    exec (.provRequest v) s = .next ({ s with prov := { s.prov with
      state := provRequested, requestedAt := s.time.now } }.answer rspOkay 0)) ∧
  (∀ (s : State) (v : W32), s.ymbOpen = true → bit v 0 = true → s.prov.state = provClosed →
    (s.prov.enHigh = false ∨ s.boot.sealBroken = true) → exec (.provRequest v) s = .next (s.answer rspDenied 0)) ∧
  (∀ (s : State) (v : W32), s.ymbOpen = true → bit v 0 = true → bit v 1 = false → bit v 2 = false →
    bit s.ctl.permits 0 = true → s.prov.state ≠ provClosed → exec (.provRequest v) s = .next (s.answer rspOkay 0)) ∧
  (∀ (s : State), s.boot.porLow = false → s.prov.state = provRequested → s.time.now ≤ s.prov.requestedAt + 10000 * msPs →
    exec .presencePress s = .next { s with
      time := { s.time with now := s.time.now + 20 * msPs }
      prov := { s.prov with state := provOpen, sessions := satInc s.prov.sessions } }) ∧
  (∀ (s : State), s.prov.state ≠ provRequested → exec .presencePress s = .next s) ∧
  (∀ (s : State), s.prov.state = provRequested → s.prov.tapOpen = false →
    exec .provRequestTimeout s = .next { s with
      time := { s.time with now := max s.time.now (s.prov.requestedAt + 10000 * msPs) }
      prov := { s.prov with state := provClosed, lastClose := 2, closeAfter := none, bistHrt := none, bistSram := none } }) ∧
  (∀ (s : State) (v : W32), s.ymbOpen = true → bit v 0 = false → bit v 1 = true → bit v 2 = false →
    s.prov.state ≠ provClosed → s.prov.tapOpen = false →
    exec (.provClose v) s = .next ({ s with prov := { s.prov with
      state := provClosed, lastClose := 1, closeAfter := none, bistHrt := none, bistSram := none } }.answer rspOkay 0)) ∧
  (∀ (s : State), s.prov.state ≠ provClosed → s.prov.busy = none → s.prov.tapOpen = false →
    exec (.provisionEnChange false) s = .next { s with prov := { s.prov with
      enHigh := false, state := provClosed, lastClose := 3, closeAfter := none, bistHrt := none, bistSram := none } }) ∧
  (∀ (s : State), exec (.provisionEnChange true) s = .next { s with prov := { s.prov with enHigh := true } }) ∧
  (∀ (s : State), s.boot.porLow = false → s.prov.state ≠ provClosed → s.prov.busy = none → s.prov.tapOpen = false →
    exec .sealBreak s = .next { s with
      boot := { s.boot with sealBroken := true }
      prov := { s.prov with sealOpen := true, state := provClosed, lastClose := 4, closeAfter := none, bistHrt := none, bistSram := none } }) ∧
  (∀ (s : State) (c : BitVec 2), s.prov.state ≠ provClosed → s.prov.busy = some c → s.prov.closeAfter = none →
    exec (.provisionEnChange false) s = .next { s with prov := { s.prov with enHigh := false, closeAfter := some 3 } }) ∧
  (∀ (s : State) (c : BitVec 2), s.boot.porLow = false → s.prov.state ≠ provClosed → s.prov.busy = some c →
    s.prov.closeAfter = none → exec .sealBreak s = .next { s with
      boot := { s.boot with sealBroken := true }, prov := { s.prov with sealOpen := true, closeAfter := some 4 } }) ∧
  (∀ (s : State) (c : BitVec 2) (why : BitVec 4) (ok : Bool), s.prov.busy = some c → s.prov.closeAfter = some why →
    ∃ t, exec (.nvmCmdDone ok) s = .next t ∧ t.prov.state = provClosed ∧ t.prov.lastClose = why ∧ t.prov.busy = none ∧
      t.prov.closeAfter = none ∧ t.prov.tapOpen = false)

/-- R336. The seal loop breaks: SEAL_BROKEN is set; it stays set through every command but a power-on; and while it is set a
REQUEST is refused. -/
def Obligations.SealLatch : Prop :=
  (∀ (s : State), s.boot.porLow = false → ∃ t, exec .sealBreak s = .next t ∧ t.boot.sealBroken = true) ∧
  (∀ (s t : State) (c : Instr), exec c s = .next t → s.boot.sealBroken = true → c ≠ .powerOnReset →
    t.boot.sealBroken = true) ∧
  (∀ (s : State) (v : W32), s.ymbOpen = true → s.boot.sealBroken = true → s.prov.state = provClosed → bit v 0 = true →
    exec (.provRequest v) s = .next (s.answer rspDenied 0))

/-- R337. The NVM window: outside an OPEN session, while boot or a reload owns the device, and while BUSY, commands and data
accesses are DENIED and change nothing.

R337, R398. Within a session: ERASE and PROGRAM make the window BUSY and clear ERR; a data write stores the word in the
page buffer at byte ADDR mod 256, low byte first (past the end of the page it goes on at its start, the model's choice, log 57), a data read answers the device's word, and both advance ADDR by 4; the end of
a command takes BUSY back, sets ERR on failure, and after PROGRAM the buffer is 0xFF. ADDR beyond the image region is an ERROR. -/
def Obligations.NvmWindow : Prop :=
  (∀ (s : State) (v : W32), s.ymbOpen = true →
     (s.prov.state ≠ provOpen ∨ s.boot.state = .nvm ∨ s.seq.reload = true ∨ s.prov.busy.isSome = true) →
     exec (.nvmErase v) s = .next (s.answer rspDenied 0) ∧ exec (.nvmProgram v) s = .next (s.answer rspDenied 0) ∧
     exec (.nvmDataWrite v) s = .next (s.answer rspDenied 0) ∧ exec (.nvmDataRead v) s = .next (s.answer rspDenied 0)) ∧
  (∀ (s : State) (v : W32), s.ymbOpen = true → s.windowOpen = true → s.prov.nvmAddr.toNat < s.boot.region →
    fieldN v 0 2 = 1 → exec (.nvmErase v) s = .next ({ s with prov := { s.prov with busy := some 1, err := false } }.answer rspOkay 0)) ∧
  (∀ (s : State) (v : W32), s.ymbOpen = true → s.windowOpen = true → s.prov.nvmAddr.toNat < s.boot.region →
    fieldN v 0 2 = 2 → exec (.nvmProgram v) s = .next ({ s with prov := { s.prov with busy := some 2, err := false } }.answer rspOkay 0)) ∧
  (∀ (s : State) (v : W32), s.ymbOpen = true → s.windowOpen = true → s.prov.nvmAddr.toNat < s.boot.region →
    s.prov.page.length = 256 → ∃ t, exec (.nvmDataWrite v) s = .next t ∧
      t = { s with prov := { s.prov with page := t.prov.page, nvmAddr := s.prov.nvmAddr + 4 } }.answer rspOkay 0 ∧
      t.prov.page.length = 256 ∧
      ∀ k < 256, t.prov.page[k]? =
        let j := (k + 256 - s.prov.nvmAddr.toNat % 256) % 256
        if j < 4 then some (byteAt v j) else s.prov.page[k]?) ∧
  (∀ (s : State) (d : W32), s.ymbOpen = true → s.windowOpen = true → s.prov.nvmAddr.toNat < s.boot.region →
    exec (.nvmDataRead d) s = .next ({ s with prov := { s.prov with nvmAddr := s.prov.nvmAddr + 4 } }.answer rspOkay d)) ∧
  (∀ (s : State) (v : W32), s.ymbOpen = true → s.windowOpen = true → s.boot.region ≤ s.prov.nvmAddr.toNat →
    exec (.nvmDataWrite v) s = .next (s.answer rspError 0) ∧ exec (.nvmDataRead v) s = .next (s.answer rspError 0)) ∧
  (∀ (s : State) (c : BitVec 2) (ok : Bool), s.prov.busy = some c → s.prov.closeAfter = none →
    exec (.nvmCmdDone ok) s = .next { s with prov := { s.prov with
      busy := none, err := s.prov.err || !ok, page := if c = 2 then List.replicate 256 0xFF else s.prov.page } })

/-- R338, R239. TAP_UNLOCK opens the private chain in an OPEN session while every partition is FREE: every port takes the
actions of ENABLE = 0, the replay buffers are empty, every byte in staging is 0, and TAP_OPEN is 1. Otherwise the write changes nothing and is DENIED.

R375, R130. Each TAP instruction loads its code, and test-logic reset loads IDCODE; SAMPLE_PRELOAD takes a value into the boundary
register; EXTEST, PRIV_SCAN and the BIST instructions act only while TAP_OPEN is 1, and act as BYPASS otherwise: EXTEST drives the outputs
from the boundary register, without which they stay the block's own. A BIST keeps its outcome; that of Hearth runs only with
every ingot scrubbed. -/
def Obligations.TapChain : Prop :=
  (∀ (s : State) (v : W32), s.ymbOpen = true → bit v 2 = true → bit v 0 = false → bit v 1 = false →
    s.prov.state = provOpen → (∀ e ∈ s.tab.parts, e.2.state = .free) →
    ∃ t, exec (.tapUnlock v) s = .next t ∧
      let u := (List.range 40).foldl State.disablePort s
      t = { u with
        ports := t.ports, tab := { u.tab with heats := t.tab.heats }, prov := { s.prov with tapOpen := true }
        ctl := { s.ctl with rspCode := rspOkay, rspData := 0, ymbWait := none } } ∧
      (∀ p < 40, t.port p = { u.port p with tx := { (u.port p).tx with kept := [], resend := [] } }) ∧
      ∀ c h, (c, some h) ∈ t.tab.heats → ∀ x ∈ h.dp.streams, ∀ b ∈ x.buf, b = none ∨ b = some 0) ∧
  (∀ (s : State) (v : W32), s.ymbOpen = true → bit v 2 = true →
    (s.prov.state ≠ provOpen ∨ ∃ e ∈ s.tab.parts, e.2.state ≠ .free) →
    exec (.tapUnlock v) s = .next (s.answer rspDenied 0)) ∧
  (∀ (s : State),
    exec .idcode s = .next { s with prov := { s.prov with tapInstr := 0x01 } } ∧
    exec .testLogicReset s = .next { s with prov := { s.prov with tapInstr := 0x01 } } ∧
    exec .privScan s = .next { s with prov := { s.prov with tapInstr := 0x10 } }) ∧
  (∀ (s : State) (b : Boundary),
    exec (.samplePreload b) s = .next { s with prov := { s.prov with tapInstr := 0x02, boundary := b } }) ∧
  (∀ (s : State) (b : Boundary), s.prov.tapOpen = true → ∃ t, exec (.extest b) s = .next t ∧
    t = { s with prov := { s.prov with tapInstr := 0x03, boundary := b } } ∧
    t.irqPin = b.irq ∧ t.tripPin = b.trip ∧ t.readyPin = b.ready ∧ t.nvmCsN = b.nvmCsN ∧ t.nvmSck = b.nvmSck ∧ t.nvmOut = b.nvmOut ∧
    t.nvmOe = b.nvmOe ∧ t.reqReady = b.reqReady ∧ t.rspValid = b.rspValid ∧ t.rspCode = b.rspCode ∧ t.rspData = b.rspData ∧
    t.sealDrive = b.sealDrive) ∧
  (∀ (s : State) (b : Boundary), s.prov.tapOpen = false → ∃ t, exec (.extest b) s = .next t ∧
    t = { s with prov := { s.prov with tapInstr := 0x03 } } ∧
    t.irqPin = t.irq ∧ t.tripPin = t.thermalTrip ∧ t.readyPin = t.mgmtReady ∧ t.reqReady = t.ymbOpen ∧ t.sealDrive = t.sealBit) ∧
  (∀ (s : State) (tdi : Bool), exec (.bypass tdi) s = .next { s with prov := { s.prov with tapInstr := 0xFF, bypass := tdi } }) ∧
  (∀ (s : State) (pass : BitVec 8), s.prov.tapOpen = true → s.hrt.ingots = [] → s.hrt.resetting = false →
    exec (.hrtBist pass) s = .next { s with
      prov := { s.prov with tapInstr := 0x11, bistHrt := some pass }, hrt := { s.hrt with resetting := true } }) ∧
  (∀ (s : State) (pass : BitVec 8), (s.prov.tapOpen = false ∨ s.hrt.ingots ≠ [] ∨ s.hrt.resetting = true) →
    exec (.hrtBist pass) s = .next { s with prov := { s.prov with tapInstr := 0x11 } }) ∧
  (∀ (s : State) (pass : Bool), exec (.sramBist pass) s = .next { s with prov := { s.prov with
    tapInstr := 0x12, bistSram := if s.prov.tapOpen then some pass else s.prov.bistSram } }) ∧
  (∀ (s : State), s.prov.tapOpen = false → s.prov.tapInstr ≠ 0x01 → s.prov.tapInstr ≠ 0x02 → s.tapActs = 0xFF) ∧
  (∀ (s : State), s.prov.tapOpen = true →
    (s.prov.tapInstr = 0x03 ∨ s.prov.tapInstr = 0x10 ∨ s.prov.tapInstr = 0x11 ∨ s.prov.tapInstr = 0x12) →
    s.tapActs = s.prov.tapInstr) ∧
  (∀ (s : State), s.idcode = assemble 32 [(1, 28), (0x5958, 12), (s.ctl.strapMfr.toNat, 1), (1, 0)])

/-- R332, R379. Boot from the release of yx_por_n: the straps are sampled; step 1 leads to step 2; applying the image leads to
step 5, in which every island is asked to wake; with every island ALIGNED step 6 begins, in which every port with USED = 0 is
UNUSED; once every used port has come to rest step 7 is DONE and queue 0 is DISABLED. (That step 5 takes no whole frame after the ramp
for an island that is powered already, but aligns it from the next frame edge on, is R349's.)

R327, R332, R333, R334. The header and the components: SFDP discovery that fails ends boot at once; a slot that passes its
checks moves on; a check that fails on slot A records reason and component and starts slot B at step 2, and on slot B ends boot
in the identity-only state; 100 ms in step 5 do the same with reason ALIGN. RETRY runs boot again from step 2 on slot A, only in
the identity-only state. The model's own choices: a failure of the header has component 0xF (log 34); every island is gated after a
failed slot, and RETRY clears both reasons and runs SFDP discovery again (log 35).

R328, R332. Step 4 from components that pass: the engine ID, the steward's requester, the repair map, every entry of the route table in
both banks and every port's LNK_PLAN are those of the image's configuration block, the versions are those of its component table, the
sequencers load and both profiles are valid. -/
def Obligations.BootSequence : Prop :=
  (∀ (s : State) (i : BitVec 3) (m : BitVec 11), s.boot.porLow = true → exec (.porRelease i m) s = .next { s with
    time := { s.time with now := max s.time.now (s.boot.assertAt + 16 * refPs) }
    boot := { s.boot with porLow := false }, ctl := { s.ctl with strapInst := i, strapMfr := m } }) ∧
  (∀ (s : State), s.bootRuns = true → s.boot.state = .por →
    exec (.bootStepAdvance .none) s = .next { s with boot := { s.boot with state := .nvm, step := 2 } }) ∧
  (∀ (s : State), s.bootRuns = true → s.boot.state = .apply → ∃ t, exec (.bootStepAdvance .none) s = .next t ∧
    t = { s.startFrames with
      boot := { s.boot with state := .align, step := 5, since := s.time.now }
      power := { s.power with waking := t.power.waking, woken := t.power.woken, alignFrom := t.power.alignFrom } } ∧
    t.power.waking = s.power.waking ||| ~~~ s.power.on ∧
    ∀ i ∈ allIslands, Tbl.get 0 t.power.alignFrom (islandCode i) = s.time.now) ∧
  (∀ (s : State), s.bootRuns = true → s.boot.state = .align → s.allAligned = true → s.time.now ≤ s.boot.since + 100 * msPs →
    ∃ t, exec (.bootStepAdvance .none) s = .next t ∧ t.boot = { s.boot with state := .train, step := 6 } ∧
      ∀ p < 40, bit (s.port p).reg.plan 31 = false → (t.port p).reg.st = .unused) ∧
  (∀ (s : State), s.bootRuns = true → s.boot.state = .train → s.trained = true →
    exec (.bootStepAdvance .none) s = .next (({ s with boot := { s.boot with state := .done, step := 7 } }).modQueue 0
      fun q => { q with st := .disabled })) ∧
  (∀ (s : State) (d : Sfdp) (b : List Byte) (r : BitVec 4), s.bootRuns = true → s.boot.state = .nvm → s.boot.step = 2 →
    s.prov.busy = none → s.boot.sfdpDone = false → whySfdp d = some r →
    exec (.bootStepAdvance (.header d b)) s =
      .next { s with boot := { s.boot with state := .identOnly, reasonA := r, reasonB := r } }) ∧
  (∀ (s : State) (d : Sfdp) (b : List Byte), s.bootRuns = true → s.boot.state = .nvm → s.boot.step = 2 →
    s.prov.busy = none → s.boot.sfdpDone = true → whyHeader b s.boot.region = none → whyWindow (compTable b) = none →
    exec (.bootStepAdvance (.header d b)) s = .next { s with boot := { s.boot with
      comps := compTable b, serial := BitVec.ofNat 32 (leAt b 0xC 4), step := 3 } }) ∧
  (∀ (s : State) (d : Sfdp) (b : List Byte) (r : BitVec 4), s.bootRuns = true → s.boot.state = .nvm → s.boot.step = 2 →
    s.prov.busy = none → s.boot.sfdpDone = true → whyHeader b s.boot.region = some r →
    ∃ t, exec (.bootStepAdvance (.header d b)) s = .next t ∧
      if s.boot.slot then t.boot.state = .identOnly ∧ t.boot.reasonB = r ∧ t.boot.compB = 0xF
      else t.boot.state = .nvm ∧ t.boot.step = 2 ∧ t.boot.slot = true ∧ t.boot.reasonA = r ∧ t.boot.compA = 0xF) ∧
  (∀ (s : State) (bs : List (List Byte)) (r c : BitVec 4), s.bootRuns = true → s.boot.state = .nvm → s.boot.step = 3 →
    whyComponents s.boot.comps bs = some (r, c) → ∃ t, exec (.bootStepAdvance (.components bs)) s = .next t ∧
      if s.boot.slot then t.boot.state = .identOnly ∧ t.boot.reasonB = r ∧ t.boot.compB = c
      else t.boot.state = .nvm ∧ t.boot.step = 2 ∧ t.boot.slot = true ∧ t.boot.reasonA = r ∧ t.boot.compA = c) ∧
  (∀ (s : State), s.boot.state = .align → s.allAligned = false → ∃ t, exec .bootAlignTimeout s = .next t ∧ t.power.on = 0 ∧
    t.time.now = max s.time.now (s.boot.since + 100 * msPs) ∧
      if s.boot.slot then t.boot.state = .identOnly ∧ t.boot.reasonB = 0xA
      else t.boot.state = .nvm ∧ t.boot.step = 2 ∧ t.boot.slot = true ∧ t.boot.reasonA = 0xA) ∧
  (∀ (s : State) (v : W32), s.ymbOpen = true → s.boot.state = .identOnly → bit v 0 = true →
    ∃ t, exec (.bootRetry v) s = .next t ∧ t.boot.state = .nvm ∧ t.boot.step = 2 ∧ t.boot.slot = false ∧
      t.boot.sfdpDone = false ∧ t.boot.reasonA = 0 ∧ t.boot.reasonB = 0 ∧ t.ctl.rspCode = rspOkay ∧ t.prov = s.prov) ∧
  (∀ (s : State) (v : W32), s.ymbOpen = true → s.boot.state ≠ .identOnly → bit v 0 = true →
    exec (.bootRetry v) s = .next (s.answer rspDenied 0)) ∧
  (∀ (s : State) (bs : List (List Byte)), s.bootRuns = true → s.boot.state = .nvm → s.boot.step = 3 →
     whyComponents s.boot.comps bs = none → ∃ t, exec (.bootStepAdvance (.components bs)) s = .next t ∧
       let b := bs.getD (s.boot.comps.findIdx fun c => c.type = 1) []
       t.boot.state = .apply ∧ t.boot.step = 4 ∧ t.boot.cfg.ownId = BitVec.ofNat 16 (leAt b 8 2) ∧
       t.boot.cfg.stewardRid = BitVec.ofNat 16 (leAt b 0xA 2) ∧ t.hrt.repair = BitVec.ofNat 5 (leAt b 0xC 1) ∧
       t.boot.cfg.reimageEn = decide (leAt b 0xD 1 = 1) ∧
       (∀ e < 65536, Tbl.get 0 t.route.bank0 e = BitVec.ofNat 16 (leAt b (0x1000 + 2 * e) 2) ∧
         Tbl.get 0 t.route.bank1 e = BitVec.ofNat 16 (leAt b (0x1000 + 2 * e) 2)) ∧
       (let ver (k : Nat) : W32 := ((compOf s.boot.comps k).map fun c => c.version).getD 0
        t.boot.cfgVer = ver 1 ∧ t.boot.seqVer = ver 2 ∧ t.boot.trnVer = ver 3) ∧
       t.ctl.profValid = true ∧ t.ctl.bitProfile = t.bitDigest ∧ t.ctl.clockProfile = t.clockDigest ∧
       t.seq.standby = .loading ∧ t.time = s.time ∧ t.prov = s.prov ∧
       ∀ p < 40, (t.port p).reg.plan = (cfgCabling b).getD p 0)

/-- R351. yx_por_n low: every state of the block takes its value at power-on (that the levels of the pins and what the PHY reports
are no state of it is log 36's choice; the model's own time, counter and queue go on).

R305, R336, R351, R352. The assertion of yx_warm_n and an accepted zeroize stop and scrub: boot stands at POR, no partition,
queue, plan, heat, tag, slot, route, key, circuit, translation, record, message or trace entry is left, the session is CLOSED
with LAST_CLOSE 0, and SEAL_BROKEN is kept. One that comes while yx_warm_n is still low after a scrub starts no second scrub. A warm
reset abandons an NVM command. Neither acts while yx_por_n is low. The model's own choices (log 36): the stores are wiped when the reset
is asserted, an edge of yx_ctl_test_scan_en acts as an assertion of yx_warm_n, and a zeroize is accepted 1 ms after the last one at the
earliest.

R305, R351, R352. The cold reset follows once the scrub is over and no reset input is low, whichever comes later, and boot
starts at step 1: SEAL_BROKEN is kept, and so are the straps and the levels of the pins (the model's choice, log 36), the registers take
their power-on values, and the epoch counter runs on through a warm reset but not through a zeroize. A release before 16 refclk periods of
the assertion takes effect at their end. -/
def Obligations.Resets : Prop :=
  (∀ (s : State), ∃ t, exec .powerOnReset s = .next t ∧
     t = { State.reset with
       time := { TimeSt.reset with now := s.time.now }
       boot := { BootSt.reset with
         porLow := true, warmLow := s.boot.warmLow, assertAt := s.time.now, scan := s.boot.scan, zeroAt := s.boot.zeroAt }
       prov := { ProvSt.reset with enHigh := s.prov.enHigh }
       ports := t.ports, wld := { WldSt.reset with level := s.wld.level }, freeCtr := s.freeCtr, pending := s.pending } ∧
     ∀ p, (t.port p).reg = PortReg.reset ∧ (t.port p).tx = PortTx.reset ∧ (t.port p).rx.buf = [] ∧ (t.port p).tr.allot = []) ∧
  (∀ (s : State), s.boot.porLow = false → ∃ t, exec .warmReset s = .next t ∧ t.wiped ∧ t.inReset = true ∧
    t.boot.scrub = !s.boot.scrubbed ∧ t.boot.sealBroken = s.boot.sealBroken ∧ t.prov.busy = none ∧ t.time = s.time) ∧
  (∀ (s : State), s.boot.porLow = false → ∃ t, exec .zeroize s = .next t ∧ t.wiped ∧ t.boot.zeroizing = true ∧
    t.boot.scrub = !s.boot.scrubbed ∧ t.boot.sealBroken = s.boot.sealBroken ∧ t.prov.busy = s.prov.busy ∧
    t.boot.zeroAt = some t.time.now ∧
    t.time = { s.time with now := match s.boot.zeroAt with
      | some z => max s.time.now (z + msPs)
      | none => s.time.now }) ∧
  (∀ (s : State), s.boot.porLow = true → exec .zeroize s = .next s ∧
    exec .warmReset s = .next { s with boot := { s.boot with warmLow := true } }) ∧
  (∀ (s : State) (up : Bool), s.boot.porLow = false → ∃ t, exec (.testScanEnEdge up) s = .next t ∧ t.wiped ∧
    t.boot.scrub = !s.boot.scrubbed ∧ t.boot.scan = up ∧ t.boot.sealBroken = s.boot.sealBroken) ∧
  (∀ (s : State), s.boot.scrub = true → s.inReset = false → ∃ t, exec .zeroizeScrubDone s = .next t ∧ t.coldStart s ∧
    t.time.now = s.time.now) ∧
  (∀ (s : State), s.boot.warmLow = true → s.boot.porLow = false → s.boot.scan = false → s.boot.scrub = false →
    ∃ t, exec .warmResetRelease s = .next t ∧ t.coldStart s ∧ t.time.now = max s.time.now (s.boot.assertAt + 16 * refPs)) ∧
  (∀ (s : State), s.boot.scrub = true → s.inReset = true →
    exec .zeroizeScrubDone s = .next { s with boot := { s.boot with scrub := false, scrubbed := true } }) ∧
  (∀ (s : State), s.boot.scrub = true → s.boot.warmLow = true → s.boot.porLow = false → exec .warmResetRelease s = .next { s with
    time := { s.time with now := max s.time.now (s.boot.assertAt + 16 * refPs) }, boot := { s.boot with warmLow := false } }) ∧
  (∀ (s : State), (s.boot.warmLow = false ∨ s.boot.porLow = true) →
    exec .warmResetRelease s = .next { s with boot := { s.boot with warmLow := false } })

/-! ### Islands, power, temperature, Hearth, sequencers (05, 13 to 15) -/

/-- R353, R354, R12. Gating: an island that meets the rules loses power and alignment once it has been idle for IDLE_US, and its contents with
them: what its ports hold to send and to receive, the flag words of its lanes, and Trace's telemetry sampler (registers stay, R386); one
that does not stays as it is. A wake is asked for by the island's bits; the end of ramp and initialisation powers the domains that were waking, counts
them, leaves them unaligned, and (Hearth) has allocation wait for the scrub. -/
def Obligations.GatingAndWake : Prop :=
  (∀ (s : State) (i : Island), (s.boot.state = .done ∨ s.boot.state = .identOnly) → s.mayGate i = true →
    ∃ t, exec (.islandGate i) s = .next t ∧ t.time = { s.time with now := max s.time.now (s.idleOver i) } ∧ t.ctl = s.ctl ∧ t.boot = s.boot ∧ t.prov = s.prov ∧ t.tab = s.tab ∧
      t.power = { s.power with
        on := s.power.on &&& ~~~ maskOf (domainBits i), aligned := s.power.aligned &&& ~~~ maskOf (domainBits i) } ∧
      (∀ p ∈ islandPorts i, (t.port p).tx = .reset ∧ (t.port p).rx.buf = [] ∧ (t.port p).rx.ents = [] ∧
        (t.port p).reg = (s.port p).reg) ∧
      (∀ p, p ∉ islandPorts i → t.port p = s.port p) ∧
      (i = .trace → t.trc = { s.trc with sample := 0, sampled := [] }) ∧ (i ≠ .trace → t.trc = s.trc) ∧
      ∀ l, Tbl.get { heat := 0, valid := false, flags := 0 } t.hrt.flagWords l =
        if (i matches .anvil _) = true ∧ (s.unitsOf i).elem (l / 128) = true then { heat := 0, valid := false, flags := 0 }
        else Tbl.get { heat := 0, valid := false, flags := 0 } s.hrt.flagWords l) ∧
  (∀ (s : State) (i : Island), s.mayGate i = false → exec (.islandGate i) s = .next s) ∧
  (∀ (s : State) (i : Island), maskOf (domainBits i) &&& s.power.waking ≠ 0 → ∃ t, exec (.islandWake i) s = .next t ∧
    let m := maskOf (domainBits i) &&& s.power.waking
    t = { s with hrt := t.hrt, power := t.power } ∧
      t.power = { s.power with
        on := s.power.on ||| m, aligned := s.power.aligned &&& ~~~ m, waking := s.power.waking &&& ~~~ m
        wakes := satAdd s.power.wakes (popcount m), alignFrom := t.power.alignFrom } ∧
      t.hrt = { s.hrt with resetting := s.hrt.resetting || (i matches .hearth _) }) ∧
  (∀ (s : State) (i : Island), maskOf (domainBits i) &&& s.power.waking = 0 → exec (.islandWake i) s = .next s) ∧
  (∀ (s : State) (i : Island), s.boot.state = .done → s.power.autoAnvil = true →
    (anvils.find? fun j => !s.isOn j) = some i → exec .laneOccupancyWake s = .next { s with power := { s.power with
      waking := s.power.waking ||| (maskOf (domainBits i) &&& ~~~ s.power.on)
      woken := s.power.woken ||| (maskOf (domainBits i) &&& ~~~ s.power.on) } }) ∧
  (∀ (s : State), s.boot.state = .done → s.power.autoAnvil = false → exec .laneOccupancyWake s = .next s)

/-- R349, R350, R303, R347. A check, over the frame after the next frame edge, of a powered island that is not aligned: a pass sets its bit of PWR_ALIGN_STAT, a
failure counts and repeats; a pass ends the island's reset: BUSY 0, DONE and TNG_EVENT.ISLAND 1. The 16th failure in a row
outside boot step 5 sets PWR_EVENT.ALIGN_FAIL. In step 5 a check that would end after its 100 ms finds them over. -/
def Obligations.AlignmentChecks : Prop :=
  (∀ (s : State) (i : Island), (s.boot.state = .align ∨ s.linksRun = true) → s.time.running = true → s.isReady i = false →
    s.isOn i = true → (s.boot.state = .align → s.checkEnd i ≤ s.boot.since + 100 * msPs) →
    ∃ t u : State, exec (.alignFrameCheck i true) s = .next t ∧ t = u.afterCheck ∧
      u = State.alignedNow { s with time := { s.time with now := max s.time.now (s.checkEnd i) } } i ∧
      (s.ctl.islMore = [] → u.isReady i = true) ∧ u.power.on = s.power.on ∧
      u.time = { s.time with now := max s.time.now (s.checkEnd i) } ∧
      (s.ctl.islBusy = true → s.ctl.islNow.toNat = islandCode i → s.ctl.islStarted = true →
        u.ctl.islDone = true ∧ bit u.tng.event 3 = true ∧ (s.ctl.islMore = [] → u.ctl.islBusy = false))) ∧
  (∀ (s : State) (i : Island), (s.boot.state = .align ∨ s.linksRun = true) → s.time.running = true → s.isReady i = false →
    s.isOn i = true → (s.boot.state = .align → s.checkEnd i ≤ s.boot.since + 100 * msPs) →
    (s.alignFails i + 1 < 16 ∨ s.boot.state = .align) →
    exec (.alignFrameCheck i false) s = .next (State.afterCheck { s with
      time := { s.time with now := max s.time.now (s.checkEnd i) }
      power := { s.power with
        retries := Tbl.set 0 s.power.retries (islandCode i) (s.alignFails i + 1)
        alignRetries := satInc s.power.alignRetries
        alignFrom := Tbl.set 0 s.power.alignFrom (islandCode i) (max s.time.now (s.checkEnd i)) } })) ∧
  (∀ (s : State) (i : Island), s.linksRun = true → s.time.running = true → s.isReady i = false → s.isOn i = true →
    s.alignFails i + 1 = 16 → ∃ t, exec (.alignFrameCheck i false) s = .next t ∧ bit t.power.event 2 = true) ∧
  (∀ (s : State) (i : Island) (ok : Bool), s.boot.state = .align → s.time.running = true →
    s.boot.since + 100 * msPs < s.checkEnd i → exec (.alignFrameCheck i ok) s = .next s.alignTimeout)

/-- R356. A sample of the sensors: readings (0 from a gated domain), maxima, and the level, which only rises: to CRITICAL at
CRIT_C, from NORMAL to THROTTLED at THROTTLE_C, with the level's bit of PWR_EVENT. After 1 ms at or below a threshold less
HYST_C the level falls by one. The model's own choices (log 25): no threshold acts while THROTTLE_C is 0, and a fall from CRITICAL sets the
event THROTTLE. -/
def Obligations.ThermalLevel : Prop :=
  (∀ (s : State) (temps : List (BitVec 8)), s.inReset = false → ∃ t, exec (.sensorSample temps) s = .next t ∧
    t.power.temps = s.reading temps ∧
    (∀ k < 26, (t.power.maxs.getD k 0).toNat = max (s.power.maxs.getD k 0).toNat ((s.reading temps).getD k 0).toNat) ∧ t.time = s.time ∧ t.ctl = s.ctl ∧ t.boot = s.boot ∧ t.prov = s.prov ∧
    t.power.on = s.power.on ∧ t.power.aligned = s.power.aligned ∧
    t.power.level =
      (if s.power.throttleC = 0 then s.power.level
       else if s.power.level ≠ 2 ∧ ∃ x ∈ s.reading temps, s.power.critC.toNat ≤ x.toNat then 2
       else if s.power.level = 0 ∧ ∃ x ∈ s.reading temps, s.power.throttleC.toNat ≤ x.toNat then 1
       else s.power.level) ∧
    (t.power.level ≠ s.power.level → bit t.power.event (t.power.level.toNat - 1) = true)) ∧
  (∀ (s : State) (t0 : Nat), s.power.coolSince = some t0 → s.power.level = 2 →
    (∀ x ∈ s.power.temps, x.toNat + s.power.hystC.toNat ≤ s.power.critC.toNat) →
    ∃ t, exec .thermalHystExpiry s = .next t ∧ t.power.level = 1 ∧ bit t.power.event 0 = true ∧ t.power.temps = s.power.temps ∧
      t.time = { s.time with now := max s.time.now (t0 + msPs) }) ∧
  (∀ (s : State) (t0 : Nat), s.power.coolSince = some t0 → s.power.level = 1 →
    (∀ x ∈ s.power.temps, x.toNat + s.power.hystC.toNat ≤ s.power.throttleC.toNat) →
    exec .thermalHystExpiry s = .next { s with
      time := { s.time with now := max s.time.now (t0 + msPs) }, power := { s.power with level := 0, coolSince := none } }) ∧
  (∀ (s : State), (s.power.level = 0 ∨ s.power.coolSince = none) → exec .thermalHystExpiry s = .next s)

/-- R303, R320. A write of CTL_ISLAND_RST with GO = 1: refused with ERROR, and nothing changed, while BUSY, for a code that the
steward may not reset, and for a Hearth bank while an ingot is allocated or awaits scrub; otherwise BUSY is 1 and the island's
drain begins. The reset starts once no heat holds a unit of the island.

R304. An island fault once boot is over: of Tongs, Weld and Control it ends the heats whose contexts it touches and resets no
island; of any other island it has the island reset, unless the island's reset is in progress already; of a Hearth bank it
poisons every other set and holds allocation until the bank is scrubbed. -/
def Obligations.IslandResets : Prop :=
  (∀ (s : State) (v : W32) (i : Island), s.up → bit v 8 = true → islandOfCode (fieldN v 0 6) = some i →
    (s.ctl.islBusy = true ∨ resettable i = false ∨ ((i matches .hearth _) = true ∧ (s.hrt.ingots ≠ [] ∨ s.hrt.resetting = true))) →
    exec (.islandReset v) s = .next (s.answer rspError 0)) ∧
  (∀ (s : State) (v : W32), s.up → bit v 8 = true → islandOfCode (fieldN v 0 6) = none →
    exec (.islandReset v) s = .next (s.answer rspError 0)) ∧
  (∀ (s : State) (v : W32) (i : Island), s.up → bit v 8 = true → islandOfCode (fieldN v 0 6) = some i →
    s.ctl.islBusy = false → resettable i = true → ((i matches .hearth _) = true → s.hrt.ingots = [] ∧ s.hrt.resetting = false) →
    ∃ t, exec (.islandReset v) s = .next t ∧ t.time = s.time ∧ t.sameSupply s ∧ t.boot = s.boot ∧ t.prov = s.prov ∧
      t.ctl = { s.ctl with
        islBusy := true, islStarted := false, islNow := BitVec.ofNat 6 (islandCode i), islOrder := s.tng.order
        islCode := field v 0 6, islDone := s.ctl.islDone && !bit v 30, rspCode := rspOkay, rspData := 0 }) ∧
  (∀ (s : State) (i : Island), islandOfCode s.ctl.islNow.toNat = some i → s.ctl.islBusy = true → s.ctl.islStarted = false →
    (∀ e ∈ s.heatList, s.holdsUnit e.2 i = false) →
    ∃ t u : State, exec .islandResetStart s = .next t ∧ t = u.pumpAll ∧ u.ctl = { s.ctl with islStarted := true } ∧
      (s.seq.reload = false → s.seq.fatal = false → u.quench.valid = true) ∧ (s.isOn i = true → u.power = { s.power with
        aligned := s.power.aligned &&& ~~~ maskOf (islandBits i), woken := s.power.woken &&& ~~~ maskOf (islandBits i)
        alignFrom := Tbl.set 0 s.power.alignFrom (islandCode i) s.time.now }) ∧
      (s.isOn i = false → u.power = { s.power with
        waking := s.power.waking ||| (maskOf (domainBits i) &&& ~~~ s.power.on)
        woken := s.power.woken ||| (maskOf (domainBits i) &&& ~~~ s.power.on) })) ∧
  (∀ (s : State) (e : Nat × Heat) (i : Island), islandOfCode s.ctl.islNow.toNat = some i → e ∈ s.heatList →
    s.holdsUnit e.2 i = true → exec .islandResetStart s = .next s.pumpAll) ∧
  (∀ (s : State) (unit : BitVec 5) (cs : List (BitVec 12)), s.boot.state = .done →
    exec (.islandFault .tongs unit cs) s = .next (s.stateEcc .tongs (cs.map (·.toNat))).pumpAll ∧
    exec (.islandFault .weld unit cs) s = .next (s.stateEcc .weld (cs.map (·.toNat))).pumpAll ∧
    exec (.islandFault .control unit cs) s = .next (s.stateEcc .control (cs.map (·.toNat))).pumpAll ∧
    (s.stateEcc .tongs (cs.map (·.toNat))).sameSupply s ∧ (s.stateEcc .weld (cs.map (·.toNat))).sameSupply s ∧
    (s.stateEcc .control (cs.map (·.toNat))).sameSupply s) ∧
  (∀ (s : State) (i : Island) (unit : BitVec 5) (cs : List (BitVec 12)), s.boot.state = .done → resettable i = true →
    s.ctl.islBusy = false → ∃ t, exec (.islandFault i unit cs) s = .next t ∧ t.ctl.islBusy = true ∧
      t.ctl.islNow = BitVec.ofNat 6 (islandCode i) ∧ t.time = s.time ∧ t.boot = s.boot ∧ t.prov = s.prov) ∧
  (∀ (s : State) (n : Fin 8) (unit : BitVec 5) (cs : List (BitVec 12)), s.boot.state = .done → ∃ t u v : State,
    exec (.islandFault (.hearth n) unit cs) s = .next t ∧ t = (State.faultReset v (.hearth n)).pumpAll ∧
      v = { u with hrt := { u.hrt with resetting := true } } ∧
      ∀ (k : Nat) (sl : Slot) (x : SetSt), (k, some sl) ∈ u.hrt.slots → x ∈ sl.sets → x.st = .poisoned ∨
        ∃ e ∈ s.heatList, s.holdsUnit e.2 (.hearth n) = true ∧ e.2.id.part.map (· * 65536 + e.2.id.w.slot) = some k)

/-- R133, R134, R131, R278. Patrol reads the next line of every bank while it is enabled and Hearth serves, at a fixed phase of the epoch
counter, and wraps; a single flipped bit in the line is corrected and counted; two or more in a free ingot are counted and logged, and the
ingot is scrubbed again; an ingot that awaits scrub is skipped. That the command carries the bits that have flipped, that a corrected bit is
corrected in the word too (log 24), that three or more flipped bits count as uncorrectable (log 68), and the phase 0 (log 23) are the
model's.

R133, R353. Scrubbed ingots are free, in the order of their release, and written anew; after a reset, a wake or BIST the scrub is over for
all of them at once (the model's choice, log 26), and a wake of Hearth ends with it.

R110, R111, R113. A Hearth word: 64 data bits, byte k of them the byte of its set at the place that R110 and R113 give it, a PRESENT bit
for each half, and check bits that are some fixed function of the 66 (log 68), as long as nothing has flipped a bit of it. One flipped bit is
corrected and counted; two or more (for three, the model's choice, log 68) are counted as uncorrectable and logged. Flipped bits come with
commands, and a corrected word is written back (the model's choice, log 24). -/
def Obligations.PatrolAndScrub : Prop :=
  (∀ (s : State), s.hrt.patrol = true → s.hearthServes = true → s.hrt.upsets = [] →
    ∃ t u : State, exec (.patrolRead []) s = .next t ∧ t = u.pumpAll ∧ u.time = (s.toPhase s.hrt.patrolAt patrolPs).time ∧
      u = { s with time := u.time, hrt := { s.hrt with patrolLine := s.hrt.patrolLine + 1, patrolAt := u.epochPs } }) ∧
  (∀ (s : State) (fs : List Flip), (s.hrt.patrol = false ∨ s.hearthServes = false) →
    exec (.patrolRead fs) s = .next (s.flips fs).pumpAll) ∧
  (∀ (s : State) (f : Flip), s.hrt.patrol = true → s.hearthServes = true → s.hrt.upsets = [] → s.hrt.resetting = false →
    f.stripe.toNat = s.hrt.patrolLine.toNat / 8 → f.word.toNat / 8 = s.hrt.patrolLine.toNat % 8 →
    ∃ t u : State, exec (.patrolRead [f]) s = .next t ∧ t = u.pumpAll ∧
      (f.stripe.toNat ∉ s.hrt.scrub → ones f.bits = 1 → u.hrt = { s.hrt with
        patrolLine := s.hrt.patrolLine + 1, patrolAt := u.hrt.patrolAt, corr := satInc s.hrt.corr }) ∧
      (f.stripe.toNat ∈ s.hrt.scrub → u.hrt = { s.hrt with
        patrolLine := s.hrt.patrolLine + 1, patrolAt := u.hrt.patrolAt, upsets := u.hrt.upsets }) ∧
      (f.stripe.toNat ∉ s.hrt.scrub → 2 ≤ ones f.bits → Tbl.get false s.hrt.ingots f.stripe.toNat = false →
        u.hrt = { s.hrt with
          patrolLine := s.hrt.patrolLine + 1, patrolAt := u.hrt.patrolAt, upsets := u.hrt.upsets
          scrub := s.hrt.scrub ++ [f.stripe.toNat], ingots := Tbl.set false s.hrt.ingots f.stripe.toNat true
          uncorr := satInc s.hrt.uncorr, logValid := true
          logPatrol := if s.hrt.logValid then s.hrt.logPatrol else true
          logBank := if s.hrt.logValid then s.hrt.logBank else f.bank
          logStripe := if s.hrt.logValid then s.hrt.logStripe else f.stripe
          logWord := if s.hrt.logValid then s.hrt.logWord else f.word })) ∧
  (∀ (s : State) (n : Nat), s.hearthServes = true → s.hrt.resetting = false → ∃ t : State, exec (.scrubDone n) s = .next t.wakeOver ∧
    t = { s with
      hrt := { s.hrt with ingots := t.hrt.ingots, scrub := s.hrt.scrub.drop n, upsets := t.hrt.upsets }
      power := { s.power with hearthIdle := t.power.hearthIdle } } ∧
    (∀ i, Tbl.get false t.hrt.ingots i = (Tbl.get false s.hrt.ingots i && !((s.hrt.scrub.take n).elem i))) ∧
    ∀ k, t.upset k = if (s.hrt.scrub.take n).elem (k / 512) then 0 else s.upset k) ∧
  (∀ (s : State) (n : Nat), s.hearthServes = true → s.hrt.resetting = true → ∃ t : State, exec (.scrubDone n) s = .next t.wakeOver ∧
    t = { s with
      hrt := { s.hrt with ingots := t.hrt.ingots, scrub := [], resetting := false, upsets := [] }
      power := { s.power with
        hearthIdle := t.power.hearthIdle, woken := s.power.woken &&& ~~~ maskOf ((List.range 8).map (13 + ·)) } } ∧
    ∀ i, Tbl.get false t.hrt.ingots i = (Tbl.get false s.hrt.ingots i && !(s.hrt.scrub.elem i))) ∧
  (∀ (s : State) (n : Nat), s.hearthServes = false → exec (.scrubDone n) s = .next s.wakeOver) ∧
  (∀ (s : State) (p k i j o : Nat) (sl : Slot) (x : SetSt) (n : Nat), s.slot p k = some sl → sl.sets[i]? = some x →
    x.ingots[j]? = some n → o < 4096 → x.ingots.idxOf n = j → sl.biasIngots.elem n = false →
    (∀ e ∈ s.hrt.slots, ∀ y, e.2 = some y → (y.biasIngots.elem n = true ∨ ∃ z ∈ y.sets, n ∈ z.ingots) → e.1 = p * 65536 + k) →
    (∀ e ∈ s.hrt.slots, e.1 = p * 65536 + k → e.2 = some sl) → k < 65536 →
    (∀ i' x', sl.sets[i']? = some x' → n ∈ x'.ingots → i' = i) → s.upset (wordKey n (o / 512) (o % 512 / 8)) = 0 →
    byteAt (s.hearthWord (wordKey n (o / 512) (o % 512 / 8))) (o % 8) = (s.setByte p k sl i (4096 * j + o)).1 ∧
    (o % 4 = 0 → bit (s.hearthWord (wordKey n (o / 512) (o % 512 / 8))) (64 + o % 8 / 4) = (s.setByte p k sl i (4096 * j + o)).2)) ∧
  (∀ (s : State) (w : Nat), ∃ d : BitVec 66, s.hearthWord w = (Config.checkBits d ++ d) ^^^ s.upset w ∧
    (∀ j < 8, byteAt d j = (s.ingotByte (w / 512) (w % 512 * 8 + j)).1) ∧
    bit d 64 = (s.ingotByte (w / 512) (w % 512 * 8)).2 ∧ bit d 65 = (s.ingotByte (w / 512) (w % 512 * 8 + 4)).2) ∧
  (∀ (s : State) (w : Nat), ones (s.upset w) = 1 → ∃ t, s.readWord w false = (t, true) ∧ t.hearthWord w = s.wordGood w ∧
    t.hrt.corr = satInc s.hrt.corr) ∧
  (∀ (s : State) (w : Nat), 2 ≤ ones (s.upset w) → ∃ t, s.readWord w false = (t, false) ∧ t.hrt.uncorr = satInc s.hrt.uncorr ∧
    t.hearthWord w = s.hearthWord w ∧ t.hrt.logValid = true)

/-- R339. A load of the standby store: a check that passes leaves READY, or STAGED with the region's VERSION and completes the
REIMAGE_STAGE with OK; the first failure repeats the load; the second in a row enters FAILED, and the REIMAGE_STAGE completes with
MALFORMED.

R341. REIMAGE_ACTIVATE at the quiesce boundary: with no sequencer work in progress and a STAGED standby the sequencers switch,
BOOT_SEQ_VER is the staged version, the former active store loads, and the waiting heat completes with OK. Where no work is in progress when TIMEOUT_MS passes, the boundary came first. If TIMEOUT_MS
passes first, the hold ends, the standby stays STAGED and the heat completes with ABORT_TIMEOUT.

R342. A fault of the active sequencer: a READY or STAGED standby takes over and is counted, and from STAGED BOOT_SEQ_VER is the
staged version; with a standby LOADING or FAILED the store is reloaded from the device and that is counted. A reload whose header and microcode
pass the checks of R327 with the VERSION and CRC loaded at boot restores the version loaded at boot, captures that waited are published and
partition resets that waited go on (the model's choice, logs 27 and 83); one that fails sets FATAL. -/
def Obligations.SequencerStores : Prop :=
  (∀ (s : State), s.seq.standby = .loading → s.seq.stage = none →
    exec (.standbyLoadDone true) s = .next ({ s with seq := { s.seq with standby := .ready, fails := 0 } }).pumpAll) ∧
  (∀ (s : State) (c : Nat), s.seq.standby = .loading → s.seq.stage = some c →
    exec (.standbyLoadDone true) s = .next ((({ s with seq := { s.seq with
      standby := .staged, fails := 0, stage := none, stagedVer := s.seq.loadVer, stagedIfrev := s.seq.loadIfrev } }).endHeat
        c .ok).pumpAll)) ∧
  (∀ (s : State), s.seq.standby = .loading → s.seq.fails = 0 →
    exec (.standbyLoadDone false) s = .next ({ s with seq := { s.seq with fails := 1 } }).pumpAll) ∧
  (∀ (s : State), s.seq.standby = .loading → s.seq.fails ≠ 0 → s.seq.stage = none →
    exec (.standbyLoadDone false) s = .next ({ s with seq := { s.seq with standby := .failed, fails := 2 } }).pumpAll) ∧
  (∀ (s : State) (c : Nat), s.seq.standby = .loading → s.seq.fails ≠ 0 → s.seq.stage = some c →
    exec (.standbyLoadDone false) s = .next ((({ s with seq := { s.seq with
      standby := .failed, fails := 2, stage := none } }).endHeat c .malformed).pumpAll)) ∧
  (∀ (s : State) (c d : Nat), s.seq.hold = some (c, d) → s.seqBusy = false → s.seq.standby = .staged → s.time.now ≤ d →
    ∃ t u : State, exec .reimageQuiesce s = .next t ∧ t = (({ u with seq := { u.seq with hold := none } }).endHeat c .ok).pumpAll ∧
      u.seq.activeId = !s.seq.activeId ∧ u.seq.ifrev = s.seq.stagedIfrev ∧ u.seq.standby = .loading ∧
      u.boot = { s.boot with seqVer := s.seq.stagedVer } ∧ u.ports = s.ports ∧ u.time = s.time ∧
      (s.ctl.profValid = true → u.ctl.clockProfile = u.clockDigest)) ∧
  (∀ (s : State), (s.seq.hold = none ∨ s.seqBusy = true ∨ s.seq.standby ≠ .staged) → exec .reimageQuiesce s = .next s) ∧
  (∀ (s : State) (c d : Nat), s.seq.hold = some (c, d) → d < s.time.now → exec .reimageQuiesce s = .next s) ∧
  (∀ (s : State) (c d : Nat), s.seq.hold = some (c, d) → s.seqBusy = false → s.seq.standby = .staged → s.time.now ≤ d →
    exec .reimageActivateTimeout s = exec .reimageQuiesce s) ∧
  (∀ (s : State) (c d : Nat), s.seq.hold = some (c, d) → (s.seqBusy = true ∨ s.seq.standby ≠ .staged ∨ d < s.time.now) →
    exec .reimageActivateTimeout s = .next ((({ s with
      time := { s.time with now := max s.time.now d }, seq := { s.seq with hold := none } }).endHeat c .abortTimeout).pumpAll)) ∧
  (∀ (s : State), s.seq.hold = none → exec .reimageActivateTimeout s = .next s) ∧
  (∀ (s : State), s.boot.state = .done → s.seq.fatal = false → (s.seq.standby = .ready ∨ s.seq.standby = .staged) →
    ∃ t u : State, exec .seqFault s = .next t ∧ t = u.pumpAll ∧ u.seq.takeovers = satInc s.seq.takeovers ∧
      u.seq.activeId = !s.seq.activeId ∧ u.seq.standby = .loading ∧ u.time = s.time ∧ u.sameSupply s ∧ u.prov = s.prov ∧
      u.boot = { s.boot with seqVer := if s.seq.standby = .staged then s.seq.stagedVer else s.boot.seqVer } ∧
      (s.seq.standby = .staged → u.seq.hold = none)) ∧
  (∀ (s : State), s.boot.state = .done → s.seq.fatal = false → (s.seq.standby = .loading ∨ s.seq.standby = .failed) →
    ∃ t u : State, exec .seqFault s = .next t ∧ t = u.pumpAll ∧ u.seq.reload = true ∧
      u.seq.reloads = satInc s.seq.reloads ∧ u.seq.activeId = s.seq.activeId ∧ u.seq.takeovers = s.seq.takeovers ∧
      u.boot = s.boot ∧ u.time = s.time ∧ u.sameSupply s) ∧
  (∀ (s : State) (hdr ucode : List Byte), s.seq.reload = true → s.prov.busy = none → s.reloadOk hdr ucode = true →
    ∃ t u : State, exec (.nvmReloadDone (hdr, ucode)) s = .next t ∧ t = u.publishWaiting.resetsGo.pumpAll ∧
    u.seq = { s.seq with reload := false, ifrev := BitVec.ofNat 8 s.boot.trnIfrev } ∧
    u.boot = { s.boot with seqVer := s.boot.seqBootVer } ∧ u.time = s.time ∧ u.prov = s.prov ∧ u.quench = s.quench) ∧
  (∀ (s : State) (hdr ucode : List Byte), s.seq.reload = true → s.prov.busy = none → s.reloadOk hdr ucode = false →
    exec (.nvmReloadDone (hdr, ucode)) s = .next (State.pumpAll { s with seq := { s.seq with reload := false, fatal := true } })) ∧
  (∀ (s : State) (hdr ucode : List Byte), s.seq.reload = false → exec (.nvmReloadDone (hdr, ucode)) s = .next s.pumpAll) ∧
  (∀ (s : State) (hdr ucode : List Byte), s.reloadOk hdr ucode = true →
    whyHeader hdr s.boot.region = none ∧ ∃ c, compOf (compTable hdr) 2 = some c ∧ crc32 (slice ucode 0 c.length) = c.crc ∧
      c.version = s.boot.seqBootVer ∧ c.crc = s.boot.seqBootCrc)

/-! ### Queue pages and chains (07) -/

/-- R154, R157 to R159, R396. A doorbell: to an UNASSIGNED queue, or from another than the owner, it is rejected with its cause; in
HALTED, and in DISABLED with an invalid configuration, it is ignored, but that a malformed one in the tclk of its partition's halt records
its own reason (R175; that no whole nanosecond has passed since the halt is the model's measure of that tclk, log 66); with a reserved bit set, TAIL not below S, or d(TAIL)
above S it is a malformed entry DB_RANGE, with d(TAIL) below d(t) DB_BACKWARD; otherwise it is the pending tail, and INVAL sets a
pending discard.

R158, R159, R165. Once per tclk the pending tail becomes the tail, and a pending discard acts before it: every entry that is
cached and not consumed is gone. In HALTED the tail does not change. -/
def Obligations.Doorbells : Prop :=
  (∀ (s : State) (rid : BitVec 16) (q : BitVec 12) (v : W32) (cause : BitVec 3), s.mgmtReady = true →
    s.pageRefused rid q.toNat true = some cause → exec (.doorbell rid q v) s = .next (s.pickReject cause rid).pumpAll) ∧
  (∀ (s : State) (rid : BitVec 16) (q : BitVec 12), (s.queue q.toNat).st = .unassigned →
    s.pageRefused rid q.toNat true = some causeUnassigned) ∧
  (∀ (s : State) (rid : BitVec 16) (q : BitVec 12) (v : W32), s.mgmtReady = true → s.pageRefused rid q.toNat true = none →
    (((s.queue q.toNat).st = .halted ∧ (s.haltsNow q.toNat = false ∨ (s.queue q.toNat).reason ≠ 0)) ∨
      ((s.queue q.toNat).st = .disabled ∧ (s.queue q.toNat).cfgOk = false)) →
    exec (.doorbell rid q v) s = .next s.pumpAll) ∧
  (∀ (s : State) (rid : BitVec 16) (q : BitVec 12) (v : W32) (r : BitVec 4), s.mgmtReady = true →
    s.pageRefused rid q.toNat true = none → (s.queue q.toNat).st = .halted → s.haltsNow q.toNat = true →
    (s.queue q.toNat).reason = 0 → ringBad (s.queue q.toNat) v = some r →
    exec (.doorbell rid q v) s = .next (s.modQueue q.toNat fun x => { x with reason := r }).pumpAll) ∧
  (∀ (s : State) (rid : BitVec 16) (q : BitVec 12) (v : W32), s.mgmtReady = true → s.pageRefused rid q.toNat true = none →
    (s.queue q.toNat).takesDoorbell = true →
    (fieldN v 17 14 ≠ 0 ∨ (s.queue q.toNat).size ≤ fieldN v 0 16 ∨
      (s.queue q.toNat).size < (s.queue q.toNat).d (field v 0 17)) →
    exec (.doorbell rid q v) s = .next (s.malformed q.toNat reasonDbRange none).pumpAll) ∧
  (∀ (s : State) (rid : BitVec 16) (q : BitVec 12) (v : W32), s.mgmtReady = true → s.pageRefused rid q.toNat true = none →
    (s.queue q.toNat).takesDoorbell = true → fieldN v 17 14 = 0 → fieldN v 0 16 < (s.queue q.toNat).size →
    (s.queue q.toNat).d (field v 0 17) ≤ (s.queue q.toNat).size →
    (s.queue q.toNat).d (field v 0 17) < (s.queue q.toNat).d (s.queue q.toNat).tailNow →
    exec (.doorbell rid q v) s = .next (s.malformed q.toNat reasonDbBackward none).pumpAll) ∧
  (∀ (s : State) (rid : BitVec 16) (q : BitVec 12) (v : W32), s.mgmtReady = true → s.pageRefused rid q.toNat true = none →
    (s.queue q.toNat).takesDoorbell = true → fieldN v 17 14 = 0 → fieldN v 0 16 < (s.queue q.toNat).size →
    (s.queue q.toNat).d (field v 0 17) ≤ (s.queue q.toNat).size →
    (s.queue q.toNat).d (s.queue q.toNat).tailNow ≤ (s.queue q.toNat).d (field v 0 17) →
    ∃ t u : State, exec (.doorbell rid q v) s = .next t ∧
      t = (u.traceInput (u.partOfQueue q.toNat) 1 [(q.toNat, 72), (fieldN v 31 1, 71), (fieldN v 0 17, 54)]).pumpAll ∧
      u = s.modQueue q.toNat fun x => { x with pendTail := some (field v 0 17), pendInval := x.pendInval || bit v 31 }) ∧
  (∀ (s : State) (q : BitVec 12) (t : BitVec 17), (s.queue q.toNat).st ≠ .halted → (s.queue q.toNat).st ≠ .unassigned →
    (s.queue q.toNat).pendTail = some t → ∃ u, exec (.pendingTailApply q) s = .next u ∧
      u.queue q.toNat = { s.queue q.toNat with
        tail := t, pendTail := none, pendInval := false
        cache := if (s.queue q.toNat).pendInval then [] else (s.queue q.toNat).cache
        fetching := if (s.queue q.toNat).pendInval then [] else (s.queue q.toNat).fetching } ∧
      (∀ k, k ≠ q.toNat → u.queue k = s.queue k) ∧ u.tab.heats = s.tab.heats ∧ u.tab.parts = s.tab.parts ∧
      u.hrt = s.hrt ∧ u.ports = s.ports ∧ u.tng = s.tng) ∧
  (∀ (s : State) (q : BitVec 12), ((s.queue q.toNat).st = .halted ∨ (s.queue q.toNat).pendTail = none) →
    exec (.pendingTailApply q) s = .next s)

/-- R155, R161, R165. A write of QP_CTRL by the page's owner. ENABLE: DISABLED becomes ACTIVE with a valid configuration, sets CFG_ERR
with an invalid one; DRAINING becomes ACTIVE; ACTIVE with ENABLE 0 discards what is cached and under validation and becomes
DRAINING, or DISABLED at once with no heat running, and head stays. HOLD is stored. INVAL discards what is cached and not
consumed. RESET zeroes head and tail in DISABLED, and takes an idle HALTED queue 0 to DISABLED, with HOLD and ENABLE 0 whatever the write
gives them (the order INVAL, HOLD, RESET, ENABLE of one write, and that such a queue takes no ENABLE of it, are the model's, log 47);
elsewhere it has no effect.

R155, R156. QP_RING_LO, QP_RING_HI and QP_RING_CFG are written in DISABLED only, and zero head and tail; in any other state a
write has no effect. The base is 64-byte aligned. The configuration is valid with LOG2SIZE from 4 to 16. -/
def Obligations.QueueControl : Prop :=
  (∀ (s : State) (rid : BitVec 16) (q : BitVec 12) (v : W32), s.mgmtReady = true → s.pageRefused rid q.toNat false = none →
     let x := s.queue q.toNat
     let ends (c : Instr) (y : Queue) : Prop := ∃ t u : State, exec c s = .next t ∧
       t = (u.traceInput (u.partOfQueue q.toNat) 5 [(q.toNat, 72), (fieldN v 0 4, 68)]).pumpAll ∧
       u.queue q.toNat = y ∧ (∀ k, k ≠ q.toNat → u.queue k = s.queue k) ∧ u.tab.heats = s.tab.heats ∧
       u.tab.parts = s.tab.parts ∧ u.tng = s.tng ∧ u.hrt = s.hrt ∧ u.ports = s.ports
     (bit v 0 = true → bit v 2 = false → bit v 3 = false → x.st = .disabled → x.cfgOk = true →
       ends (.queueEnable rid q v) { x with st := .active, enable := true, cfgErr := false, hold := bit v 1 }) ∧
     (bit v 0 = true → bit v 2 = false → bit v 3 = false → x.st = .disabled → x.cfgOk = false →
       ends (.queueEnable rid q v) { x with cfgErr := true, hold := bit v 1 }) ∧
     (bit v 0 = true → bit v 2 = false → bit v 3 = false → x.st = .draining →
       ends (.queueEnable rid q v) { x with st := .active, enable := true, cfgErr := false, hold := bit v 1 }) ∧
     (bit v 0 = false → bit v 2 = false → bit v 3 = false → x.st = .active →
       ends (.queueDisable rid q v) { x with
         st := if x.heats = [] then .disabled else .draining, reason := if x.heats = [] then 0 else x.reason
         enable := false, cache := [], fetching := [], under := [], ready := none, cmplWait := false, hold := bit v 1 }) ∧
     (bit v 0 = true → bit v 2 = false → bit v 3 = false → x.st = .active →
       ends (.queueHold rid q v) { x with hold := bit v 1 }) ∧
     (bit v 0 = true → bit v 2 = false → bit v 3 = true → x.st = .active →
       ends (.queueInval rid q v) { x with cache := [], fetching := [], hold := bit v 1 }) ∧
     (bit v 0 = false → bit v 2 = true → bit v 3 = false → x.st = .disabled →
       ends (.queueReset rid q v) { x with head := 0, tail := 0, pendTail := none, pendInval := false, hold := bit v 1 }) ∧
     (bit v 2 = true → bit v 3 = false → x.st = .halted → q = 0 → x.idle = true →
       ends (.queueReset rid q v) { x with
         st := .disabled, enable := false, head := 0, tail := 0, pendTail := none, pendInval := false, hold := false, reason := 0 }) ∧
     (bit v 0 = false → bit v 2 = true → bit v 3 = false → x.st = .halted → q ≠ 0 →
       ends (.queueReset rid q v) { x with hold := bit v 1 })) ∧
  (∀ (s : State) (rid : BitVec 16) (q : BitVec 12) (r : RingReg) (v : W32), s.mgmtReady = true →
     s.pageRefused rid q.toNat false = none →
     ((s.queue q.toNat).st ≠ .disabled → exec (.ringConfigWrite rid q r v) s = .next s.pumpAll) ∧
     ((s.queue q.toNat).st = .disabled → ∃ t u : State, exec (.ringConfigWrite rid q r v) s = .next t ∧ t = u.pumpAll ∧
       (∃ y : Queue, u = s.modQueue q.toNat (fun _ => y) ∧ y.head = 0 ∧ y.tail = 0 ∧ y.pendTail = none ∧ y.st = .disabled ∧
         match r with
         | .lo => y.base = assemble 64 [(fieldN (s.queue q.toNat).base 32 32, 32), (fieldN v 6 26, 6)] ∧
             y.log2 = (s.queue q.toNat).log2
         | .hi => y.base = assemble 64 [(v.toNat, 32), (fieldN (s.queue q.toNat).base 0 32, 0)] ∧
             y.log2 = (s.queue q.toNat).log2
         | .cfg => y.log2 = field v 0 5 ∧ y.base = (s.queue q.toNat).base))) ∧
  (∀ y : Queue, y.cfgOk = true ↔ 4 ≤ y.log2.toNat ∧ y.log2.toNat ≤ 16)

/-- R154, R161, R396. A write to a queue page that is refused (not the owner's, of an UNASSIGNED queue, or during a replay of the
partition) has no effect but its count, cause and requester in TNG_DB_REJECT and TNG_DB_LAST.

R365, R366. A 32-bit write of the pick port to a queue page is the page's row: at +0x00 the doorbell, at +0x04 QP_CTRL, at +0x10
to +0x18 the ring registers.

R154, R365, R396. A read of the pick port: the steward's requester reads any queue page, an owner its own; the answer holds the
registers that the byte enables name, 0 elsewhere. Any other read is rejected with the lowest cause and reads 0. -/
def Obligations.PickPort : Prop :=
  (∀ (s : State) (rid : BitVec 16) (q : BitVec 12) (v : W32) (r : RingReg) (cause : BitVec 3), s.mgmtReady = true →
     s.pageRefused rid q.toNat false = some cause → ∀ c ∈ [Instr.queueEnable rid q v, .queueDisable rid q v,
       .queueHold rid q v, .queueInval rid q v, .queueReset rid q v, .ringConfigWrite rid q r v],
       exec c s = .next ({ s with tng := { s.tng with
         dbReject := satInc s.tng.dbReject, dbValid := true, dbCause := cause, dbRid := rid } }).pumpAll) ∧
  (∀ (s : State) (rid : BitVec 16) (q : BitVec 12) (v : W32),
     exec (.registerWrite (.pick (BitVec.ofNat 17 (8 * q.toNat)) 0x0F rid (v.setWidth 64))) s = exec (.doorbell rid q v) s ∧
     exec (.registerWrite (.pick (BitVec.ofNat 17 (8 * q.toNat)) 0xF0 rid (v.setWidth 64 <<< 32))) s =
       exec (.queueEnable rid q v) s ∧
     exec (.registerWrite (.pick (BitVec.ofNat 17 (8 * q.toNat + 2)) 0x0F rid (v.setWidth 64))) s =
       exec (.ringConfigWrite rid q .lo v) s ∧
     exec (.registerWrite (.pick (BitVec.ofNat 17 (8 * q.toNat + 2)) 0xF0 rid (v.setWidth 64 <<< 32))) s =
       exec (.ringConfigWrite rid q .hi v) s ∧
     exec (.registerWrite (.pick (BitVec.ofNat 17 (8 * q.toNat + 3)) 0x0F rid (v.setWidth 64))) s =
       exec (.ringConfigWrite rid q .cfg v) s) ∧
  (∀ (s : State) (rid : BitVec 16) (q : BitVec 12) (k : Fin 4), s.mgmtReady = true →
    (rid = s.boot.cfg.stewardRid ∨ ((s.queue q.toNat).st ≠ .unassigned ∧ s.ownsQueue rid q.toNat = true)) →
    exec (.pickPortRead (BitVec.ofNat 17 (8 * q.toNat + k.val)) 0xFF rid) s = .next { s with ctl := { s.ctl with
      pickData := assemble 64 [(((s.queue q.toNat).read (8 * k.val + 4)).toNat, 32),
        (((s.queue q.toNat).read (8 * k.val)).toNat, 0)] } }) ∧
  (∀ (s : State) (rid : BitVec 16) (q : BitVec 12) (k : Fin 4) (be : Byte), s.mgmtReady = true → rid ≠ s.boot.cfg.stewardRid →
    ((s.queue q.toNat).st = .unassigned ∨ s.ownsQueue rid q.toNat = false) →
    exec (.pickPortRead (BitVec.ofNat 17 (8 * q.toNat + k.val)) be rid) s = .next { s with
      tng := { s.tng with dbReject := satInc s.tng.dbReject, dbValid := true, dbCause := causeOwner, dbRid := rid }
      ctl := { s.ctl with pickData := 0 } })

/-- R174, R162. A malformed entry of an ACTIVE partition's queue halts the partition: every queue of it is HALTED with what was cached
or under validation discarded and head kept, its queue records the reason (and another of its queues
its own, where its next chain breaks a rule as well, R175; the model's choice which that is, log 66), a quench record is captured, and no queue of another
partition changes. On queue 0 it halts that queue alone. -/
def Obligations.MalformedHalts : Prop :=
  (∀ (s : State) (q p : Nat) (reason : BitVec 4), s.partOfQueue q = some p → (s.part p).state = .active →
    let t := s.malformed q reason none
    (t.part p).state = .halted ∧ bit t.tng.event 0 = true ∧
    (s.seq.reload = false → s.seq.fatal = false → t.quench.valid = true) ∧ t.tab.heats = s.tab.heats ∧
    (∀ k ∈ (s.part p).queues, (t.queue k).st = .halted ∧ (t.queue k).cache = [] ∧ (t.queue k).under = [] ∧
      (t.queue k).ready = none ∧ (t.queue k).head = (s.queue k).head ∧
      (t.queue k).reason = if k = q then reason
        else if (s.queue k).st = .active ∧ (s.queue k).ready = none then
          ((s.foundBad k 17 (s.queue k).under).map Prod.fst).getD (s.queue k).reason
        else (s.queue k).reason) ∧
    (∀ k, k ∉ (s.part p).queues → k ≠ q → t.queue k = s.queue k) ∧ (∀ j, j ≠ p → t.part j = s.part j)) ∧
  (∀ (s : State) (reason : BitVec 4), s.partOfQueue 0 = none →
    let t := s.malformed 0 reason none
    (t.queue 0).st = .halted ∧ (t.queue 0).reason = reason ∧ (t.queue 0).head = (s.queue 0).head ∧
    (∀ k, k ≠ 0 → t.queue k = s.queue k) ∧ t.tab.parts = s.tab.parts ∧ t.tab.heats = s.tab.heats ∧ t.quench = s.quench)

/-- R163, R164, R173. From the ring to validation: with a translation and a memory tag at hand the first entry that is not cached is
fetched, and at most 8 are cached or on their way; without a translation it is asked for; an ACTIVE queue's cached entry at head leaves the cache as it is taken under validation, and one
that breaks the chain's structure is a malformed entry CHAIN; a whole chain that fails a check is a malformed entry with that
check's reason; one that passes every check waits for dispatch with CMPL_ADDR translated. -/
def Obligations.FetchAndValidate : Prop :=
  (∀ (s : State) (q : BitVec 12), (s.queue q.toNat).toFetch = none → exec (.descriptorFetch q) s = .next s) ∧
  (∀ (s : State) (q : BitVec 12) (i : BitVec 17) (e : XEnt), (s.queue q.toNat).toFetch = some i →
    let va := ((s.queue q.toNat).base.toNat + 64 * fieldN i 0 16) % 2 ^ 64
    s.xlateHit (s.spaceOf q.toNat) (va / 4096) false = some e →
    ((s.cacheUse e).issueMem { write := false, line := e.phys va / 64, space := s.spaceOf q.toNat, vpage := va / 4096
                               size := e.size, owner := .fetch q.toNat i.toNat }).isSome = true →
    ∃ t, exec (.descriptorFetch q) s = .next t ∧ i.toNat ∈ (t.queue q.toNat).fetching ∧
      (t.queue q.toNat).cache = (s.queue q.toNat).cache ∧
      (t.queue q.toNat).cache.length + (t.queue q.toNat).fetching.length ≤ 8 ∧ (t.queue q.toNat).head = (s.queue q.toNat).head ∧
      (∀ k, k ≠ q.toNat → t.queue k = s.queue k) ∧ t.tab.heats = s.tab.heats ∧ t.hrt = s.hrt) ∧
  (∀ (s : State) (q : BitVec 12) (i : BitVec 17), (s.queue q.toNat).toFetch = some i →
    s.xlateHit (s.spaceOf q.toNat) (((s.queue q.toNat).base.toNat + 64 * fieldN i 0 16) % 2 ^ 64 / 4096) false = none →
    (∀ e ∈ s.wld.xl, ∀ r, e.2 = some r → r.owner ≠ .fetch q.toNat i.toNat) → ∀ k t,
    s.askXlate { page := false, space := s.spaceOf q.toNat
                 vpage := ((s.queue q.toNat).base.toNat + 64 * fieldN i 0 16) % 2 ^ 64 / 4096, write := false
                 owner := .fetch q.toNat i.toNat } = some (k, t) →
    exec (.descriptorFetch q) s = .next t) ∧
  (∀ (s : State) (q : BitVec 12), ((s.queue q.toNat).st ≠ .active ∨ (s.queue q.toNat).ready.isSome = true) →
    exec (.chainValidate q) s = .next s.pumpAll) ∧
  (∀ (s : State) (q : BitVec 12) (e : Nat × Payload), (s.queue q.toNat).st = .active → (s.queue q.toNat).ready = none →
    (s.queue q.toNat).under = [] → (s.queue q.toNat).hold = false →
    ((s.queue q.toNat).cache.find? fun e => e.1 = ((s.queue q.toNat).ahead 0).toNat) = some e → entFirst e.2 = false →
    exec (.chainValidate q) s = .next (s.malformed q.toNat reasonChain (some e.2)).pumpAll) ∧
  (∀ (s : State) (q : BitVec 12) (r : BitVec 4), (s.queue q.toNat).st = .active → (s.queue q.toNat).ready = none →
    (s.queue q.toNat).whole = true →
    validateChain (q.toNat = 0) (s.chainScope q.toNat).1 (s.chainScope q.toNat).2 (s.queue q.toNat).under = .error r →
    exec (.chainValidate q) s = .next (s.malformed q.toNat r (s.queue q.toNat).under.head?).pumpAll) ∧
  (∀ (s : State) (q : BitVec 12) (d : Desc) (w : Words) (e : XEnt), (s.queue q.toNat).st = .active →
    (s.queue q.toNat).ready = none → (s.queue q.toNat).whole = true →
    validateChain (q.toNat = 0) (s.chainScope q.toNat).1 (s.chainScope q.toNat).2 (s.queue q.toNat).under = .ok (d, w) →
    cmplOk w.cmpl = true → s.xlateHit (s.spaceOf q.toNat) (w.cmpl.toNat / 4096) true = some e →
    ∃ t u : State, exec (.chainValidate q) s = .next t ∧ t = u.pumpAll ∧ u.queue q.toNat = { s.queue q.toNat with
      ready := some (d, w, (s.queue q.toNat).under.length), under := [], cmplWait := false, cmplPa := e.phys w.cmpl.toNat
      cmplPage := (w.cmpl.toNat / 4096, e.size) } ∧
      (∀ k, k ≠ q.toNat → u.queue k = s.queue k) ∧ u.tab.heats = s.tab.heats ∧ u.hrt = s.hrt ∧ u.tng = s.tng)

/-! ### Dispatch of each kind, and heats of the steward (01, 02, 07, 13) -/

/-- R52, R164, R176, R288, R309. What a dispatch does to the queue and its context: the context holds the heat of the chain, with the
queue, the head index, the partition's key, generation and class, and the watchdog armed with the partition's period; head
passes the chain; the heat is the queue's; queue 0 takes one of the 16 contexts kept for it, and no other queue does. Every
other context, and every register, slot, route and port, is as it was.

R13, R52, R166. Where a dispatch row does not dispatch: the chain's islands are gated and it may otherwise dispatch: they are
woken and the chain waits; another queue has the next grant, or the queue's next chain is of another kind: nothing changes. -/
def Obligations.Dispatch : Prop :=
  (∀ (s u : State) (q n c : Nat) (k : Kind) (d : Desc) (w : Words), s.turn q k d w n c u →
     (∃ h, u.heat c = some h ∧ h.id.q = q ∧ h.id.idx = (s.queue q).head ∧ h.id.d = d ∧ h.id.w = w ∧
       h.id.part = s.partOfQueue q ∧ h.id.order = s.tng.order ∧ h.live = true ∧ h.run.wdogStopped = false ∧
       (∀ p, s.partOfQueue q = some p → h.id.key = (s.part p).key ∧ h.id.gen = (s.part p).gen ∧ h.id.cls = (s.part p).cls ∧
         h.run.wdog = s.time.now + (s.part p).wdogUs.toNat * usPs)) ∧
     (u.queue q).head = (s.queue q).ahead n ∧ (u.queue q).ready = none ∧ (u.queue q).heats = (s.queue q).heats ++ [c] ∧
     (u.queue q).st = .active ∧ u.tng.order = s.tng.order + 1 ∧ (q = 0 → 4080 ≤ c ∧ c < 4096 ∧ s.heat c = none) ∧ (q ≠ 0 → c < 4080) ∧
     (∀ j, j ≠ c → u.heat j = s.heat j) ∧ u.time = s.time ∧ u.ctl = s.ctl ∧ u.hrt = s.hrt ∧ u.route = s.route ∧
     u.ports = s.ports ∧ u.wld = s.wld ∧ u.power = s.power ∧ u.tab.parts = s.tab.parts ∧ u.tab.plans = s.tab.plans) ∧
  (∀ (s : State) (q n : Nat) (k : Kind) (d : Desc) (w : Words) (sel : Words → Bool), (s.queue q).st = .active →
    (s.queue q).ready = some (d, w, n) → d.kind = k → sel w = true → s.bounded q d w = true → s.powered k = false →
    s.dispatch q k sel = s.wakeFor k ∧ (s.wakeFor k).tab = s.tab ∧ (s.wakeFor k).power.on = s.power.on ∧
      (s.wakeFor k).time = s.time) ∧
  (∀ (s : State) (q n : Nat) (k : Kind) (d : Desc) (w : Words) (sel : Words → Bool), (s.queue q).ready = some (d, w, n) →
    (d.kind ≠ k ∨ sel w = false) → s.dispatch q k sel = s) ∧
  (∀ (s g : State) (q r : Nat) (k : Kind) (sel : Words → Bool), s.powered k = true → s.nextGrant = some (r, g) → r ≠ q →
    s.dispatch q k sel = s) ∧
  (∀ (s : State) (q : Nat) (k : Kind) (sel : Words → Bool), (s.queue q).st ≠ .active → s.dispatch q k sel = s)

/-- R19, R34, R38 to R45, R143, R148, R263. Each row of a group kind dispatches the queue's chain of that kind and of no other:
the heat takes its context and begins over its plan.

R26 to R28, R252, R413. How a group heat begins: with no loaded plan of its ID, or one that does not serve its kind, it ends with
PLAN_INVALID; where its plan has lost a circuit that it needs, with PORT_LOST; where a check that depends on the plan fails,
with MALFORMED; otherwise it holds the plan's digest, its rank, its group's size and the segments of its program, and it has not
become another heat.

R26, R27, R34, R190, R413. Each group kind runs: where the plan of the chain is loaded, serves the kind, has lost no circuit that the
heat needs, passes the checks made at dispatch, names no endpoint outside the partition's bitmap, and STEP_BARRIER is clean where
a ROTATE uses it, the row dispatches the heat, which holds the plan's digest, its rank, its group's size and the segments of its
program; a heat with PIN pins first, and one whose plan entry lacks an endpoint reads the rank map. -/
def Obligations.GroupHeats : Prop :=
  (∀ (s u : State) (q : BitVec 12) (n c : Nat) (d : Desc) (w : Words),
     let t := (u.beginGroup c (u.partOfQueue q.toNat) d w).afterStart c
     (s.turn q.toNat .allreduce d w n c u → exec (.allreduce q) s = .next t) ∧
     (s.turn q.toNat .reduceScatter d w n c u → exec (.reduceScatter q) s = .next t) ∧
     (s.turn q.toNat .allgather d w n c u → exec (.allgather q) s = .next t) ∧
     (s.turn q.toNat .reduce d w n c u → exec (.reduce q) s = .next t) ∧
     (s.turn q.toNat .broadcast d w n c u → exec (.broadcast q) s = .next t) ∧
     (s.turn q.toNat .alltoall d w n c u → exec (.alltoall q) s = .next t) ∧
     (s.turn q.toNat .rotate d w n c u → exec (.rotate q) s = .next t) ∧
     (s.turn q.toNat .topk d w n c u → exec (.topk q) s = .next t) ∧
     (s.turn q.toNat .softmax d w n c u → exec (.softmaxMerge q) s = .next t) ∧
     (s.turn q.toNat .barrier d w n c u → exec (.barrier q) s = .next t) ∧
     (s.turn q.toNat .send d w n c u → exec (.send q) s = .next t) ∧
     (s.turn q.toNat .recv d w n c u → exec (.recv q) s = .next t) ∧
     (s.turn q.toNat .partialWrite d w n c u → exec (.partialWrite q) s = .next t)) ∧
  (∀ (u : State) (c part : Nat) (h : Heat), u.heat c = some h → h.id.part = some part → u.planKey part h.id.d.plan = none →
    u.beginGroup c (some part) h.id.d h.id.w = u.endHeat c .planInvalid) ∧
  (∀ (u : State) (c part k : Nat) (h : Heat) (p : Plan), u.heat c = some h → h.id.part = some part →
    u.planKey part h.id.d.plan = some k → u.plan k = some p → p.serves h.id.d.kind = false →
    u.beginGroup c (some part) h.id.d h.id.w = u.endHeat c .planInvalid) ∧
  (∀ (u : State) (c part k : Nat) (h : Heat) (p : Plan), u.heat c = some h → h.id.part = some part →
    u.planKey part h.id.d.plan = some k → u.plan k = some p → p.serves h.id.d.kind = true →
    atDispatch p h.id.d h.id.w (u.part part).weldPorts = false → u.beginGroup c (some part) h.id.d h.id.w = u.endHeat c .malformed) ∧
  (∀ (u : State) (c part k : Nat) (h : Heat) (p : Plan), u.heat c = some h → h.id.part = some part →
    u.planKey part h.id.d.plan = some k → u.plan k = some p → p.serves h.id.d.kind = true →
    atDispatch p h.id.d h.id.w (u.part part).weldPorts = true → needsLost p h.id.d h.id.w = true →
    u.beginGroup c (some part) h.id.d h.id.w = u.endHeat c .portLost) ∧
  (∀ (u : State) (c part k : Nat) (h : Heat) (p : Plan), u.heat c = some h → h.id.part = some part → h.live = true →
    u.planKey part h.id.d.plan = some k → u.plan k = some p → p.serves h.id.d.kind = true →
    atDispatch p h.id.d h.id.w (u.part part).weldPorts = true → needsLost p h.id.d h.id.w = false → h.id.d.kind ≠ .rotate →
    ∃ h', (u.beginGroup c (some part) h.id.d h.id.w).heat c = some h' ∧ h'.id = h.id ∧ h'.grp.planKey = k ∧
      h'.grp.digest = p.digest ∧ h'.grp.rank = p.rank ∧ h'.grp.size = p.size ∧
      h'.dp.segs = (progForms p h.id.d h.id.w).segs) ∧
  (∀ (s u : State) (q : BitVec 12) (n c part k : Nat) (d : Desc) (w : Words) (p : Plan), u.partOfQueue q.toNat = some part →
     u.planKey part d.plan = some k → u.plan k = some p → p.serves d.kind = true → atDispatch p d w (u.part part).weldPorts = true →
     needsLost p d w = false → (∀ e ∈ p.eps, u.inBitmap part e.2 = true) →
     (d.kind = .rotate → bit w.w6 32 = true → (u.bar (fieldN w.w6 18 14)).isClean = true) →
     ∀ e ∈ [(Kind.allreduce, Instr.allreduce q), (.reduceScatter, .reduceScatter q), (.allgather, .allgather q), (.reduce, .reduce q),
       (.broadcast, .broadcast q), (.alltoall, .alltoall q), (.rotate, .rotate q), (.topk, .topk q), (.softmax, .softmaxMerge q),
       (.barrier, .barrier q), (.send, .send q), (.recv, .recv q), (.partialWrite, .partialWrite q)],
     s.turn q.toNat e.1 d w n c u →
     ∃ (v : State) (h : Heat), exec e.2 s = .next (v.afterStart c) ∧ v.heat c = some h ∧ h.id.q = q.toNat ∧ h.id.d = d ∧ h.id.w = w ∧
       h.id.part = some part ∧ h.grp.planKey = k ∧ h.grp.digest = p.digest ∧ h.grp.rank = p.rank ∧ h.grp.size = p.size ∧
       h.dp.segs = (progForms p d w).segs ∧ (d.pin = true → h.run.phase = .pin) ∧
       (d.pin = false → ((progForms p d w).peers.any fun r => !(p.eps.any fun x => x.1 = r)) = true → h.run.phase = .map))

/-- R26, R28, R48, R121, R124. The kinds without a group: NOP ends with OK; PLAN_LOAD of an ID that is in use ends with PLAN_INVALID
and otherwise reads the 64-byte header at SRC; PLAN_UNLOAD takes the plan from later heats, or ends with PLAN_INVALID where none
is loaded; PRELOAD_SLOT waits for its slot, by way of pinning where PIN is 1; DRAIN_SLOT waits for its slot first, since the pages that it pins are known then.

R28. The end of a PLAN_UNLOAD. While an earlier heat of its queue that runs or ran over the plan has not written its record, it
waits. Then the plan is unloaded, its ID is free, the circuits that this rank reserved for it are released, and the heat has ended with
OK; with no plan left to take it ends with OK. No other heat and no other plan is touched. -/
def Obligations.LocalHeats : Prop :=
  (∀ (s u : State) (q : BitVec 12) (n c part : Nat) (d : Desc) (w : Words), u.partOfQueue q.toNat = some part →
     (s.turn q.toNat .nop d w n c u → exec (.nop q) s = .next ((u.endHeat c .ok).afterStart c)) ∧
     (s.turn q.toNat .planLoad d w n c u → (∃ e ∈ u.tab.plans, ∃ p, e.2 = some p ∧ p.part = part ∧ p.id = d.plan) →
       exec (.planLoad q) s = .next ((u.endHeat c .planInvalid).afterStart c)) ∧
     (s.turn q.toNat .planLoad d w n c u → (∀ e ∈ u.tab.plans, ∀ p, e.2 = some p → ¬ (p.part = part ∧ p.id = d.plan)) →
       ∃ (v : State) (h : Heat), exec (.planLoad q) s = .next (State.afterStart v c) ∧ v.heat c = some h ∧
         h.dp.streams = [{ id := .plan, write := false, place := .mem w.src.toNat [], esize := 1, total := 64 }] ∧
         h.run.phase = if d.pin then .pin else .run) ∧
     (s.turn q.toNat .planUnload d w n c u → u.planKey part d.plan = none →
       exec (.planUnload q) s = .next ((u.endHeat c .planInvalid).afterStart c)) ∧
     (∀ k, s.turn q.toNat .planUnload d w n c u → u.planKey part d.plan = some k →
       ∃ v : State, exec (.planUnload q) s = .next (State.afterStart v c) ∧
         v.plan k = (u.plan k).map (fun p => { p with leaving := some c }) ∧ v.hrt = u.hrt ∧ v.route = u.route) ∧
     (s.turn q.toNat .preload d w n c u → ∃ (v : State) (h : Heat), exec (.preloadSlot q) s = .next (State.afterStart v c) ∧ v.heat c = some h ∧
       h.run.phase = (if d.pin then .pin else .slot) ∧ v.hrt = u.hrt) ∧
     (s.turn q.toNat .drainSlot d w n c u → ∃ (v : State) (h : Heat), exec (.drainSlot q) s = .next (State.afterStart v c) ∧ v.heat c = some h ∧
       h.run.phase = .slot ∧ v.hrt = u.hrt)) ∧
  (∀ (s : State) (c k : Nat) (h : Heat) (p : Plan), s.heat c = some h → s.leavingPlan c = some (k, p) →
    ((∃ x ∈ (s.queue h.id.q).heats, x ≠ c ∧ ∃ y, s.heat x = some y ∧ y.id.order < h.id.order ∧ y.ranOver p = true) →
      s.unloadStep c = s) ∧
    (h.live = true → s.plan k = some p →
      (∀ x ∈ (s.queue h.id.q).heats, x ≠ c → ∀ y, s.heat x = some y → y.id.order < h.id.order → y.ranOver p = false) →
      let t := s.unloadStep c
      t.plan k = none ∧ (∀ j, j ≠ k → t.plan j = s.plan j) ∧
        (∀ i ∈ p.mine, ∀ e, (p.circs.find? fun e => e.1 = i) = some e → t.circ e.2 = none) ∧
        (∃ h', t.heat c = some h' ∧ h'.id = h.id ∧ h'.run.phase = .ended .ok) ∧ (∀ j, j ≠ c → t.heat j = s.heat j) ∧
        t.tab.queues = s.tab.queues)) ∧
  (∀ (s : State) (c : Nat) (h : Heat), s.heat c = some h → s.leavingPlan c = none → s.unloadStep c = s.endHeat c .ok) ∧
  (∀ (s : State) (c : Nat), s.kindStep c .planUnload = s.unloadStep c)

/-- R292, R338. PARTITION_CREATE and PARTITION_UPDATE: refused with MALFORMED where a check fails, nothing else changed; waiting on a
recently released key; otherwise the 8,192 bytes of the endpoint bitmap are read from SRC. With the private TAP chain open
every one is refused.

R289, R292. A PARTITION_CREATE whose bitmap has been read and whose checks pass again: the partition is ACTIVE with the chain's
key, generation, class, address space, requester, ranges and bitmap, its queues are DISABLED at their reset values, the diagnostic capture has
ended with flag words of 0 where it ran, and a PARTITION_UPDATE replaces the bitmap alone. No other partition changes. -/
def Obligations.PartitionCreate : Prop :=
  (∀ (s u : State) (n c : Nat) (d : Desc) (w : Words), s.turn 0 .partCreate d w n c u →
    u.behindSteward c .partCreate w = false → ∀ cmd, (cmd = .partitionCreate ∧ bit w.w6 32 = false ∨
      cmd = .partitionUpdate ∧ bit w.w6 32 = true) →
    (u.createCheck w = .refuse → exec cmd s = .next (((u.runs c).endHeat c .malformed).afterStart c)) ∧
    (∀ t, u.createCheck w = .wait t → exec cmd s = .next (((u.runs c).waits c t).afterStart c)) ∧
    (u.createCheck w = .go → ∃ (v : State) (h : Heat), exec cmd s = .next (State.afterStart v c) ∧ v.heat c = some h ∧
      h.dp.streams = [wordStream .src false w.src 8192] ∧ v.tab.parts = u.tab.parts)) ∧
  (∀ (s : State) (w : Words), s.prov.tapOpen = true → s.createCheck w = .refuse) ∧
  (∀ (s u : State) (n c : Nat) (d : Desc) (w : Words), s.turn 0 .partCreate d w n c u →
    u.behindSteward c .partCreate w = true → bit w.w6 32 = false → ∃ (v : State) (h : Heat), exec .partitionCreate s = .next (State.afterStart v c) ∧
      v.heat c = some h ∧ h.run.phase = .queued) ∧
  (∀ (s : State) (c : Nat) (h : Heat) (bm : List Nat), s.heat c = some h → s.createCheck h.id.w = .go →
     let i := h.id.w.partIdx
     let t := s.createApply c h bm
     (bit h.id.w.w6 32 = false → t.part i = createPart h.id.w bm ∧ (t.part i).state = .active ∧
       (∀ q ∈ (createPart h.id.w bm).queues, t.queue q = { Queue.reset with st := .disabled }) ∧
       (∀ q, q ∉ (createPart h.id.w bm).queues → t.queue q = s.queue q) ∧ t.hrt.diag = false ∧
       (s.hrt.diag = true → t.hrt.flagWords = []) ∧ (s.hrt.diag = false → t.hrt.flagWords = s.hrt.flagWords)) ∧
     (bit h.id.w.w6 32 = true → t.part i = { s.part i with bitmap := bm } ∧ t.tab.queues = s.tab.queues) ∧
     (∀ j, j ≠ i → t.part j = s.part j))

/-- R298 to R300. PARTITION_RESET and PARTITION_RELEASE: of a FREE partition MALFORMED; a reset within 10 ms of the last one's end
waits; a release does not wait for that spacing (the model's reading, log 53); otherwise steps 1 to 3 of R298 begin.

R298, R299, R301. What a reset or a release leaves when it begins, while the partition has a heat: the partition is RESETTING or
RELEASING; its queues are HALTED and hold no entry; every running heat of it has ended, with PARTITION_RESET, or with ABORT_TIMEOUT
where its watchdog is due in the same nanosecond (the model's clock, log 83); where no watchdog is due and a sequencer runs, the quench
record tells of the partition with the cause PARTITION_RESET or RELEASE. With no heat of the partition left, and a sequencer running
(log 83), the reset is over at once.

R298, R299. The end of a reset, once the partition has no heat: after a reset it is ACTIVE with GEN + 1, else as it was, and its queues
are DISABLED with head and tail 0 and the ring configuration kept; after a release it is FREE, its queues are at their reset
values and its key is remembered. It has no slot, no plan and no circuit of its key any more, and the steward's heat has ended with OK. -/
def Obligations.PartitionReset : Prop :=
  (∀ (s u : State) (n c : Nat) (d : Desc) (w : Words), s.turn 0 .partReset d w n c u →
     u.behindSteward c .partReset w = false →
     ((u.part w.partIdx).state = .free → bit w.w6 8 = false →
       exec .partitionReset s = .next (((u.runs c).endHeat c .malformed).afterStart c)) ∧
     ((u.part w.partIdx).state = .free → bit w.w6 8 = true →
       exec .partitionRelease s = .next (((u.runs c).endHeat c .malformed).afterStart c)) ∧
     (∀ t, (u.part w.partIdx).state ≠ .free → bit w.w6 8 = false → (u.part w.partIdx).lastReset = some t →
       u.time.now < t + 10 * msPs → exec .partitionReset s = .next (((u.runs c).waits c (t + 10 * msPs)).afterStart c)) ∧
     ((u.part w.partIdx).state ≠ .free → bit w.w6 8 = false →
       (∀ t, (u.part w.partIdx).lastReset = some t → t + 10 * msPs ≤ u.time.now) →
       exec .partitionReset s = .next (((u.runs c).resetBegin c w.partIdx false).afterStart c)) ∧
     ((u.part w.partIdx).state ≠ .free → bit w.w6 8 = true →
       exec .partitionRelease s = .next (((u.runs c).resetBegin c w.partIdx true).afterStart c))) ∧
  (∀ (s : State) (c p : Nat) (rel : Bool), (∃ k h, s.heat k = some h ∧ h.id.part = some p) →
    let t := s.resetBegin c p rel
    (t.part p).state = (if rel then .releasing else .resetting) ∧
      (∀ q ∈ (s.part p).queues, (t.queue q).st = .halted ∧ (t.queue q).cache = [] ∧ (t.queue q).under = [] ∧
        (t.queue q).ready = none ∧ (t.queue q).heats = (s.queue q).heats) ∧
      (∀ q, q ∉ (s.part p).queues → t.queue q = s.queue q) ∧
      (∀ k h, s.heat k = some h → h.live = true → h.id.part = some p → ∃ h', t.heat k = some h' ∧ h'.id = h.id ∧
        ((∀ e ∈ s.runningOf (some p) [], e.1 = k → s.expiresNow e.2 = false) → h'.run.phase = .ended .partitionReset) ∧
        ((∀ e ∈ s.runningOf (some p) [], e.1 = k → s.expiresNow e.2 = true) → h'.run.phase = .ended .abortTimeout)) ∧
      (s.seqStopped = false → p < 256 → (∀ e ∈ s.runningOf (some p) [], s.expiresNow e.2 = false) →
        t.quench.valid = true ∧ t.quench.unread = true ∧ t.quench.seq = s.quench.seq + 1 ∧
        (t.quench.record.head?.map fun e => (fieldN e 80 4, fieldN e 72 8)) =
          some (if rel then causeRelease else causePartReset, p))) ∧
  (∀ (s : State) (c p : Nat) (h : Heat) (rel : Bool), s.heat c = some h → h.live = true → h.run.phase ≠ .queued →
    h.id.d.kind = .partReset → h.id.w.partIdx = p → s.seqStopped = false → (∀ e ∈ s.heatList, e.2.id.part ≠ some p) →
    (∀ e ∈ s.heatList, e.1 ≠ c → e.2.id.d.kind ≠ .partReset ∨ e.2.id.w.partIdx ≠ p) →
    let t := s.resetBegin c p rel
    (∃ h', t.heat c = some h' ∧ h'.id = h.id ∧ h'.run.phase = .ended .ok) ∧
      (rel = false → (t.part p).state = .active ∧ (t.part p).gen = (s.part p).gen + 1) ∧ (rel = true → t.part p = Part.free)) ∧
  (∀ (s : State) (c p : Nat) (h : Heat), s.heat c = some h → h.live = true →
     (∀ rel, let t := s.resetFinish c p rel
       (∀ k < 65536, t.slot p k = none) ∧ (∀ k x, t.plan k = some x → x.part ≠ p) ∧
         (∀ i e, t.circ i = some e → e.key ≠ (s.part p).key) ∧ (∀ q, q ≠ p → t.part q = s.part q) ∧
         ∃ h', t.heat c = some h' ∧ h'.id = h.id ∧ h'.run.phase = .ended .ok) ∧
     (let t := s.resetFinish c p false
      t.part p = { s.part p with state := .active, gen := (s.part p).gen + 1, lastReset := some s.time.now, haltAt := none } ∧
        (∀ q ∈ (s.part p).queues, (t.queue q).st = .disabled ∧ (t.queue q).head = 0 ∧ (t.queue q).tail = 0 ∧
          (t.queue q).base = (s.queue q).base ∧ (t.queue q).log2 = (s.queue q).log2 ∧ (t.queue q).hold = false) ∧
        (∀ q, q ∉ (s.part p).queues → t.queue q = s.queue q)) ∧
     (let t := s.resetFinish c p true
      t.part p = Part.free ∧ (∀ q ∈ (s.part p).queues, t.queue q = Queue.reset) ∧
        (∀ q, q ∉ (s.part p).queues → t.queue q = s.queue q) ∧ ((s.part p).key, s.time.now) ∈ t.tab.released))

/-- R293. KEY_SET writes the key's bit, SET, in the key tables of the ports it names, and no other bit.

R294, R295. QUOTA_SET sets all seven limits at once, and the crash buffer where it says so; where a limit is below the present
use, or a sum above the engine's total, or the partition is FREE, it changes nothing and ends with QUOTA_EXCEEDED.

R294, R295. When a QUOTA_SET is applied: the partition is not FREE, and for each of the seven limits, the limit with those of the other
partitions is at most the engine's total, and the present use at most the limit.

R302. PLAN_REVOKE of a FREE partition, or with ALL = 0 of a plan that is not loaded, ends with MALFORMED; otherwise it revokes every
loaded plan of the partition that it names, or with ALL = 1 each of them, and ends with OK. A revoked plan's running heats have ended with
PLAN_INVALID and the plan is unloaded, its circuits with it; no other heat and no other plan is touched. -/
def Obligations.KeysQuotasPlans : Prop :=
  (∀ (s u : State) (n c : Nat) (d : Desc) (w : Words), s.turn 0 .keySet d w n c u →
     ∃ ks, exec .keySet s = .next ((({ u.runs c with route := { u.route with keys := ks } } : State).endHeat c .ok).afterStart c) ∧
       ∀ p < 40, ∀ k < 4096, Tbl.get false ks (p * 4096 + k) =
         if k = fieldN w.w6 0 12 ∧ bit w.w7 p = true then bit w.w6 16 else Tbl.get false u.route.keys (p * 4096 + k)) ∧
  (∀ (s u : State) (n c : Nat) (d : Desc) (w : Words), s.turn 0 .quotaSet d w n c u →
     u.behindSteward c .quotaSet w = false →
     ((u.runs c).quotaFits w.partIdx (quotaOf w) = true → exec .quotaSet s = .next ((((u.runs c).modPart w.partIdx fun x =>
       { x with quota := quotaOf w, crash := if bit w.w7 41 then w.ext1 else x.crash }).endHeat c .ok).afterStart c)) ∧
     ((u.runs c).quotaFits w.partIdx (quotaOf w) = false →
       exec .quotaSet s = .next (((u.runs c).endHeat c .quotaExceeded).afterStart c))) ∧
  (∀ (s : State) (i : Nat) (q : Quota), s.quotaFits i q = true ↔ (s.part i).state ≠ .free ∧
     let fits (total : Nat) (f : Quota → Nat) : Prop :=
       (((s.tab.parts.filter fun e => e.1 ≠ i && e.2.state ≠ .free).map fun e => f e.2.quota).sum) + f q ≤ total ∧ f (s.use i) ≤ f q
     fits 32768 Quota.ingots ∧ fits 65536 Quota.slots ∧ fits 1024 Quota.plans ∧ fits 2048 Quota.staging ∧ fits 16384 Quota.pins ∧
       fits 4080 Quota.heats ∧ fits 4096 Quota.tags) ∧
  (∀ (s u : State) (n c : Nat) (d : Desc) (w : Words), s.turn 0 .planRevoke d w n c u →
    u.behindSteward c .planRevoke w = false →
    let ks := (u.tab.plans.filter fun e => e.2.any fun x =>
      x.part = w.partIdx && x.ready && (bit w.w6 16 || x.id = fieldN w.w6 8 8)).map Prod.fst
    ((u.part w.partIdx).state = .free → exec .planRevoke s = .next (((u.runs c).endHeat c .malformed).afterStart c)) ∧
    (bit w.w6 16 = false →
      (∀ e ∈ u.tab.plans, ∀ x, e.2 = some x → x.part = w.partIdx → x.ready = true → x.id ≠ fieldN w.w6 8 8) →
      exec .planRevoke s = .next (((u.runs c).endHeat c .malformed).afterStart c)) ∧
    ((u.part w.partIdx).state ≠ .free → (bit w.w6 16 = true ∨ ks ≠ []) →
      exec .planRevoke s = .next (((ks.foldl State.revokeOne (u.runs c)).endHeat c .ok).afterStart c))) ∧
  (∀ (s : State) (k : Nat) (p : Plan), s.plan k = some p →
    let t := s.revokeOne k
    t.plan k = none ∧ (∀ j, j ≠ k → t.plan j = s.plan j) ∧
      (∀ i ∈ p.mine, ∀ e, (p.circs.find? fun e => e.1 = i) = some e → t.circ e.2 = none) ∧
      (∀ j h, s.heat j = some h → h.uses p = true → ∃ h', t.heat j = some h' ∧ h'.id = h.id ∧ h'.run.phase = .ended .planInvalid) ∧
      (∀ j, (∀ e ∈ s.heatList, e.1 = j → e.2.uses p = false) → t.heat j = s.heat j) ∧
      t.tab.parts = s.tab.parts ∧ t.tab.queues = s.tab.queues)

/-- R222. DRAIN_VC holds injection of the chain's VCs toward its ports until they are quiet. It takes the place of an earlier hold: what
that one kept is injected, or waits on under the new one, and the DRAIN_VC that still waits for it ends with ABORT_TIMEOUT (the model's
reading, log 41). RELEASE = 1 ends the hold at once with OK; a DRAIN_VC that waits for it then ends with ABORT_TIMEOUT (log 41).

R223, R224. ROUTE_SWAP proceeds on a drained engine: a hold is DRAINED that covers VC0 to VC3, VC6 and VC7 and every port in service;
with FORCE, where every partition is HALTED or FREE or has only DISABLED, idle queues. The swap is then pending and is due 16 refclk
periods after dispatch. Otherwise it ends with MALFORMED and changes nothing; with a swap pending too (the model's reading, log 41).

R222 to R224, R247. DRAIN_VC has its quiet interval: the hold is drained, and the heat ends with OK; its limit comes first: the hold
ends, what it kept is injected, and the heat ends with ABORT_TIMEOUT. The swap edge: the other bank is active, no swap is pending, the hold
ends, drained as it is for an unforced swap, or not, and what it kept is injected; every
ADOPTED port knows of the swap, and the heat ends with OK; a forced one discards what is queued and buffered on the VCs it
concerns, and what arrives until QUIET_US have passed. Two things are the model's choice: a heat that still waits for a hold that the swap
ends itself ends with ABORT_TIMEOUT (log 41), and a billet delivered here that no heat has taken yet counts as buffered (log 73). -/
def Obligations.RouteChanges : Prop :=
  (∀ (s u : State) (n c : Nat) (d : Desc) (w : Words), s.turn 0 .drainVc d w n c u → bit w.w6 8 = true →
    exec .drainVcRelease s = .next (((u.runs c).releaseHold.endHeat c .ok).afterStart c)) ∧
  (∀ (s u : State) (n c : Nat) (d : Desc) (w : Words), s.turn 0 .drainVc d w n c u → bit w.w6 8 = false →
    let hd : Hold :=
      { vcs := field w.w6 0 8, ports := field w.w7 0 40, quietUs := field w.w6 16 16, drained := false, heat := some c,
        deadline := u.time.now + fieldN w.w6 32 16 * msPs, lastSeen := u.time.now, waiting := [] }
    (u.route.hold = none →
      exec .drainVc s = .next (({ u.runs c with route := { u.route with hold := some hd } } : State).afterStart c)) ∧
    (∀ x, u.route.hold = some x → x.heat ≠ some c → ∃ (v : State) (y : Hold), exec .drainVc s = .next (v.afterStart c) ∧
      v.route.hold = some y ∧ y = { hd with waiting := y.waiting } ∧ (x.waiting = [] → y.waiting = []) ∧
      v.heat c = (u.runs c).heat c ∧
      (∀ k g, x.heat = some k → u.heat k = some g → g.live = true → ∃ g', v.heat k = some g' ∧ g'.id = g.id ∧
        g'.run.phase = .ended .abortTimeout) ∧
      (∀ k, x.heat ≠ some k → k ≠ c → v.heat k = u.heat k) ∧ v.tab.queues = u.tab.queues ∧ v.hrt.ingots = u.hrt.ingots)) ∧
  (∀ (s : State), s.route.hold = none → s.releaseHold = s) ∧
  (∀ (s : State) (x : Hold), s.route.hold = some x → s.releaseHold.route.hold = none ∧
    (∀ k g, x.heat = some k → s.heat k = some g → g.live = true → ∃ g', s.releaseHold.heat k = some g' ∧ g'.id = g.id ∧
      g'.run.phase = .ended .abortTimeout) ∧
    (∀ k, x.heat ≠ some k → s.releaseHold.heat k = s.heat k)) ∧
  (∀ (s u : State) (n c : Nat) (d : Desc) (w : Words), s.turn 0 .routeSwap d w n c u →
    ∀ cmd, (cmd = .routeSwap ∧ bit w.w6 0 = false ∨ cmd = .routeSwapForced ∧ bit w.w6 0 = true) →
    let may := if bit w.w6 0 then (u.runs c).swapForced else (u.runs c).swapDrained
    (u.route.swap = none → may = true → exec cmd s = .next ((({ u.runs c with route := { u.route with
      swap := some (c, bit w.w6 0, field w.w6 16 16) } } : State).waits c (u.time.now + 16 * refPs)).afterStart c)) ∧
    ((u.route.swap ≠ none ∨ may = false) → exec cmd s = .next (((u.runs c).endHeat c .malformed).afterStart c))) ∧
  (∀ (s : State), s.swapDrained = true ↔ ∃ x, s.route.hold = some x ∧ x.drained = true ∧
    (∀ v ∈ [0, 1, 2, 3, 6, 7], bit x.vcs v = true) ∧ ∀ p < 40, (s.port p).reg.st.inService = true → bit x.ports p = true) ∧
  (∀ (s : State), s.swapForced = true ↔ ∀ e ∈ s.tab.parts, e.2.state = .free ∨ e.2.state = .halted ∨
    ∀ q ∈ e.2.queues, (s.queue q).st = .disabled ∧ (s.queue q).under = [] ∧ (s.queue q).ready = none ∧ (s.queue q).heats = []) ∧
  (∀ (s : State) (h : Hold) (c : Nat), s.route.hold = some h → h.heat = some c →
    (∀ p ∈ setBits h.ports, s.portQuiet h p = true) → h.lastSeen + h.quietUs.toNat * usPs ≤ h.deadline →
    exec .drainVcQuiet s = .next (({ s with
      time := { s.time with now := max s.time.now (h.lastSeen + h.quietUs.toNat * usPs) }
      route := { s.route with hold := some { h with drained := true, heat := none } } }).endHeat c .ok).pumpAll) ∧
  (∀ (s : State), (∀ h, s.route.hold = some h → h.heat = none) → exec .drainVcQuiet s = .next s.pumpAll ∧
    exec .drainVcTimeout s = .next s.pumpAll) ∧
  (∀ (s : State) (h : Hold) (c : Nat), s.route.hold = some h → h.heat = some c →
    exec .drainVcTimeout s = .next ((h.waiting.foldl State.inject ({ s with
      time := { s.time with now := max s.time.now h.deadline }
      route := { s.route with hold := none } })).endHeat c .abortTimeout).pumpAll) ∧
  (∀ (s : State), s.route.swap = none → exec .swapEdge s = .next s.pumpAll) ∧
  (∀ (s : State) (c : Nat) (h : Heat) (quiet : BitVec 16), s.route.swap = some (c, false, quiet) → s.heat c = some h →
    (∀ x, s.route.hold = some x → x.heat = none ∧ x.waiting = []) → (∀ p < 40, (s.port p).reg.st ≠ .adopted) →
    exec .swapEdge s = .next (({ s with
      time := { s.time with now := max s.time.now h.run.due }
      route := { s.route with activeBank := !s.route.activeBank, swap := none, hold := none } }).endHeat c .ok).pumpAll) ∧
  (∀ (s : State) (c p : Nat) (h : Heat) (force : Bool) (quiet : BitVec 16), s.route.swap = some (c, force, quiet) → s.heat c = some h →
    h.live = true → (∀ x, s.route.hold = some x → x.heat ≠ some c) → p < 40 →
    ∃ (t u : State) (h' : Heat) (l : List Billet), exec .swapEdge s = .next t ∧ t = u.pumpAll ∧
      u.route.activeBank = !s.route.activeBank ∧ u.bank false = s.bank true ∧ u.bank true = s.bank false ∧ u.route.swap = none ∧
      u.route.hold = none ∧ u.heat c = some h' ∧ h'.run.phase = .ended .ok ∧
      (∀ x k g, s.route.hold = some x → x.heat = some k → s.heat k = some g → g.live = true →
        ∃ g', u.heat k = some g' ∧ g'.run.phase = .ended .abortTimeout) ∧
      (∀ b ∈ l, ∃ x b', s.route.hold = some x ∧ b' ∈ x.waiting ∧ b = { b' with vc := b.vc }) ∧
      ((s.port p).reg.st = .adopted → (u.port p).tr.swapDone = true) ∧
      (force = false → (u.port p).tx.queue = (s.port p).tx.queue ++ l ∧ u.route.forceUntil = s.route.forceUntil) ∧
      (force = true → (u.port p).tx.queue = (s.port p).tx.queue.filter (fun b => !swapVc b.vc) ++ l ∧
        (u.port p).rx.buf = (s.port p).rx.buf.filter (fun b => !swapVc b.vc) ∧
        (u.port p).rx.inbox = (s.port p).rx.inbox.filter (fun b => !swapVc b.vc)) ∧
      (force = true → quiet ≠ 0 → u.route.forceUntil = some (max s.time.now h.run.due + quiet.toNat * usPs))) ∧
  (∀ (s : State) (t : Nat), s.route.forceUntil = some t → exec .forcedSwapQuietEnd s = .next { s with
    time := { s.time with now := max s.time.now t }, route := { s.route with forceUntil := none } }) ∧
  (∀ (s : State), s.route.forceUntil = none → exec .forcedSwapQuietEnd s = .next s)

/-- R246. CABLE_ADOPT: a port in QUARANTINE with reason FOREIGN or ELSEWHERE takes its partner from LNK_PEER with WIDTH 0 and is
ADOPTED; two SWAPPED ports that name each other exchange their partners and both are ADOPTED; a port in QUARANTINE with another reason or in
another state, and two ports that do not name each other as SWAPPED, are MALFORMED.

R340, R341. REIMAGE_STAGE reads COUNT bytes of its region from SRC; REIMAGE_ACTIVATE of a STAGED standby, with REIMAGE_EN and
REIMAGE_PERMIT and no other waiting, holds the sequencers' work until TIMEOUT_MS; otherwise it ends with MALFORMED. -/
def Obligations.CablesAndImages : Prop :=
  (∀ (s u : State) (n c a : Nat) (d : Desc) (w : Words), s.turn 0 .cableAdopt d w n c u → a = fieldN w.w6 0 6 → a < 40 →
    fieldN w.w6 8 6 = 0 → bit w.w6 16 = false → (u.port a).reg.st = .quarantine →
    ((u.port a).reg.qreason = 1 ∨ (u.port a).reg.qreason = 2) →
    exec .cableAdopt s = .next ((((u.runs c).adopt a (adoptEntry (u.port a).reg.plan (u.port a).reg.peerId
      (u.port a).reg.peerPort)).endHeat c .ok).afterStart c)) ∧
  (∀ (s u : State) (n c a b : Nat) (d : Desc) (w : Words), s.turn 0 .cableAdopt d w n c u → a = fieldN w.w6 0 6 →
    b = fieldN w.w6 8 6 → a < 40 → b < 40 → bit w.w6 16 = true → (u.port a).reg.st = .swapped → (u.port b).reg.st = .swapped →
    (u.port a).reg.other.toNat = b → (u.port b).reg.other.toNat = a →
    exec .cableAdoptPair s = .next (((((u.runs c).adopt a (adoptEntry (u.port a).reg.plan (planPeer (u.port b).reg.plan).1
      (planPeer (u.port b).reg.plan).2)).adopt b (adoptEntry (u.port b).reg.plan (planPeer (u.port a).reg.plan).1
        (planPeer (u.port a).reg.plan).2)).endHeat c .ok).afterStart c)) ∧
  (∀ (s u : State) (n c : Nat) (d : Desc) (w : Words), s.turn 0 .cableAdopt d w n c u → bit w.w6 16 = false →
    ((u.port (fieldN w.w6 0 6)).reg.st ≠ .quarantine ∨ fieldN w.w6 8 6 ≠ 0 ∨ 40 ≤ fieldN w.w6 0 6) →
    exec .cableAdopt s = .next (((u.runs c).endHeat c .malformed).afterStart c)) ∧
  (∀ (s u : State) (n c : Nat) (d : Desc) (w : Words), s.turn 0 .cableAdopt d w n c u → bit w.w6 16 = false →
    fieldN w.w6 0 6 < 40 → (u.port (fieldN w.w6 0 6)).reg.st = .quarantine → (u.port (fieldN w.w6 0 6)).reg.qreason ≠ 1 →
    (u.port (fieldN w.w6 0 6)).reg.qreason ≠ 2 →
    exec .cableAdopt s = .next (((u.runs c).endHeat c .malformed).afterStart c)) ∧
  (∀ (s u : State) (n c : Nat) (d : Desc) (w : Words), s.turn 0 .cableAdopt d w n c u → bit w.w6 16 = true →
    (let x := (u.port (fieldN w.w6 0 6)).reg
     let y := (u.port (fieldN w.w6 8 6)).reg
     40 ≤ fieldN w.w6 0 6 ∨ 40 ≤ fieldN w.w6 8 6 ∨ x.st ≠ .swapped ∨ y.st ≠ .swapped ∨ x.other.toNat ≠ fieldN w.w6 8 6 ∨
       y.other.toNat ≠ fieldN w.w6 0 6) →
    exec .cableAdoptPair s = .next (((u.runs c).endHeat c .malformed).afterStart c)) ∧
  (∀ (s : State) (p : Nat) (e : W32), ((s.adopt p e).port p).reg.plan = e ∧ ((s.adopt p e).port p).reg.st = .adopted ∧
    ((s.adopt p e).port p).tx = (s.port p).tx ∧ ((s.adopt p e).port p).rx = (s.port p).rx ∧
    ∀ q, q ≠ p → (s.adopt p e).port q = s.port q) ∧
  (∀ (s u : State) (n c : Nat) (d : Desc) (w : Words), s.turn 0 .reimageStage d w n c u →
    ∃ (v : State) (h : Heat), exec .reimageStage s = .next (State.afterStart v c) ∧ v.heat c = some h ∧
      h.dp.streams = [wordStream .src false w.src w.count] ∧ v.seq = u.seq) ∧
  (∀ (s u : State) (n c : Nat) (d : Desc) (w : Words), s.turn 0 .reimageActivate d w n c u → u.boot.cfg.reimageEn = true →
    bit u.ctl.permits 3 = true → u.seq.standby = .staged → u.seq.hold = none →
    exec .reimageActivate s = .next (({ u.runs c with seq := { u.seq with
      hold := some (c, u.time.now + fieldN w.w6 0 16 * msPs) } } : State).afterStart c)) ∧
  (∀ (s u : State) (n c : Nat) (d : Desc) (w : Words), s.turn 0 .reimageActivate d w n c u →
    (u.boot.cfg.reimageEn = false ∨ bit u.ctl.permits 3 = false ∨ u.seq.standby ≠ .staged ∨ u.seq.hold ≠ none) →
    exec .reimageActivate s = .next (((u.runs c).endHeat c .malformed).afterStart c))

/-- R13, R52, R114, R116, R119, R126, R304, R309, R353, R354. A heat obtains its slot. Hearth not serving, or no Anvil engine: what is
gated is woken, and the heat waits, with its watchdog stopped while what it waits for is a wake and running otherwise. Hearth under
scrub after a reset or a bank under drain, or an earlier heat has the slot: nothing changes. Heats whose wake is over go on first. A new slot outside the quota ends the heat with QUOTA_EXCEEDED; within it, with ingots
free, the slot is allocated with the sets that END asks for. A heat that starts at zero takes a set that nothing keeps, which
becomes ACTIVE; on an OPEN set it is MALFORMED.

R127, R119, R133. The drain of a heat's set is over: under DRAIN the set is EMPTY; under DRAIN_FREE, with no other set of the slot
in use, the slot is gone and its ingots await scrub. A drain that is not over leaves the set.

R184. A staging pair, the lowest that is free, is granted to a stream that waits for one, while its partition is below its
quota; otherwise nothing changes. -/
def Obligations.SlotsAndStaging : Prop :=
  (∀ (s : State) (c : BitVec 12) (h : Heat), s.heat c.toNat = some h → h.run.phase = .slot →
    (s.hearthServes = false ∨ s.anvilServes = false ∨ s.hearthWaking = true) →
    ∃ t, exec (.slotObtain c) s = .next t ∧ t.power = { s.power with waking := t.power.waking, woken := t.power.woken } ∧ t.hrt = s.hrt ∧
      (s.hearthServes = false → ∀ i ∈ hearths, maskOf (domainBits i) &&& ~~~ s.power.on &&& ~~~ t.power.waking = 0) ∧
      (let wakes : Prop := (h.id.d.kind.needsAnvil = true ∧ s.anvilServes = false ∧ ∃ i ∈ anvils, t.isWaking i = true) ∨
         ((s.hearthServes = false ∨ s.hrt.resetting = true) ∧ ∃ i ∈ hearths, t.isWaking i = true)
       (wakes → ∃ h', t.heat c.toNat = some h' ∧ h'.id = h.id ∧ h'.dp = h.dp ∧ h'.run.phase = .slot ∧ h'.run.waking = true ∧
         h'.run.wdogStopped = true ∧ (h.run.wdogStopped = false → h'.run.wdog = h.run.wdog - s.time.now)) ∧
       (¬ wakes → t.heat c.toNat = some h)) ∧
      ∀ k, k ≠ c.toNat → t.heat k = s.heat k) ∧
  (∀ (s : State) (c : BitVec 12) (h : Heat), s.heat c.toNat = some h → (∀ e ∈ s.heatList, e.2.run.waking = false) →
    s.anvilServes = true → s.hearthServes = true → s.hearthWaking = false → (h.run.phase ≠ .slot ∨ h.paused = true ∨
      s.hrt.resetting = true ∨ s.slotBehind c.toNat h = true ∨ hearths.any s.underReset = true) →
    exec (.slotObtain c) s = .next s) ∧
  (∀ (s : State) (c : BitVec 12) (h : Heat), s.heat c.toNat = some h → h.run.phase = .slot → s.slotServes = true →
    s.hearthWaking = false → exec (.slotObtain c) s = exec (.slotObtain c) s.wakeOver ∧
      ∀ e ∈ s.wakeOver.heatList, e.2.run.waking = false) ∧
  (∀ (s : State) (c : BitVec 12) (h : Heat) (p : Nat), s.heat c.toNat = some h → h.run.phase = .slot → h.id.part = some p →
    (∀ e ∈ s.heatList, e.2.run.waking = false) → s.slotServes = true → h.paused = false → s.hrt.resetting = false →
    s.slotBehind c.toNat h = false → h.id.d.kind.adding = true → h.id.d.start = .zero → s.slot p h.id.w.slot = none →
    let n := (if h.id.d.endp = .shadow then 2 else 1) *
      setIngots h.id.d.slotKind (slotWidth h.id.d h.id.w) (rangesLen h.dp.ranges)
    (((s.part p).quota.ingots < (s.use p).ingots + n ∨ (s.part p).quota.slots < (s.use p).slots + 1) →
      exec (.slotObtain c) s = .next (s.endHeat c.toNat .quotaExceeded).pumpAll) ∧
    ((s.use p).ingots + n ≤ (s.part p).quota.ingots → (s.use p).slots + 1 ≤ (s.part p).quota.slots →
      s.hrt.slots.length < 65536 → (s.freeIngots n).length = n →
      ∃ (t u : State) (sl : Slot) (h' : Heat), exec (.slotObtain c) s = .next t ∧ t = u.pumpAll ∧
        u.slot p h.id.w.slot = some sl ∧ sl.kind = h.id.d.slotKind ∧ sl.e = rangesLen h.dp.ranges ∧ sl.fill = 0 ∧
        sl.sets.length = (if h.id.d.endp = .shadow then 2 else 1) ∧ sl.fillSet.st = .active ∧ sl.fillSet.cells = [] ∧
        u.heat c.toNat = some h' ∧ h'.id = h.id ∧ h'.run.phase = .run ∧ h'.dp.slotHeld = true ∧ h'.dp.setIdx = 0 ∧
        (∀ i ∈ s.freeIngots n, Tbl.get false u.hrt.ingots i = true))) ∧
  (∀ (s : State) (c : BitVec 12) (h : Heat) (p : Nat) (sl : Slot), s.heat c.toNat = some h → h.run.phase = .slot →
    h.id.part = some p → (∀ e ∈ s.heatList, e.2.run.waking = false) → s.slotServes = true → h.paused = false →
    s.hrt.resetting = false → s.slotBehind c.toNat h = false →
    h.id.d.kind.adding = true → h.id.d.start = .zero → s.slot p h.id.w.slot = some sl → sl.kind = h.id.d.slotKind →
    sl.width = slotWidth h.id.d h.id.w → rangesLen h.dp.ranges ≤ sl.e → sl.fill < sl.sets.length →
    ((sl.fillSet.st = .empty ∨ sl.fillSet.st = .void ∨ sl.fillSet.st = .poisoned) →
      ∃ (t u : State) (h' : Heat), exec (.slotObtain c) s = .next t ∧ t = u.pumpAll ∧
        u.slot p h.id.w.slot = some { sl with
          sets := sl.sets.modify sl.fill fun x => { x with st := .active, cells := [], blank := h.blank } } ∧
        u.heat c.toNat = some h' ∧ h'.id = h.id ∧ h'.run.phase = .run ∧ h'.dp.slotHeld = true ∧ h'.dp.setIdx = sl.fill ∧
        u.hrt.ingots = s.hrt.ingots) ∧
    ((sl.fillSet.st = .active ∨ sl.fillSet.st = .draining) → exec (.slotObtain c) s = .next s) ∧
    ((sl.fillSet.st = .opened ∨ sl.fillSet.st = .preloaded) → (h.holds = true ∨ h.enters = true) →
      exec (.slotObtain c) s = .next (s.endHeat c.toNat .malformed).pumpAll)) ∧
  (∀ (s : State) (c : BitVec 12) (h : Heat) (p : Nat) (sl : Slot), s.heat c.toNat = some h → h.id.part = some p →
    s.slot p h.id.w.slot = some sl → (sl.sets[h.dp.setIdx]?).map (fun x => x.st) = some .draining → h.live = true →
    h.dp.slotHeld = true → h.dp.setDone = false → h.drainOver = true →
    (h.id.d.endp ≠ .drainFree → ∃ t u : State, exec (.setDrainDone c) s = .next t ∧ t = u.pumpAll ∧
      u.heat c.toNat = some { h with dp := { h.dp with setDone := true } } ∧ u.hrt.ingots = s.hrt.ingots ∧
      u.slot p h.id.w.slot = some { sl with
        sets := sl.sets.modify h.dp.setIdx fun x => { x with st := .empty, cells := [] } }) ∧
    (h.id.d.endp = .drainFree → (∀ (i : Nat) (x : SetSt), i ≠ h.dp.setIdx → sl.sets[i]? = some x → x.st.busy = false) →
      ∃ t u : State, exec (.setDrainDone c) s = .next t ∧ t = u.pumpAll ∧
        u.heat c.toNat = some { h with dp := { h.dp with setDone := true } } ∧ u.slot p h.id.w.slot = none ∧
        u.hrt.ingots = s.hrt.ingots ∧
        u.hrt.scrub = s.hrt.scrub ++ ((sl.sets.map fun x => x.ingots).flatten ++ sl.biasIngots))) ∧
  (∀ (s : State) (c : BitVec 12) (h : Heat), s.heat c.toNat = some h → (h.drainOver = false ∨ h.dp.slotHeld = false) →
    exec (.setDrainDone c) s = .next s.pumpAll) ∧
  (∀ (s : State) (c : BitVec 12) (k : StreamId) (h : Heat) (i n : Nat) (x : Stream), s.heat c.toNat = some h →
    h.streamIdx k = some i → h.dp.streams[i]? = some x → x.wait = .staging → x.staged = false → s.freePair = some n → h.live = true → h.paused = false →
    s.stagingFree h = true → exec (.stagingPairGrant c k) s = .next (s.setHeat c.toNat (some { h with dp := { h.dp with
      streams := h.dp.streams.set i { x with staged := true, pairNo := n, base := x.pos, wait := .idle } } })).pumpAll) ∧
  (∀ (s : State) (c : BitVec 12) (k : StreamId) (h : Heat) (i : Nat) (x : Stream), s.heat c.toNat = some h →
    h.streamIdx k = some i → h.dp.streams[i]? = some x → (x.wait ≠ .staging ∨ s.stagingFree h = false ∨ h.paused = true) →
    exec (.stagingPairGrant c k) s = .next s) ∧
  (∀ (s : State) (h : Heat) (p : Nat), h.id.part = some p →
    (s.stagingFree h = true ↔ s.freePair.isSome = true ∧ (s.use p).staging < (s.part p).quota.staging))

/-- R54, R176, R177. The completion of a heat that may complete: its record goes out on the pick port in two writes, bytes 8 to 15
first, with the status it ended with; its context is free; and its queue holds it no more.

R176. The fields of a completion record: the epoch's low 40 bits, the bytes, the head index, the queue, the generation, and the
status in the low byte, with DONE, the timing and truncation bits and the flags in byte 1; the reserved bits are 0.

R180, R367, R369. The answer of the pick port frees its oldest write; the answer of a record's last write that notifies, with both
writes OKAY, sets its queue's event; an error is counted and there is no event. Where the port had no room, what waits for it is then
served in turn; the records of malformed chains go out while there is room. The event channel keeps the event that it
presents until it transfers; its queue's bit clears then, and the next queue in ascending order, after the one sent last, is presented. -/
def Obligations.CompletionRecords : Prop :=
  (∀ (s : State) (c : BitVec 12) (h : Heat) (st : Status), s.heat c.toNat = some h → s.mayComplete c.toNat h = true →
    h.run.phase = .ended st → h.run.record = none → (∀ e ∈ s.ports, e.2.degraded = false ∧ e.2.tx.resend = []) →
    ∃ t u : State, exec (.heatCompletion c) s = .next t ∧
      t = (match h.id.part with
        | some p => u.resetGo p
        | none => if h.id.d.kind.namesPart then u.startQueued h.id.w.partIdx else u).pumpAll ∧
      u.heat c.toNat = none ∧ (∀ k, k ≠ c.toNat → u.heat k = s.heat k) ∧
      u.wld.pick = s.wld.pick ++
        [{ addr := h.id.cmplPa + 8, space := h.id.space, data := field (s.record h st) 64 64, be := 0xFF, queue := h.id.q,
           last := false, notify := h.id.d.notify, ok := true, vpage := h.id.cmplPage.1, size := h.id.cmplPage.2,
           asOf := s.wld.acks + s.wld.invs.length },
         { addr := h.id.cmplPa, space := h.id.space, data := field (s.record h st) 0 64, be := 0xFF, queue := h.id.q,
           last := true, notify := h.id.d.notify, ok := true, vpage := h.id.cmplPage.1, size := h.id.cmplPage.2,
           asOf := s.wld.acks + s.wld.invs.length }] ∧
      (u.queue h.id.q).heats = (s.queue h.id.q).heats.filter (· ≠ c.toNat) ∧
      ((s.queue h.id.q).st = .draining → (s.queue h.id.q).heats = [c.toNat] → (u.queue h.id.q).st = .disabled) ∧
      (∀ q, q ≠ h.id.q → u.queue q = s.queue q) ∧ u.time = s.time ∧ u.hrt = s.hrt ∧ u.ports = s.ports) ∧
  (∀ (s : State) (c : BitVec 12) (h : Heat), s.heat c.toNat = some h → s.mayComplete c.toNat h = false →
    exec (.heatCompletion c) s = .next s) ∧
  (∀ (s : State) (c : Nat) (h : Heat), s.mayComplete c h = true → ∃ st, h.run.phase = .ended st ∧
    s.writesLeft c = false ∧ (st = .ok → s.billetsLeft c h = false) ∧ s.wld.pick.length ≤ 62) ∧
  (∀ (epoch : W64) (bytes q gen : Nat) (idx : BitVec 17) (timing trunc : Bool) (f : Flags) (st : Status), q < 4096 → gen < 16 →
     let r := recordOf epoch bytes idx q gen timing trunc f st
     fieldN r 0 8 = st.code ∧ bit r 15 = true ∧ bit r 14 = false ∧ fieldN r 49 3 = 0 ∧ bit r 13 = timing ∧ bit r 12 = trunc ∧ field r 8 4 = f.toBits ∧
     fieldN r 16 4 = gen ∧ fieldN r 20 12 = q ∧ fieldN r 32 17 = idx.toNat ∧ fieldN r 52 36 = min bytes (2 ^ 36 - 1) ∧
     fieldN r 88 40 = fieldN epoch 0 40) ∧
  (∀ (s : State) (w : PickWr) (rest : List PickWr), s.wld.pick = w :: rest →
    let goOn (x : State) : State :=
      let y := if s.pickRoom then x else x.servePick
      ((y.tab.queues.filter fun e => e.2.bad ≠ []).foldl (fun (z : State) e => z.flushBad e.1) y).pumpAll
    (w.last = true → w.notify = true → w.ok = true → exec (.pickWriteResponse false) s = .next (goOn { s with
      wld := { s.wld with pick := rest }
      tng := { s.tng with evts := Tbl.set false s.tng.evts w.queue true }.present })) ∧
    ((w.last = false ∨ w.notify = false ∨ w.ok = false) →
      exec (.pickWriteResponse false) s = .next (goOn { s with wld := { s.wld with pick := rest } })) ∧
    (w.last = true → exec (.pickWriteResponse true) s =
      .next (goOn { s with wld := { s.wld with pick := rest, memPick := satInc s.wld.memPick } })) ∧
    (∀ (y : PickWr) (r : List PickWr), w.last = false → w.step = none → rest = y :: r →
      exec (.pickWriteResponse true) s = .next (goOn { s with
        wld := { s.wld with pick := { y with ok := false } :: r, memPick := satInc s.wld.memPick } })) ∧
    (s.pickRoom = true → ∀ x : State, (∀ e ∈ x.tab.queues, e.2.bad = []) → goOn x = x.pumpAll)) ∧
  (∀ (s : State) (err : Bool), s.wld.pick = [] → exec (.pickWriteResponse err) s = .next s) ∧
  (∀ (s : State) (q : BitVec 12), s.tng.evtNow = some q → exec .completionEvent s = .next { s with tng :=
    { s.tng with evts := Tbl.set false s.tng.evts q.toNat false, evtLast := q, evtNow := none }.present }) ∧
  (∀ (s : State), s.tng.evtNow = none → exec .completionEvent s = .next s) ∧
  (∀ (t : TngSt) (q : BitVec 12), t.evtNow = some q → t.present = t) ∧
  (∀ (t : TngSt), t.evtNow = none → t.present = { t with evtNow := t.nextPending.map (BitVec.ofNat 12) }) ∧
  (∀ (t : TngSt) (n : Nat), t.nextPending = some n → (n, true) ∈ t.evts ∧
    (t.evtLast.toNat < n ∨ ∀ e ∈ t.evts, e.2 = true → e.1 ≤ t.evtLast.toNat))

/-! ### Billets, circuits, time, barriers (09 to 11) -/

/-- R222, R306, R308. A billet command takes a billet of its kind out of the port's inbox, where it counted as buffered until now (R222). One of
another kind changes nothing; slag is
dropped and counted in TNG_SLAG; one whose tag names no live flow is dropped and counted in TNG_TAG_DROP. -/
def Obligations.BilletsWithoutHeat : Prop :=
  (∀ (s : State) (p : PortId) (b : Billet) (e : List Flip),
    (b.kind ≠ kData → exec (.data p b e) s = .next (s.flips e)) ∧ (b.kind ≠ kMask → exec (.mask p b) s = .next s) ∧
    (b.kind ≠ kCommit → exec (.commit p b) s = .next s) ∧ (b.kind ≠ kHold → exec (.hold p b) s = .next s) ∧
    (b.kind ≠ kResume → exec (.resume p b) s = .next s) ∧ (b.kind ≠ kBeacon → exec (.beacon p b) s = .next s) ∧
    (b.kind ≠ kCounts → exec (.counts p b) s = .next s)) ∧
  (∀ (s : State) (p : PortId) (b : Billet) (e : List Flip), b.key ≠ 0 → s.isSlag b = true →
    let t := (s.undeliver p b).slagBillet
    (b.kind = kData → exec (.data p b e) s = .next ((s.flips e).undeliver p b).slagBillet) ∧ (b.kind = kMask → exec (.mask p b) s = .next t) ∧
    (b.kind = kCommit → exec (.commit p b) s = .next t) ∧ (b.kind = kHold → exec (.hold p b) s = .next t) ∧
    (b.kind = kResume → exec (.resume p b) s = .next t) ∧ (b.kind = kBeacon → exec (.beacon p b) s = .next t) ∧
    (b.kind = kCounts → exec (.counts p b) s = .next t) ∧
    (b.kind = kReady → bit b.seq 0 = false → exec (.ready p b) s = .next t) ∧
    (b.kind = kReady → bit b.seq 0 = true → exec (.readyReply p b) s = .next t) ∧
    (b.kind = kBarrier → bit b.seq 0 = false → exec (.barrierArrive p b) s = .next t) ∧
    (b.kind = kBarrier → bit b.seq 0 = true → exec (.barrierRelease p b) s = .next t)) ∧
  (∀ (s : State) (p : PortId) (b : Billet) (e : List Flip), (b.key = 0 ∨ s.isSlag b = false) →
    let t := ((s.undeliver p b).cameBy p b).tagDrop
    (s.inFlow b = none → (b.kind = kData → exec (.data p b e) s = .next (((s.flips e).undeliver p b).cameBy p b).tagDrop) ∧
      (b.kind = kMask → exec (.mask p b) s = .next t) ∧ (b.kind = kCounts → exec (.counts p b) s = .next t) ∧
      (b.kind = kBarrier → bit b.seq 0 = false → exec (.barrierArrive p b) s = .next t) ∧
      (b.kind = kBarrier → bit b.seq 0 = true → exec (.barrierRelease p b) s = .next t)) ∧
    (s.outFlow b = none → (b.kind = kCommit → exec (.commit p b) s = .next t) ∧
      (b.kind = kHold → exec (.hold p b) s = .next t) ∧ (b.kind = kResume → exec (.resume p b) s = .next t)) ∧
    (s.inFlow b = none → s.outFlow b = none → b.kind = kBeacon → exec (.beacon p b) s = .next t)) ∧
  (∀ (s : State) (p : PortId) (b : Billet),
    let u := s.undeliver p b
    let v := u.cameBy p b
    u.slagBillet = { s with
      ports := u.ports, route := { s.route with hold := u.route.hold }
      tng := { s.tng with slagBillet := satInc s.tng.slagBillet } } ∧
    (s.reached b = none → v.tagDrop = { s with
      ports := v.ports, route := { s.route with hold := u.route.hold }, tng := { s.tng with tagDrop := satInc s.tng.tagDrop } } ∧
      (∀ q, q ≠ p.val → v.port q = s.port q) ∧ (v.port p.val).rx.inbox = (s.port p.val).rx.inbox.erase b) ∧
    (∀ q, q ≠ p.val → u.port q = s.port q) ∧ (u.port p.val).rx.inbox = (s.port p.val).rx.inbox.erase b ∧
    (b ∉ (s.port p.val).rx.inbox → u = s) ∧ (s.route.hold = none → u.route.hold = none) ∧
    (∀ x, s.route.hold = some x → b ∈ (s.port p.val).rx.inbox → u.route.hold = some
      (if bit x.vcs b.vc.toNat && bit x.ports p.val then { x with lastSeen := s.time.now } else x))) ∧
  (∀ (s : State) (b : Billet),
    ((b.kind = kData ∨ b.kind = kMask ∨ b.kind = kCounts ∨ b.kind = kBarrier) ∧ s.inFlow b = none ∨
      (b.kind = kCommit ∨ b.kind = kHold ∨ b.kind = kResume) ∧ s.outFlow b = none ∨
      b.kind = kBeacon ∧ s.inFlow b = none ∧ s.outFlow b = none) → s.reached b = none)

/-- R61, R62, R131, R191, R193, R203, R250. A DATA or MASK billet of a live flow; bits of Hearth words may flip before a DATA billet. A
paused heat drops it, MASK billets with DATA (the model's choice, log 32); one out of order is dropped; the expected one is applied, and e
advances; where its contribution is early, or may not be applied yet, and the reorder stage has room it is held, and e advances (a MASK
billet takes no entry: the model's choice, log 10); where there is no room a HOLD goes back, e stays and the refusal is counted. A billet
that came by a degraded port, or comes while the port is degraded, marks its heat. -/
def Obligations.DataBillets : Prop :=
  ∀ (s : State) (p : PortId) (b : Billet) (fs : List Flip) (mask : Bool) (cmd : Instr) (c f : Nat) (h : Heat) (fi : FlowIn),
    (cmd = .data p b fs ∧ b.kind = kData ∧ mask = false ∨ cmd = .mask p b ∧ b.kind = kMask ∧ mask = true ∧ fs = []) →
    (b.key = 0 ∨ s.isSlag b = false) → s.inFlow b = some (c, f, h, fi) →
    let w := s.flips fs
    let r := (w.undeliver p b).cameBy p b
    let v := r.modIn c f fun x => { x with lastAt := s.time.now }
    let it : Item := { mask := mask, data := b.data }
    let expected := h.paused = false ∧ h.notYet fi = false ∧ b.seq = BitVec.ofNat 13 fi.next
    let early := fi.held ≠ [] ∨
      (s.replaying h.id.part = false ∧ v.applyItem c f it false = none ∧ (h.id.d.kind.adding && h.pc.anyOrder) = false)
    (b ∈ (s.port p.val).rx.slow → r = ((w.undeliver p b).modPort p.val fun x =>
      { x with rx := { x.rx with slow := x.rx.slow.erase b } }).perturb c) ∧
    (b ∉ (s.port p.val).rx.slow → (s.port p.val).degraded = true → r = (w.undeliver p b).perturb c) ∧
    (b ∉ (s.port p.val).rx.slow → (s.port p.val).degraded = false → r = w.undeliver p b) ∧
    (h.paused = true → exec cmd s = .next r) ∧
    (h.paused = false → h.notYet fi = true → exec cmd s = .next w) ∧
    (h.paused = false → h.notYet fi = false → r.waitsBehind p b fi = false → b.seq ≠ BitVec.ofNat 13 fi.next →
      exec cmd s = .next r) ∧
    (∀ s', expected → fi.held = [] → s.replaying h.id.part = false → v.applyItem c f it false = some s' →
      exec cmd s = .next s'.pumpAll ∧ (w.hrt.upsets = [] →
        ∃ (h' : Heat) (x : FlowIn), s'.heat c = some h' ∧ h'.id = h.id ∧ h'.dp.ins[f]? = some x ∧ x.next = fi.next + 1 ∧
          x.lastAt = s.time.now)) ∧
    (expected → early → (mask = true ∨ v.entriesUsed h fi < 8) →
      ∃ t u : State, exec cmd s = .next t ∧ t = u.pumpAll ∧
        ∃ (h' : Heat) (x : FlowIn), u.heat c = some h' ∧ h'.id = h.id ∧ h'.dp.ins[f]? = some x ∧
          x = { fi with next := fi.next + 1, held := fi.held ++ [it], lastAt := s.time.now, resumed := false }) ∧
    (mask = false → expected → early → 8 ≤ v.entriesUsed h fi →
      ∃ t, exec cmd s = .next t ∧ t.hrt = { w.hrt with reorderHolds := satInc s.hrt.reorderHolds } ∧
        ∃ (h' : Heat) (x : FlowIn), t.heat c = some h' ∧ h'.id = h.id ∧ h'.dp.ins[f]? = some x ∧
          x = { fi with refused := some fi.next, lastAt := s.time.now, resumed := false } ∧ h'.dp.res = h.dp.res ∧
          h'.dp.cells = h.dp.cells)

/-- R61, R184, R191, R193, R219. A COMMIT raises its peer's committed count to the sequence it names, plus 1; a HOLD takes the flow back
to the refused sequence and stops it; a RESUME commits what lies before its sequence and the flow goes on from there. A rise of
the committed count re-arms the watchdog. Every other peer's count stays. What of SRC a flow that goes back sends again is read again
from the host; a heat that is paused reads it when it resumes.

R32, R202. A READY that finds its counterpart and agrees with it: the heat knows the peer's context and answers; one that does
not agree ends the heat with PLAN_INVALID; one without a counterpart is dropped. A reply gives the context without an answer; a
reply with MISMATCH ends the heat. -/
def Obligations.FlowControlAndReady : Prop :=
  (∀ (s : State) (p : PortId) (b : Billet) (c f r : Nat) (h : Heat) (x : FlowOut), (b.key = 0 ∨ s.isSlag b = false) →
    s.outFlow b = some (c, f, h, x, r) →
    let v := pAt b.data 0 4
    let ends (cmd : Instr) (n : Nat) (next : Nat) (stopped : Bool) : Prop :=
      ∃ (t u : State) (h' : Heat) (y : FlowOut), exec cmd s = .next t ∧ t = u.pumpAll ∧ u.heat c = some h' ∧ h'.id = h.id ∧
        h'.dp.outs[f]? = some y ∧ y.committedBy r = max (x.committedBy r) n ∧
        (∀ k, k ≠ r → y.committedBy k = x.committedBy k) ∧ y.next = next ∧ y.stopped = stopped ∧ y.items = x.items ∧
        y.runs = x.runs ∧ (∀ g, g ≠ f → h'.dp.outs[g]? = h.dp.outs[g]?) ∧ h'.dp.ins = h.dp.ins ∧
        h'.run.wdog = (if x.committedBy r < n then (if h.run.wdogStopped then 0 else s.time.now) + h.run.periodUs * usPs
          else h.run.wdog) ∧
        u.time = s.time ∧ u.hrt = s.hrt ∧ u.wld = { s.wld with mem := u.wld.mem, late := u.wld.late } ∧
        (cmd = .commit p b → u.wld = s.wld ∧ h'.dp.streams = h.dp.streams)
    (b.kind = kCommit → ends (.commit p b) (min (v + 1) x.items.length) x.next x.stopped) ∧
    (b.kind = kHold → ends (.hold p b) 0 (min x.next v) true) ∧
    (b.kind = kResume → ends (.resume p b) (min v x.items.length) (min v x.items.length) false)) ∧
  (∀ (s : State) (c f n : Nat) (h : Heat) (x : FlowOut) (y : Stream), s.heat c = some h → h.dp.outs[f]? = some x →
    (h.dp.streams.find? fun z => z.id = .src && !z.write) = some y →
    let j := h.pc.srcFrom h.dp x n y.pos
    (h.paused = false → n < x.next → j < y.pos → (s.goBack c f n).heat c = some { h with dp := { h.dp with
      outs := h.dp.outs.set f { x with next := n }
      streams := h.dp.streams.map fun (z : Stream) => if z.id = .src && !z.write then z.backTo j else z } }) ∧
    ((h.paused = true ∨ x.next ≤ n ∨ y.pos ≤ j) → s.goBack c f n =
      s.setHeat c (some { h with dp := { h.dp with outs := h.dp.outs.set f { x with next := n } } }))) ∧
  (∀ (s : State) (p : PortId) (b : Billet), b.kind = kReady → (b.key = 0 ∨ s.isSlag b = false) →
    s.counterpart (s.partOfKey b.key) b.data = none →
    (bit b.seq 0 = false → exec (.ready p b) s = .next ((s.undeliver p b).cameBy p b)) ∧
    (bit b.seq 0 = true → exec (.readyReply p b) s = .next ((s.undeliver p b).cameBy p b))) ∧
  (∀ (s : State) (p : PortId) (b : Billet) (c : Nat) (h : Heat), b.kind = kReady → (b.key = 0 ∨ s.isSlag b = false) →
    s.counterpart (s.partOfKey b.key) b.data = some (c, h) → s.heat c = some h →
    let r := pAt b.data 22 2
    let g := (s.undeliver p b).cameBy p b
    (bit b.seq 0 = false → h.agrees b.data = true → h.peerCtx r = none → ∃ (t u : State) (h' : Heat),
      exec (.ready p b) s = .next t ∧
      t = (u.sendReply c r (BitVec.ofNat 16 (pAt b.data 20 2)) false).pumpAll ∧ u.heat c = some h' ∧ h'.id = h.id ∧
      h'.peerCtx r = some (BitVec.ofNat 12 (pAt b.data 24 2)) ∧ (∀ k, k ≠ r → h'.peerCtx k = h.peerCtx k) ∧
      u.time = s.time ∧ u.hrt = s.hrt ∧ u.route = g.route) ∧
    (bit b.seq 0 = false → h.agrees b.data = false → exec (.ready p b) s =
      .next (((g.inject (h.billet (BitVec.ofNat 16 (pAt b.data 20 2)) kReady 1 0 3
        (h.readyData c s.own r))).endHeat c .planInvalid).pumpAll)) ∧
    (bit b.seq 0 = true → bit b.seq 1 = true →
      exec (.readyReply p b) s = .next ((g.endHeat c .planInvalid).pumpAll)) ∧
    (bit b.seq 0 = true → bit b.seq 1 = false → (h.peerCtx r).isSome = true →
      exec (.readyReply p b) s = .next g) ∧
    (bit b.seq 0 = true → bit b.seq 1 = false → h.peerCtx r = none → ∃ (t u : State) (h' : Heat),
      exec (.readyReply p b) s = .next t ∧ t = u.pumpAll ∧ u.heat c = some h' ∧ h'.id = h.id ∧
      h'.peerCtx r = some (BitVec.ofNat 12 (pAt b.data 24 2)) ∧ u.time = s.time ∧ u.hrt = s.hrt ∧ u.route = g.route))

/-- R39, R194, R250, R263, R309. The other billets of a heat: a new count of a BEACON is kept with its time, re-arms the watchdog and is
relayed, and a count that is not new changes no count; a PAUSED that a peer says of itself stops the flows to it; an ARRIVE of a
BARRIER is noted and re-arms; a RELEASE is noted, goes to the children, and with T = 0 releases the rank; a COUNTS billet gives the
count of its source, once, and one that breaks the block rule ends the heat with PLAN_INVALID. -/
def Obligations.HeatBillets : Prop :=
  (∀ (s : State) (p : PortId) (b : Billet) (c r : Nat) (h : Heat), b.kind = kBeacon → (b.key = 0 ∨ s.isSlag b = false) →
    s.beaconFlow b = some (c, h, r) →
    let o := pAt b.data 0 2
    let n : BitVec 16 := BitVec.ofNat 16 (pAt b.data 2 2)
    let g := (s.undeliver p b).cameBy p b
    (h.newCount o n = false → bit b.data 32 = false → exec (.beacon p b) s = .next g) ∧
    (h.newCount o n = false → bit b.data 32 = true →
      exec (.beacon p b) s = .next (g.modHeat c fun h => h.heed r o n)) ∧
    (h.newCount o n = true → ∃ (t u : State) (h' : Heat), exec (.beacon p b) s = .next t ∧
      t = (u.sendBeacons c o n (bit b.data 32) (some r)).pumpAll ∧ u.heat c = some h' ∧ h'.id = h.id ∧
      (h'.run.seen.find? fun e => e.1 = o) = some (o, n, s.time.now) ∧
      h'.run.wdog = (if h.run.wdogStopped then 0 else s.time.now) + h.run.periodUs * usPs ∧ h'.grp = h.grp ∧
      h'.dp = (if bit b.data 32 then (h.heed r o n).dp else h.dp) ∧ u.time = s.time ∧ u.hrt = s.hrt ∧ u.wld = s.wld)) ∧
  (∀ (h : Heat) (o : Nat) (n : BitVec 16), (h.newCount o n = true ∨ ∃ t, (o, n, t) ∈ h.run.seen) →
    h.heed o o n = { h with dp := { h.dp with outs := h.dp.outs.map fun f =>
      if o ∈ f.peers then { f with stopped := true } else f } }) ∧
  (∀ (h : Heat) (r o : Nat) (n : BitVec 16), r ≠ o → h.heed r o n = h) ∧
  (∀ (s : State) (p : PortId) (b : Billet) (c f : Nat) (h : Heat) (fi : FlowIn), b.kind = kBarrier →
    (b.key = 0 ∨ s.isSlag b = false) → s.inFlow b = some (c, f, h, fi) → h.id.d.kind = .barrier →
    let g := (s.undeliver p b).cameBy p b
    let full := (if h.run.wdogStopped then 0 else s.time.now) + h.run.periodUs * usPs
    (bit b.seq 0 = false → ∃ (t u : State) (h' : Heat), exec (.barrierArrive p b) s = .next t ∧ t = u.pumpAll ∧
      u.heat c = some h' ∧ h'.id = h.id ∧ fi.peer ∈ h'.grp.arrived ∧
      (∀ k, k ≠ fi.peer → (k ∈ h'.grp.arrived ↔ k ∈ h.grp.arrived)) ∧
      h'.run.wdog = full ∧ u.time = s.time ∧ u.hrt = s.hrt) ∧
    (bit b.seq 0 = true → h.grp.releaseT.isSome = true → exec (.barrierRelease p b) s = .next g) ∧
    (bit b.seq 0 = true → h.grp.releaseT = none → ∃ (t u : State) (h' : Heat), exec (.barrierRelease p b) s = .next t ∧
      t = u.pumpAll ∧ u.heat c = some h' ∧ h'.id = h.id ∧ h'.grp.releaseT = some (BitVec.ofNat 64 (pAt b.data 16 8)) ∧
      h'.run.wdog = full ∧
      (pAt b.data 16 8 = 0 → h'.grp.released = true ∧ h'.run.due = s.time.now + wakePs) ∧ u.time = s.time ∧ u.hrt = s.hrt ∧
      u = ((h.kids.foldl (fun (x : State) k => x.sendBarrier c k true b.data) (g.rearm c)).barrierRelease c
        (BitVec.ofNat 64 (pAt b.data 16 8))))) ∧
  (∀ (s : State) (c k : Nat) (h : Heat) (e : BitVec 16) (t : Nat) (d : Payload), s.heat c = some h → h.ep k = some e →
    h.tagTo k = some t →
    let x := h.billet e kBarrier 0 t 1 d
    (s.heldBack x = false → s.sendBarrier c k true d = s.inject x) ∧
    (s.heldBack x = true → s.sendBarrier c k true d = s.modHeat c fun y => { y with grp := { y.grp with ctl := y.grp.ctl ++ [x] } })) ∧
  (∀ (s : State) (p : PortId) (b : Billet) (c f : Nat) (h : Heat) (fi : FlowIn), b.kind = kCounts →
    (b.key = 0 ∨ s.isSlag b = false) → s.inFlow b = some (c, f, h, fi) → h.id.d.kind = .alltoall →
    let n := pAt b.data 0 4
    let g := (s.undeliver p b).cameBy p b
    (Tbl.get none h.dp.recvCnt fi.peer = none → n % h.pc.countSpan = 0 → exec (.counts p b) s =
      .next ((g.modHeat c fun h => { h with dp := { h.dp with
        recvCnt := Tbl.set none h.dp.recvCnt fi.peer (some n), recvLeft := h.dp.recvLeft - 1 } }).pumpAll)) ∧
    (Tbl.get none h.dp.recvCnt fi.peer = none → n % h.pc.countSpan ≠ 0 →
      exec (.counts p b) s = .next ((g.endHeat c .planInvalid).pumpAll)) ∧
    ((Tbl.get none h.dp.recvCnt fi.peer).isSome = true → exec (.counts p b) s = .next g.pumpAll))

/-- R206, R208, R209, R213, R306. A routed billet at ingress leaves the receive buffer, and its entry stays while a copy of it waits. One
whose key does not pass is dropped and counted at the port; one whose kind may not travel on its VC, one without a route and one
whose port is down are dropped and counted in RTE_DROP; one for another endpoint is queued at its output port, on the VC that the
entry's bits give; one for this engine waits for its kind's command. An entry of which no copy waits is free, and its credit is owed.

R216, R218. A billet of a circuit at ingress: with no entry for its port and label it is dropped; an entry with an output
forwards it under its own index; an entry that delivers gives it the tag that is bound, and drops it while none is bound; one that does
both does both. -/
def Obligations.Ingress : Prop :=
  (∀ (s : State) (p : PortId) (b : Billet), onCircuit b = true → exec (.billetIngress p b) s = .next s) ∧
  (∀ (s : State) (p : PortId) (b : Billet), onCircuit b = false → s.route.forceUntil = none →
    let u := s.unbuffer p b
    (s.keyPasses p b.key = false → exec (.billetIngress p b) s =
      .next ((u.modReg p fun r => { r with keyIn := satInc r.keyIn }).entered p).pumpAll) ∧
    (s.keyPasses p b.key = true → kindOnVc b = false → exec (.billetIngress p b) s = .next (u.dropKind.entered p).pumpAll) ∧
    (s.keyPasses p b.key = true → kindOnVc b = true → circuitHop b = true →
      exec (.billetIngress p b) s = .next ((u.deliver p b).entered p).pumpAll) ∧
    (s.keyPasses p b.key = true → kindOnVc b = true → circuitHop b = false →
      (s.lookup b.dest = .noroute → exec (.billetIngress p b) s = .next (u.dropNoroute.entered p).pumpAll) ∧
      (s.lookup b.dest = .portdown → exec (.billetIngress p b) s = .next (u.dropPortdown.entered p).pumpAll) ∧
      (∀ q dl nr, s.lookup b.dest = .out q dl nr → exec (.billetIngress p b) s =
        .next ((u.passOn p q { b with vc := nextVc b.vc dl nr }).entered p).pumpAll) ∧
      (s.lookup b.dest = .here → b.key ≠ 0 → s.isSlag b = true →
        exec (.billetIngress p b) s = .next (u.slagBillet.entered p).pumpAll) ∧
      (s.lookup b.dest = .here → (b.key = 0 ∨ s.isSlag b = false) → b.kind = kTelemetry →
        exec (.billetIngress p b) s = .next (u.entered p).pumpAll) ∧
      (s.lookup b.dest = .here → (b.key = 0 ∨ s.isSlag b = false) → b.kind ≠ kTelemetry →
        exec (.billetIngress p b) s = .next ((u.deliver p b).entered p).pumpAll))) ∧
  (∀ (s : State) (q : Nat) (b : Billet), ((s.queueOut q b).port q).tx.queue = (s.port q).tx.queue ++ [b] ∧
    (∀ k, k ≠ q → (s.queueOut q b).port k = s.port k) ∧ (s.queueOut q b).tab = s.tab) ∧
  (∀ (s : State) (p q : Nat) (b : Billet), ((s.passOn p q b).port q).tx.queue = (s.port q).tx.queue ++ [b] ∧
    ((s.passOn p q b).port p).rx = (s.port p).rx.note (some q, b) ∧ (s.passOn p q b).tab = s.tab) ∧
  (∀ (s : State) (p : Nat) (b : Billet), b ∉ (s.port p).rx.stale → b ∈ (s.port p).rx.buf →
    ((s.unbuffer p b).port p).rx = { (s.port p).rx with
      buf := (s.port p).rx.buf.erase b, ents := (s.port p).rx.ents ++ [{ pair := some (s.pairOfBillet b), outs := [] }] }) ∧
  (∀ (s : State) (p : Nat) (e : Ent), (s.port p).rx.ents.getLast? = some e →
    (e.outs ≠ [] → ((s.entered p).port p) = s.port p) ∧
    (e.outs = [] → ((s.entered p).port p).rx = (s.port p).rx.close e)) ∧
  nextVc 2 true false = 3 ∧ nextVc 4 true false = 5 ∧ nextVc 3 false true = 2 ∧ nextVc 5 false true = 4 ∧
  nextVc 3 true true = 3 ∧ nextVc 5 true true = 5 ∧
  (∀ (s : State) (p : PortId) (b : Billet), onCircuit b = false → exec (.circuitForward p b) s = .next s) ∧
  (∀ (s : State) (p : PortId) (b : Billet), onCircuit b = true → s.route.forceUntil = none → s.keyPasses p b.key = true →
    kindOnVc b = true →
    let u := s.unbuffer p b
    (s.circEntry p b = none → exec (.circuitForward p b) s = .next (u.dropNoroute.entered p).pumpAll) ∧
    (∀ i e q, s.circEntry p b = some (i, e) → e.deliver = false → e.out = some q → exec (.circuitForward p b) s =
      .next ((u.passOn p q.val { b with dest := BitVec.ofNat 16 i, vc := nextVc b.vc e.dateline e.newring }).entered p).pumpAll) ∧
    (∀ i e q t, s.circEntry p b = some (i, e) → e.deliver = true → e.tag = some t → (b.key = 0 ∨ s.isSlag b = false) →
      b.kind ≠ kTelemetry → e.out = some q → exec (.circuitForward p b) s =
      .next (((u.deliver p { b with tag := t }).passOn p q.val
        { b with dest := BitVec.ofNat 16 i, vc := nextVc b.vc e.dateline e.newring }).entered p).pumpAll) ∧
    (∀ i e t, s.circEntry p b = some (i, e) → e.out = none → e.tag = some t → (b.key = 0 ∨ s.isSlag b = false) →
      b.kind ≠ kTelemetry → exec (.circuitForward p b) s = .next ((u.deliver p { b with tag := t }).entered p).pumpAll) ∧
    (∀ i e, s.circEntry p b = some (i, e) → e.out = none → e.tag = none →
      exec (.circuitForward p b) s = .next (u.dropNoroute.entered p).pumpAll))

/-- R216, R217. A SETUP at a hop: at the destination of a live partition it takes an entry and is confirmed; on the way it takes an
entry and the lowest free slots of the output port, and goes on under the entry's index; with no entry free it is refused with
reason 2, with too few slots with reason 1, and reserves nothing. A RELEASE frees the entry that it names, with its slots, and
goes on under this engine's label; slag is dropped at its destination. A billet of another subtype changes nothing.

R26, R217, R250. CONFIRM and REFUSE at the source mark their PLAN_LOAD where they came by a degraded port: the last CONFIRM that a PLAN_LOAD waits for loads its plan and ends it with OK; a
REFUSE, or 1 ms without a reply, unloads what it has and ends it with NO_SLOTS; one that no PLAN_LOAD waits for is dropped. -/
def Obligations.Circuits : Prop :=
  (∀ (s : State) (p : PortId) (b : Billet), isCircuitSub b circSetup = true →
    let m := CircMsg.of b.data
    let u := s.undeliver p b
    (s.lookup m.dst = .here → s.isSlag b = true → exec (.circuitSetup p b) s = .next u.slagBillet.pumpAll) ∧
    (∀ i, s.lookup m.dst = .here → s.isSlag b = false → Tbl.free s.route.circ 1024 = some i →
      ∃ t v : State, exec (.circuitSetup p b) s = .next t ∧ t = (v.circuitReply m b circConfirm 0).pumpAll ∧
        v = { u with route := { u.route with circ := v.route.circ } } ∧ ∃ e, v.circ i = some e ∧ e.ingress = some p ∧
          e.out = none ∧ e.deliver = true ∧ e.key = b.key ∧ e.gen = b.gen ∧ e.srcEp = m.src ∧ e.dstEp = m.dst ∧
          e.upLabel = BitVec.ofNat 10 m.label ∧ e.digest = m.digest ∧ ∀ k, k ≠ i → v.circ k = s.circ k) ∧
    ((s.lookup m.dst = .here ∧ s.isSlag b = false ∨ ∃ q dl nr, s.lookup m.dst = .out q dl nr) →
      Tbl.free s.route.circ 1024 = none →
      exec (.circuitSetup p b) s = .next (u.circuitReply m b circRefuse 2).pumpAll) ∧
    (∀ q dl nr i, s.lookup m.dst = .out q dl nr → Tbl.free s.route.circ 1024 = some i → (s.freeSlots q m.w).length < m.w →
      exec (.circuitSetup p b) s = .next (u.circuitReply m b circRefuse 1).pumpAll) ∧
    (∀ q dl nr i, s.lookup m.dst = .out q dl nr → Tbl.free s.route.circ 1024 = some i → m.w ≤ (s.freeSlots q m.w).length →
      ∃ t v : State, exec (.circuitSetup p b) s = .next t ∧
        t = (v.sendOn p q b { b with data := { m with label := i }.data }).pumpAll ∧
        (∃ e, v.circ i = some e ∧ e.ingress = some p ∧ e.out.map (fun x => x.val) = some q ∧ e.slots = s.freeSlots q m.w ∧
          e.key = b.key ∧ e.gen = b.gen ∧ e.dateline = dl ∧ e.newring = nr ∧ (e.deliver = true ↔ m.kind = 5)) ∧
        (∀ k, k ≠ i → v.circ k = s.circ k) ∧ (∀ k ∈ s.freeSlots q m.w, Tbl.get 0 (v.port q).tx.wheel k = i + 1) ∧
        (∀ k, k ∉ s.freeSlots q m.w → Tbl.get 0 (v.port q).tx.wheel k = Tbl.get 0 (s.port q).tx.wheel k) ∧ v.tab = s.tab) ∧
    (s.lookup m.dst = .noroute → exec (.circuitSetup p b) s = .next u.dropNoroute.pumpAll) ∧
    (s.lookup m.dst = .portdown → exec (.circuitSetup p b) s = .next u.dropPortdown.pumpAll)) ∧
  (∀ (s : State) (p : PortId) (b : Billet) (i : Nat), isCircuitSub b circRelease = true →
    s.findCirc (CircMsg.of b.data) = some i →
    let u := s.undeliver p b
    (s.lookup (CircMsg.of b.data).dst = .here → s.isSlag b = true →
      exec (.circuitRelease p b) s = .next u.slagBillet.pumpAll) ∧
    (s.lookup (CircMsg.of b.data).dst = .here → s.isSlag b = false →
      exec (.circuitRelease p b) s = .next (u.freeCirc i).pumpAll) ∧
    (∀ q dl nr, s.lookup (CircMsg.of b.data).dst = .out q dl nr → exec (.circuitRelease p b) s =
      .next ((s.freeCirc i).sendOn p q b { b with data := { CircMsg.of b.data with label := i }.data }).pumpAll)) ∧
  (∀ (s : State) (p : PortId) (b : Billet) (q : Nat) (dl nr : Bool), isCircuitSub b circRelease = true →
    s.findCirc (CircMsg.of b.data) = none → s.lookup (CircMsg.of b.data).dst = .out q dl nr →
    exec (.circuitRelease p b) s = .next (s.sendOn p q b b).pumpAll) ∧
  (∀ (s : State) (p q : Nat) (b b' : Billet), p ≠ q → ((s.sendOn p q b b').port q).tx.queue = (s.port q).tx.queue ++ [b'] ∧
    ((s.sendOn p q b b').port p).rx.inbox = (s.port p).rx.inbox.erase b ∧ (s.sendOn p q b b').tab = s.tab) ∧
  (∀ (s : State) (i : Nat) (e : Circ), s.circ i = some e → (s.freeCirc i).circ i = none ∧
    (∀ k, k ≠ i → (s.freeCirc i).circ k = s.circ k) ∧ (s.freeCirc i).tab = s.tab ∧
    ∀ p, e.out = some p → ∀ k ∈ e.slots, Tbl.get 0 ((s.freeCirc i).port p.val).tx.wheel k = 0) ∧
  (∀ (s : State) (p : PortId) (b : Billet),
    (isCircuitSub b circSetup = false → exec (.circuitSetup p b) s = .next s) ∧
    (isCircuitSub b circRelease = false → exec (.circuitRelease p b) s = .next s) ∧
    (isCircuitSub b circConfirm = false → exec (.circuitConfirm p b) s = .next s) ∧
    (isCircuitSub b circRefuse = false → exec (.circuitRefuse p b) s = .next s)) ∧
  (∀ (s : State) (p : PortId) (b : Billet) (c : Nat) (h h0 : Heat) (pl : Plan), isCircuitSub b circConfirm = true →
    (b.key = 0 ∨ s.isSlag b = false) → s.loadFor b = some (c, h0) → s.heat c = some h → s.plan h.grp.planKey = some pl →
    let u : State := ((s.undeliver p b).cameBy p b).modHeat c fun x => { x with run := { x.run with
      confirms := (CircMsg.of b.data).req :: x.run.confirms } }
    ((∀ i ∈ pl.mine, i = (CircMsg.of b.data).req ∨ i ∈ h.run.confirms) → exec (.circuitConfirm p b) s =
      .next (((u.setPlan h.grp.planKey (some { pl with ready := true })).endHeat c .ok).pumpAll)) ∧
    ((∃ i ∈ pl.mine, i ≠ (CircMsg.of b.data).req ∧ i ∉ h.run.confirms) → exec (.circuitConfirm p b) s = .next u.pumpAll)) ∧
  (∀ (s : State) (p : PortId) (b : Billet) (c : Nat) (h h0 : Heat), isCircuitSub b circRefuse = true →
    (b.key = 0 ∨ s.isSlag b = false) → s.loadFor b = some (c, h0) → s.heat c = some h → h.grp.sentUp = true →
    exec (.circuitRefuse p b) s =
      .next (((((s.undeliver p b).cameBy p b).unloadPlan h.grp.planKey).endHeat c .noSlots).pumpAll)) ∧
  (∀ (s : State) (p : PortId) (b : Billet), (b.key = 0 ∨ s.isSlag b = false) → s.loadFor b = none →
    (isCircuitSub b circConfirm = true → exec (.circuitConfirm p b) s = .next ((s.undeliver p b).cameBy p b).pumpAll) ∧
    (isCircuitSub b circRefuse = true → exec (.circuitRefuse p b) s = .next ((s.undeliver p b).cameBy p b).pumpAll)) ∧
  (∀ (s : State) (c : BitVec 12) (h : Heat), s.heat c.toNat = some h → h.live = true → h.id.d.kind = .planLoad →
    h.grp.sentUp = true → exec (.circuitSetupTimeout c) s = .next
      ((((s.advanceTo h.run.due).unloadPlan h.grp.planKey).endHeat c.toNat .noSlots).pumpAll)) ∧
  (∀ (s : State) (k : Nat) (p : Plan), s.plan k = some p → (s.unloadPlan k).plan k = none)

/-- R264, R265, R267, R268, R271. (REQ and QUERY hold the sender's endpoint in payload bytes 40 and 41, and STATE holds LOCKED in SEQ[3]: the
model's choice, log 15.) Time: the first epoch pulse starts the counter at 2^20; a later one takes it to the nearest
multiple and counts a slip where it was off; the alignment frames begin at a multiple of 25 of the counter. A lead asks its
upstream every PERIOD_MS, counting an exchange that is still open as lost; a REQ is answered with RESP; times are those at
which the frames cross the PMA interface, received ones kept with the billet and sent ones put in when the frame goes; the RESP of the open exchange makes a correction for the second pulse from then: the whole of θ where it
exceeds 64, with LOCKED 0, else one unit; a member asks every ms; the STATE that answers names the pulse of the last correction that
waits, and the member takes the offset at that pulse, or at the next one.

R267. θ is half of (t2 − t1) − (t4 − t3) − ASYM, rounded toward zero. -/
def Obligations.TimeExchange : Prop :=
  (∀ (s : State), s.boot.porLow = false → s.time.running = false → s.time.pend = [] →
    let t : State := { s with time := { s.time with running := true, epochBase := 2 ^ 20, epochAt := s.time.now } }
    exec .epochPulse s = .next (if s.boot.state = .align then t.startFrames else t)) ∧
  (∀ (s : State), s.time.running = true → s.time.frame0 = none → ∃ f, s.startFrames.time.frame0 = some f ∧ s.time.now ≤ f ∧
    (s.time.epochAt ≤ f → (f - s.time.epochAt) % refPs = 0 ∧ (s.time.epochBase + (f - s.time.epochAt) / refPs) % 25 = 0) ∧
    s.startFrames = { s with time := { s.time with frame0 := some f } }) ∧
  (∀ (s : State), s.boot.porLow = false → s.time.running = true → s.time.pend = [] →
    (s.time.now - s.time.epochAt) % 6400 = 0 → s.time.epochAt ≤ s.time.now → ∃ t, exec .epochPulse s = .next t ∧
      t = { s with time := { s.time with epochBase := t.time.epochBase, epochAt := s.time.now, slip := t.time.slip } } ∧
      t.epoch.toNat % 2 ^ 20 = 0 ∧
      (s.epoch.toNat % 2 ^ 20 = 0 → t.epoch = s.epoch ∧ t.time.slip = s.time.slip) ∧
      (s.epoch.toNat % 2 ^ 20 ≠ 0 → t.time.slip = satInc s.time.slip)) ∧
  (∀ (s : State) (p : PortId) (b : Billet), b.kind = kTime → b.key = 0 →
    let u := (s.undeliver p b).cameBy p b
    let at_ := (u.receivedAt b).1
    let r := (u.receivedAt b).2
    (fieldN b.seq 0 3 = 0 → exec (.timeReq p b) s = .next (r.sendTimed (timeBillet (BitVec.ofNat 16 (pAt b.data 40 2)) 1 false
      [(pAt b.data 0 8, 0), (at_.toNat, 8), (s.machineTime.toNat, 16)]))) ∧
    (fieldN b.seq 0 3 = 1 → (s.time.role ≠ roleLead ∨ s.time.exch ≠ some (BitVec.ofNat 64 (pAt b.data 0 8))) →
      exec (.timeResp p b) s = .next r) ∧
    (fieldN b.seq 0 3 = 1 → s.time.role = roleLead → s.time.exch = some (BitVec.ofNat 64 (pAt b.data 0 8)) →
      let th := theta (BitVec.ofNat 64 (pAt b.data 0 8)) (BitVec.ofNat 64 (pAt b.data 8 8)) (BitVec.ofNat 64 (pAt b.data 16 8))
        at_ s.time.asym
      ∃ (t : State) (x : PendOff), exec (.timeResp p b) s = .next t ∧ t = { r with time := { r.time with
          exch := none, small := t.time.small, pend := s.time.pend ++ [x] } } ∧ x.left = 2 ∧
        x.offset = s.time.lastOffset + BitVec.ofInt 32 (if 64 < th.natAbs then th else th.sign) ∧
        (64 < th.natAbs → x.locked = some false ∧ t.time.small = 0) ∧
        (th.natAbs ≤ 2 → t.time.small = s.time.small + 1 ∧ (2 ≤ s.time.small → x.locked = some true))) ∧
    (fieldN b.seq 0 3 = 2 → s.time.role = roleMaster →
      exec (.timeQuery p b) s = .next (u.inject (timeBillet (BitVec.ofNat 16 (pAt b.data 40 2)) 3 true []))) ∧
    (fieldN b.seq 0 3 = 2 → s.time.role = roleLead → s.time.pend = [] → exec (.timeQuery p b) s = .next (u.inject
      (timeBillet (BitVec.ofNat 16 (pAt b.data 40 2)) 3 s.time.locked [((s.time.offset.signExtend 64).toNat, 24)]))) ∧
    (∀ x, fieldN b.seq 0 3 = 2 → s.time.role = roleLead → s.time.pend.getLast? = some x → exec (.timeQuery p b) s = .next (u.inject
      (timeBillet (BitVec.ofNat 16 (pAt b.data 40 2)) 3 s.time.locked [((x.offset.signExtend 64).toNat, 24),
        ((s.epoch.toNat / 2 ^ 20 + x.left) * 2 ^ 20 % 2 ^ 64, 32)]))) ∧
    (fieldN b.seq 0 3 = 3 → s.time.role = roleMember → ∃ t, exec (.timeState p b) s = .next t ∧
      t = { u with time := { s.time with locked := bit b.seq 3, pend := t.time.pend } } ∧
      t.time.lastOffset = BitVec.ofNat 32 (pAt b.data 24 4) ∧
      (t.time.pend.getLast?.map fun x => x.left) = some (max 1 (pAt b.data 32 8 / 2 ^ 20 - s.epoch.toNat / 2 ^ 20))) ∧
    (fieldN b.seq 0 3 = 3 → s.time.role ≠ roleMember → exec (.timeState p b) s = .next u)) ∧
  (∀ (s : State), s.time.role = roleLead → ∃ t u : State, exec .timeExchangePeriod s = .next t ∧
    t = u.sendTimed (timeBillet s.time.upstream 0 false [(u.machineTime.toNat, 0), (s.own.toNat, 40)]) ∧
    u = { s with time := { s.time with
      now := max s.time.now (s.time.exchAt + s.time.periodMs.toNat * msPs), exch := some u.machineTime, exchAt := u.time.now
      lost := if s.time.exch.isSome then satInc s.time.lost else s.time.lost } }) ∧
  (∀ (s : State), s.time.role = roleLead → s.time.exch.isSome = true → exec .timeRespTimeout s = .next { s with time := { s.time with
    now := max s.time.now (s.time.exchAt + msPs), exch := none, lost := satInc s.time.lost } }) ∧
  (∀ (s : State), s.time.role = roleMember → ∃ t u : State, exec .memberQueryPeriod s = .next t ∧
    t = u.inject (timeBillet s.time.upstream 2 false [(s.own.toNat, 40)]) ∧
    u = { s with time := { s.time with now := max s.time.now (s.time.exchAt + msPs), exchAt := u.time.now } }) ∧
  (∀ (s : State) (b : Billet),
    (∀ t, (b, t) ∈ s.time.stamps → (∀ x ∈ s.time.stamps, x.1 = b → x.2 = t) → (s.receivedAt b).1 = t) ∧
    ((∀ x ∈ s.time.stamps, x.1 ≠ b) → s.receivedAt b = (s.machineTime, s)) ∧
    (s.receivedAt b).2 = { s with time := { s.time with stamps := (s.receivedAt b).2.time.stamps } } ∧
    b ∈ (s.sendTimed b).time.unsent ∧ (b ∉ s.time.unsent → s.stamp b = b)) ∧
  (∀ (t : TimeSt) (x : PendOff), t.pend = [x] →
    (x.left = 1 → t.applyDue.offset = x.offset ∧ t.applyDue.pend = []) ∧
    (x.left = 2 → t.applyDue.offset = t.offset ∧ t.applyDue.pend = [{ x with left := 1 }])) ∧
  (∀ (s : State), s.time.role ≠ roleLead → exec .timeExchangePeriod s = .next s ∧ exec .timeRespTimeout s = .next s) ∧
  (∀ (s : State), s.time.role ≠ roleMember → exec .memberQueryPeriod s = .next s) ∧
  (∀ (t1 t2 t3 t4 : W64) (asym : BitVec 16), t1.toNat < 2 ^ 62 → t2.toNat < 2 ^ 62 → t3.toNat < 2 ^ 62 → t4.toNat < 2 ^ 62 →
     let d : Int := (t2.toNat - t1.toNat : Int) - (t4.toNat - t3.toNat : Int) - asym.toInt
     2 * (theta t1 t2 t3 t4 asym).natAbs = d.natAbs - d.natAbs % 2 ∧
     (0 ≤ d → 0 ≤ theta t1 t2 t3 t4 asym) ∧ (d ≤ 0 → theta t1 t2 t3 t4 asym ≤ 0))

/-- R257, R258, R259, R309, R396. A barrier object: the owner's arrival counts it, or is dropped and counted at 65,535; an arm sets the
target, and 0 makes the object clean; COUNT ≥ TARGET on an armed object releases it: COUNT falls by TARGET, ARMED is 0 and
RELEASES counts; a held object refuses an arm, counted; a write that is not the owner's is rejected and counted; a write with a reserved
bit is counted. (No heat uses the object here, and nothing is being recorded.)

R42, R260, R263, R269. A BARRIER heat whose release has woken its context ends with OK four tclk cycles later; in step it ends
when machine time reaches T × 10; a ROTATE heat that its object has released goes on with its next step. A context that no
release has woken stays. -/
def Obligations.Barriers : Prop :=
  (∀ (s : State) (rid : BitVec 16) (obj : BitVec 14) (v : W32), s.mgmtReady = true →
     let b := s.bar obj.toNat
     (∀ cause, s.barRefused rid obj.toNat = some cause → exec (.arrive rid obj v) s = .next (s.pickReject cause rid).pumpAll ∧
       exec (.arm rid obj v) s = .next (s.pickReject cause rid).pumpAll) ∧
     (s.barRefused rid obj.toNat = none → fieldN v 1 31 ≠ 0 → exec (.arrive rid obj v) s =
       .next ({ s with tng := { s.tng with barBadwr := satInc s.tng.barBadwr } }).pumpAll) ∧
     (s.barRefused rid obj.toNat = none → fieldN v 16 16 ≠ 0 → exec (.arm rid obj v) s =
       .next ({ s with tng := { s.tng with barBadwr := satInc s.tng.barBadwr } }).pumpAll) ∧
     (s.barRefused rid obj.toNat = none → s.trc.enable = false →
       (∀ e ∈ s.heatList, e.2.run.obj ≠ some obj.toNat) →
       (v = 1 → b.count ≠ 0xFFFF → (b.armed = false ∨ b.count.toNat + 1 < b.target.toNat) →
         exec (.arrive rid obj v) s = .next (s.setBar obj.toNat { b with count := b.count + 1 }).pumpAll) ∧
       (v = 1 → b.count ≠ 0xFFFF → b.armed = true → b.target.toNat ≤ b.count.toNat + 1 →
         exec (.arrive rid obj v) s = .next (s.setBar obj.toNat { b with
           count := b.count + 1 - b.target, armed := false, releases := b.releases + 1 }).pumpAll) ∧
       (v = 1 → b.count = 0xFFFF → exec (.arrive rid obj v) s =
         .next ({ s with tng := { s.tng with barOver := satInc s.tng.barOver } }).pumpAll) ∧
       (fieldN v 16 16 = 0 → b.held = true → exec (.arm rid obj v) s =
         .next ({ s with tng := { s.tng with barHeld := satInc s.tng.barHeld } }).pumpAll) ∧
       (v = 0 → b.held = false → exec (.arm rid obj v) s = .next (s.setBar obj.toNat Bar.clean).pumpAll) ∧
       (fieldN v 16 16 = 0 → v ≠ 0 → b.held = false → b.count.toNat < fieldN v 0 16 → exec (.arm rid obj v) s =
         .next (s.setBar obj.toNat { b with armed := true, target := field v 0 16 }).pumpAll) ∧
       (fieldN v 16 16 = 0 → v ≠ 0 → b.held = false → fieldN v 0 16 ≤ b.count.toNat → exec (.arm rid obj v) s =
         .next (s.setBar obj.toNat { b with
           count := b.count - field v 0 16, armed := false, target := field v 0 16, releases := b.releases + 1 }).pumpAll))) ∧
  (∀ (s : State) (c : BitVec 12) (h : Heat), s.heat c.toNat = some h → h.live = true → h.grp.released = true →
    h.id.d.kind = .barrier → exec (.barrierWake c) s = .next (((s.advanceTo h.run.due).endHeat c.toNat .ok).pumpAll)) ∧
  (∀ (s : State) (c : BitVec 12) (h : Heat), s.heat c.toNat = some h → h.live = true → h.grp.released = true →
    h.id.d.kind = .rotate → h.run.obj.isSome = true → h.dp.stepNo = h.dp.stepGo → h.dp.stepNo < h.id.w.steps →
    exec (.barrierWake c) s = .next (((s.advanceTo h.run.due).rotateNext c.toNat).pumpAll)) ∧
  (∀ (s : State) (c : BitVec 12), (∀ h, s.heat c.toNat = some h → h.grp.released = false) →
    exec (.barrierWake c) s = .next s) ∧
  (∀ (s : State) (c : BitVec 12) (h : Heat) (T : W64), s.heat c.toNat = some h → h.live = true → h.id.d.kind = .barrier →
    h.grp.released = false → h.grp.releaseT = some T → T ≠ 0 → s.time.running = true → T.toNat * 10 < 2 ^ 64 →
    ∃ t u : State, exec (.instepRelease c) s = .next t ∧ t = (u.endHeat c.toNat .ok).pumpAll ∧
      u = { s with
        time := { s.time with now := s.time.now + (T.toNat * 10 - s.machineTime.toNat) * 640 }, tab := u.tab } ∧
      u.heat c.toNat = some { h with grp := { h.grp with released := true } }) ∧
  (∀ (s : State) (c : BitVec 12) (h : Heat), s.heat c.toNat = some h → (h.grp.releaseT = none ∨ h.grp.releaseT = some 0) →
    exec (.instepRelease c) s = .next s)

/-! ### Ports (10) -/

/-- R239, R241, R250, R256. A write of LNK_CTL. REPROBE_MS 0 answers ERROR. ENABLE 1 on a DISABLED port begins a series of
attempts where its island is ready and otherwise wakes the island, for which the write waits, as it does for the gated island of an
UNUSED port (R387); ENABLE 0 disables a port that is out of service; PROBE begins a single attempt of
an ABSENT port; RESTORE takes an ACTIVE port of less than full width to RETRAIN, a sibling port for the width that
its adapter reports.

R210, R256. LNK_CREDIT_DATA sets the allotment of the pair that LNK_CREDIT_SEL selects, for the next training; where the allotments
of the routed and circuit data pairs would exceed 4,000 it is an ERROR and changes nothing. -/
def Obligations.LinkControl : Prop :=
  (∀ (s : State) (p : PortId) (v : W32), s.up → fieldN v 16 16 = 0 → ∀ cmd ∈ [Instr.linkEnable p v, .linkDisable p v,
    .linkProbe p v, .linkRestore p v], exec cmd s = .next (s.answer rspError 0).pumpAll) ∧
  (∀ (s : State) (p : PortId) (v : W32), s.up → fieldN v 16 16 ≠ 0 → bit v 0 = true → (s.port p.val).reg.st = .disabled →
    s.isReady (portIsland p.val) = true → ∃ t u : State, exec (.linkEnable p v) s = .next t ∧ t = u.pumpAll ∧
      (u.port p.val).reg = { (s.port p.val).reg with
        st := .detect, laneUse := 0, width := 0, attempt := 0, enable := true, reprobeMs := field v 16 16 } ∧
      (u.port p.val).tr.gap = false ∧ (u.port p.val).tr.single = false ∧ (u.port p.val).tr.since = s.time.now ∧
      (u.port p.val).tr.allot = (s.port p.val).tr.allot ∧ u.onlyPort s p.val ∧ u.power = s.power ∧
      u.ctl = { s.ctl with rspCode := rspOkay, rspData := 0 }) ∧
  (∀ (s : State) (p : PortId) (v : W32), s.up → fieldN v 16 16 ≠ 0 → bit v 0 = true → (s.port p.val).reg.st = .disabled →
    s.isReady (portIsland p.val) = false → ∃ t u : State, exec (.linkEnable p v) s = .next t ∧ t = u.pumpAll ∧
      (u.port p.val).reg = { (s.port p.val).reg with enable := true, reprobeMs := field v 16 16 } ∧
      u.power = { s.power with
        waking := s.power.waking ||| (maskOf (domainBits (portIsland p.val)) &&& ~~~ s.power.on)
        woken := s.power.woken ||| (maskOf (domainBits (portIsland p.val)) &&& ~~~ s.power.on) } ∧
      u.ctl = { s.ctl with ymbWait := some (.link p.val v) } ∧ u.onlyPort s p.val) ∧
  (∀ (s : State) (p : PortId) (v : W32), s.up → fieldN v 16 16 ≠ 0 → bit v 0 = true → (s.port p.val).reg.st = .unused →
    ∃ t u : State, exec (.linkEnable p v) s = .next t ∧ t = u.pumpAll ∧ u.onlyPort s p.val ∧
      (u.port p.val).reg = { (s.port p.val).reg with enable := true, reprobeMs := field v 16 16 } ∧
      if s.isOn (portIsland p.val) = true then u.power = s.power ∧ u.ctl = { s.ctl with rspCode := rspOkay, rspData := 0 }
      else u.power = { s.power with
          waking := s.power.waking ||| (maskOf (domainBits (portIsland p.val)) &&& ~~~ s.power.on)
          woken := s.power.woken ||| (maskOf (domainBits (portIsland p.val)) &&& ~~~ s.power.on) } ∧
        u.ctl = { s.ctl with ymbWait := some (.link p.val v) }) ∧
  (∀ (s : State) (p : PortId) (v : W32), s.up → fieldN v 16 16 ≠ 0 → bit v 0 = false → (s.port p.val).reg.st.inService = false →
    (s.port p.val).reg.st ≠ .unused → ∃ t u : State, exec (.linkDisable p v) s = .next t ∧ t = u.pumpAll ∧
      (u.port p.val).reg = { (s.port p.val).reg with
        st := .disabled, laneUse := 0, width := 0, enable := false, reprobeMs := field v 16 16 } ∧ u.onlyPort s p.val ∧
      u.ctl = { s.ctl with rspCode := rspOkay, rspData := 0 }) ∧
  (∀ (s : State) (p : PortId) (v : W32), s.up → fieldN v 16 16 ≠ 0 → bit v 0 = true → bit v 1 = true →
    (s.port p.val).reg.st = .absent → ∃ t u : State, exec (.linkProbe p v) s = .next t ∧ t = u.pumpAll ∧
      (u.port p.val).reg = { (s.port p.val).reg with
        st := .detect, laneUse := 0, width := 0, enable := true, reprobeMs := field v 16 16 } ∧
      (u.port p.val).tr.single = true ∧ (u.port p.val).tr.since = s.time.now ∧ u.onlyPort s p.val) ∧
  (∀ (s : State) (p : PortId) (v : W32), s.up → fieldN v 16 16 ≠ 0 → bit v 0 = true → bit v 2 = true →
    (s.port p.val).reg.st = .active → (s.port p.val).reg.width.toNat < 8 → p.val < 32 →
    ∃ t u : State, exec (.linkRestore p v) s = .next t ∧ t = u.pumpAll ∧ (u.port p.val).reg.st = .retrain ∧
      (u.port p.val).tr.restore = true ∧ (u.port p.val).tr.since = s.time.now ∧ (u.port p.val).tx.resend = [] ∧
      (∀ q, q ≠ p.val → u.port q = s.port q) ∧ u.route = s.route) ∧
  (∀ (s : State) (p : PortId) (v : W32), s.up → fieldN v 16 16 ≠ 0 → bit v 0 = true → bit v 2 = true →
    (s.port p.val).reg.st = .active → (s.port p.val).reg.width.toNat < 8 → 32 ≤ p.val →
    ∃ t u : State, exec (.linkRestore p v) s = .next t ∧ t = u.pumpAll ∧ (u.port p.val).reg.st = .retrain ∧
      (u.port p.val).tr.use = (if (s.port p.val).rx.x32 then 0x0F else 0xFF) ∧ (u.port p.val).tr.since = s.time.now ∧
      (∀ q, q ≠ p.val → u.port q = s.port q) ∧ u.route = s.route) ∧
  (∀ (s : State) (p : PortId) (v : W32), s.up →
     let r := (s.port p.val).reg
     let a := Tbl.set 0 (s.port p.val).tr.allot (4 + 32 * r.creditVc.toNat + r.creditClass.toNat) (field v 0 12)
     let sum := ((a.filter fun e => 4 ≤ e.1).map fun e => e.2.toNat).sum
     (sum ≤ 4000 → exec (.creditAllotWrite p v) s =
       .next ((s.modPort p.val fun x => { x with tr := { x.tr with allot := a } }).answer rspOkay 0)) ∧
     (4000 < sum → exec (.creditAllotWrite p v) s = .next (s.answer rspError 0)))

/-- R240 to R242, R255. Training of a link port. A phase that times out falls silent for 20 ms and counts the failure; then the next attempt
begins, or, after the third failure or a failed re-probe, the port is ABSENT with EVENT; an ABSENT port probes again after
REPROBE_MS. A good marker group on a lane with signal takes DETECT to ALIGN, and tells which lane it is. A word in ALIGN sets the lowest common lanes, and with both sides agreed IDENT begins; a chunk in CREDIT is kept;
at a period boundary with both sides READY the port is ACTIVE with counters and sequences at their start, the partner's
allotments as credits, the allotments that it sent in CREDIT itself as its own pools (R210), and, for a sibling port, the width that its
adapter reports then (R255).

R243 to R247. The cabling check, by a partner's word in IDENT. A partner that is not the planned one quarantines the port, with the reason
SELF, ELSEWHERE (and the port where it belongs) or FOREIGN; two ports that name each other are SWAPPED; a partner that says so
itself quarantines with reason 4; two MATCH verdicts lead to CREDIT. -/
def Obligations.Training : Prop :=
  (∀ (s : State) (p : PortId) (ms : Nat), s.linksRun = true → phaseMs (s.port p.val).reg.st = some ms →
    (s.port p.val).tr.gap = false → ∃ t u : State, exec (.trainPhaseTimeout p) s = .next t ∧ t = u.pumpAll ∧
      u.time.now = max s.time.now ((s.port p.val).tr.since + ms * msPs) ∧ (u.port p.val).tr.gap = true ∧
      (u.port p.val).tr.since = u.time.now ∧ (u.port p.val).reg.st = .detect ∧ (u.port p.val).reg.attempt =
        (if (s.port p.val).tr.single = true ∨ (s.port p.val).reg.attempt = 3 then (s.port p.val).reg.attempt
         else (s.port p.val).reg.attempt + 1) ∧ u.onlyPort s p.val) ∧
  (∀ (s : State) (p : PortId), s.linksRun = true → (s.port p.val).tr.gap = true → (s.port p.val).reg.st = .detect →
    ∃ t u : State, exec (.attemptGapEnd p) s = .next t ∧ t = u.pumpAll ∧ u.onlyPort s p.val ∧ (u.port p.val).tr.gap = false ∧
      u.time.now = max s.time.now ((s.port p.val).tr.since + 20 * msPs) ∧
      if (s.port p.val).tr.single = true ∨ (s.port p.val).reg.attempt = 3 then
        (u.port p.val).reg.st = .absent ∧ (u.port p.val).reg.event = true
      else (u.port p.val).reg.st = .detect ∧ (u.port p.val).tr.single = false) ∧
  (∀ (s : State) (p : PortId), s.linksRun = true → (s.port p.val).reg.st = .absent →
    ∃ t u : State, exec (.reprobeTimer p) s = .next t ∧ t = u.pumpAll ∧ u.onlyPort s p.val ∧
      (u.port p.val).reg.st = .detect ∧ (u.port p.val).tr.single = true ∧
      u.time.now = max s.time.now ((s.port p.val).tr.since + (s.port p.val).reg.reprobeMs.toNat * msPs)) ∧
  (∀ (s : State) (p : PortId) (w : BitVec 256) (x : TWord), s.linksRun = true → TWord.of w = some x → x.phase = 2 →
    (s.port p.val).reg.st = .align → (s.port p.val).tr.gap = false → ∃ t u : State, exec (.trainingWord p w) s = .next t ∧
      t = u.pumpAll ∧ u.onlyPort s p.val ∧
      let set := lowLanes ((s.port p.val).tr.ok &&& x.ok)
      (u.port p.val).reg.laneUse = set ∧ (u.port p.val).reg.width = BitVec.ofNat 4 (popcount set) ∧
      (u.port p.val).reg.st = (if set ≠ 0 ∧ x.use = set ∧ x.agreed = true then .ident else .align)) ∧
  (∀ (s : State) (p : PortId) (w : BitVec 256) (x : TWord), s.linksRun = true → TWord.of w = some x → x.phase = 4 →
    (s.port p.val).reg.st = .credit → (s.port p.val).tr.gap = false → x.chunk ≤ 10 → ∃ t u : State,
      exec (.trainingWord p w) s = .next t ∧ t = u.pumpAll ∧ u.onlyPort s p.val ∧ (u.port p.val).reg = (s.port p.val).reg ∧
      (u.port p.val).tr.partnerReady = x.ready ∧ bit (u.port p.val).tr.chunks x.chunk = true ∧
      (∀ j < 12, Tbl.get 0 (u.port p.val).tr.partnerAllot (12 * x.chunk + j) = x.allot.getD j 0) ∧
      ((u.port p.val).tr.sendReady = true ↔ (u.port p.val).tr.chunks = 0x7FF)) ∧
  (∀ (s : State) (p : PortId) (w : BitVec 256), TWord.of w = none → s.linksRun = true →
    exec (.trainingWord p w) s = .next s.pumpAll) ∧
  (∀ (s : State) (p : PortId), s.linksRun = true → (s.port p.val).reg.st = .credit → (s.port p.val).tr.sendReady = true →
    (s.port p.val).tr.partnerReady = true → ∀ r : PeriodIn, ∃ t u : State, exec (.periodBoundary p r) s = .next t ∧
      t = u.pumpAll ∧ u.onlyPort s p.val ∧ (u.port p.val).reg = { (s.port p.val).reg with
        st := .active, rtt := 0, corr := (u.port p.val).reg.corr, uncorr := (u.port p.val).reg.uncorr
        width := if 32 ≤ p.val then (if (s.port p.val).rx.x32 then 4 else 8) else (s.port p.val).reg.width } ∧
      (u.port p.val).rx.pools = (s.port p.val).tr.offer ∧ (u.port p.val).rx.part = [] ∧
      (u.port p.val).tx.nextSeq = 0 ∧ (u.port p.val).tx.kept = [] ∧ (u.port p.val).rx.e = 0 ∧
      (u.port p.val).tx.wheel = [] ∧ (u.port p.val).tx.queue = (s.port p.val).tx.queue ∧
      (u.port p.val).tx.credit = (s.port p.val).tr.partnerAllot.map (fun e => (e.1, e.2.toNat))) ∧
  (∀ (s : State) (p : PortId) (l : LanePeriod), s.linksRun = true → (s.port p.val).reg.st = .detect → p.val < 32 →
    (s.port p.val).tr.gap = false → (s.port p.val).reg.laneUse = 0 → bit (s.port p.val).tr.sig l.phy.toNat = true →
    let m := (decodePeriod l.words).marker l.phy.toNat ((s.port p.val).tr.laneOf l.phy.toNat)
    m.found = true → ∃ t u : State, exec (.periodBoundary p (.lanes [l])) s = .next t ∧ t = u.pumpAll ∧ u.onlyPort s p.val ∧
      (u.port p.val).reg.st = .align ∧ (u.port p.val).tr.laneOf l.phy.toNat = m.lane ∧
      (u.port p.val).reg.corr = satAdd (s.port p.val).reg.corr m.corr ∧
      (u.port p.val).reg.uncorr = satAdd (s.port p.val).reg.uncorr (m.bad.filter id).length) ∧
  (∀ (s : State) (p : Nat) (x : BitVec 16) (y : BitVec 6),
    (planPeer (s.port p).reg.plan = (x, y) → s.verdictOf p x y = (0, 0)) ∧
    (planPeer (s.port p).reg.plan ≠ (x, y) → x = s.own → s.verdictOf p x y = (3, 0)) ∧
    (planPeer (s.port p).reg.plan ≠ (x, y) → x ≠ s.own →
      (∀ q < 40, q ≠ p → bit (s.port q).reg.plan 31 = true → planPeer (s.port q).reg.plan ≠ (x, y)) →
      s.verdictOf p x y = (1, 0)) ∧
    (∀ q < 40, planPeer (s.port p).reg.plan ≠ (x, y) → x ≠ s.own → q ≠ p → bit (s.port q).reg.plan 31 = true →
      planPeer (s.port q).reg.plan = (x, y) →
      (∀ k < q, k ≠ p → bit (s.port k).reg.plan 31 = true → planPeer (s.port k).reg.plan ≠ (x, y)) →
      s.verdictOf p x y = (2, q))) ∧
  (∀ (s : State) (p : PortId) (w : BitVec 256) (x : TWord), s.linksRun = true → TWord.of w = some x → x.phase = 3 →
    (s.port p.val).reg.st = .ident → (s.port p.val).tr.gap = false → ∃ t u : State, exec (.trainingWord p w) s = .next t ∧
      t = u.pumpAll ∧ u.tab = s.tab ∧ u.route = s.route ∧ (u.port p.val).reg.peerValid = true ∧
      (u.port p.val).reg.peerId = x.id ∧ (u.port p.val).reg.peerPort = x.port ∧
      let v := s.verdictOf p.val x.id x.port
      (v = (0, 0) → x.verdict = 1 → (u.port p.val).reg.st = .credit) ∧
      (v = (0, 0) → x.verdict = 0 → (u.port p.val).reg.st = .ident) ∧
      (v = (0, 0) → x.verdict = 2 → (u.port p.val).reg.st = .quarantine ∧ (u.port p.val).reg.qreason = 4) ∧
      (v.1 ≠ 0 → (u.port p.val).reg.qreason = BitVec.ofNat 4 v.1 ∧ (u.port p.val).reg.event = true ∧
        ((u.port p.val).reg.st = .quarantine ∨ (u.port p.val).reg.st = .swapped)) ∧
      (v.1 = 2 → (s.port v.2).reg.st = .quarantine → (s.port v.2).reg.qreason = 2 → (s.port v.2).reg.other.toNat = p.val →
        (u.port p.val).reg.st = .swapped ∧ (u.port v.2).reg.st = .swapped))

/-- R239, R249, R251, R252, R255, R372. The ways in which a port in service is lost: 8 µs of RETRAIN, 20 µs without ACK progress while
frames are kept, 20 µs without a good frame, and the FDI of a sibling port out of its active states. Where no heat runs
the port and its circuits alone change; a heat with a circuit through the port, bound or not yet, ends with PORT_LOST. Once the actions are complete the port begins a new series.

R240, R241, R248, R249, R255, R372. Lanes. While the links do not run what the PHY or an adapter reports is kept (the model's choice,
log 50). The FDI of a sibling port in DETECT that becomes Active takes it to IDENT (what the FDI reports standing for the lanes' signal is
log 50 too); a lane in use of an ACTIVE port that loses its signal takes the port to
RETRAIN while another lane has signal; a change of an adapter's width retrains a port in service, which resumes at the width that the
adapter reports; a port out of service keeps its state. When frames resume a frame that the retrain cut off is discarded and counted, and a lane
that the sides have agreed to leave, and that fails then, does not start another retrain. -/
def Obligations.PortLoss : Prop :=
  (∀ (s : State) (p : PortId), s.linksRun = true → (s.port p.val).reg.st = .retrain → s.heatList = [] →
    ∃ t u : State, exec (.retrainTimeout p) s = .next t ∧ t = u.pumpAll ∧ u.portGone s p.val ∧ (u.port p.val).reg.st = .lost ∧
      (u.port p.val).reg.event = true ∧ u.time.now = max s.time.now ((s.port p.val).tr.since + 8 * usPs)) ∧
  (∀ (s : State) (p : PortId), s.linksRun = true → (s.port p.val).reg.st.inService = true → (s.port p.val).tx.kept ≠ [] →
    s.heatList = [] → ∃ t u : State, exec (.ackProgressTimeout p) s = .next t ∧ t = u.pumpAll ∧ u.portGone s p.val ∧
      (u.port p.val).reg.st = .lost ∧ u.time.now = max s.time.now ((s.port p.val).tx.progressAt + 20 * usPs)) ∧
  (∀ (s : State) (p : PortId), s.linksRun = true → (s.port p.val).reg.st.inService = true → s.heatList = [] →
    ∃ t u : State, exec (.rxSilenceTimeout p) s = .next t ∧ t = u.pumpAll ∧ u.portGone s p.val ∧
      (u.port p.val).reg.st = .lost ∧ u.time.now = max s.time.now ((s.port p.val).rx.lastGood + 20 * usPs)) ∧
  (∀ (s : State) (n : Fin 8) (st : FdiState), s.linksRun = true → (s.port (32 + n.val)).reg.st.inService = true →
    s.heatList = [] → st ≠ .active → st ≠ .retrain → ∃ t u : State, exec (.fdiStateChange n st) s = .next t ∧ t = u.pumpAll ∧
      u.portGone s (32 + n.val) ∧ (u.port (32 + n.val)).reg.st = .lost ∧ (u.port (32 + n.val)).tr.sig = 0) ∧
  (∀ (s : State) (p : PortId), s.linksRun = true → (s.port p.val).reg.st.inService = false →
    exec (.retrainTimeout p) s = .next s.pumpAll ∧ exec (.ackProgressTimeout p) s = .next s.pumpAll ∧
    exec (.rxSilenceTimeout p) s = .next s.pumpAll) ∧
  (∀ (s : State) (p : PortId), s.linksRun = true → (s.port p.val).reg.st = .lost → (s.port p.val).tr.sig = 0 →
    ∃ t u : State, exec (.portLossDone p) s = .next t ∧ t = u.pumpAll ∧ u.onlyPort s p.val ∧
      (u.port p.val).reg = { (s.port p.val).reg with st := .detect, laneUse := 0, width := 0, attempt := 0 }) ∧
  (∀ (s : State) (p : PortId) (c : Nat) (h : Heat), s.linksRun = true → (s.port p.val).reg.st.inService = true →
    s.heatList = [(c, h)] → s.heat c = some h → h.live = true → s.heatOver p.val h = true → h.id.d.kind ≠ .planLoad →
    ∃ (t u : State) (h' : Heat), exec (.rxSilenceTimeout p) s = .next t ∧ t = u.pumpAll ∧ u.heat c = some h' ∧ h'.id = h.id ∧
      h'.run.phase = .ended .portLost ∧ (u.port p.val).reg.st = .lost) ∧
  (∀ (s : State) (p : PortId) (lane : BitVec 3) (ok : Bool), s.linksRun = false → exec (.laneSignalChange p lane ok) s =
    .next (s.modPort p.val fun x => { x with tr := { x.tr with sig := putBit x.tr.sig lane.toNat ok } })) ∧
  (∀ (s : State) (p : PortId) (lane : BitVec 3), s.linksRun = true → (s.port p.val).reg.st = .active →
    bit (s.port p.val).reg.laneUse ((s.port p.val).tr.laneOf lane.toNat) = true → putBit (s.port p.val).tr.sig lane.toNat false ≠ 0 →
    ∃ t u : State, exec (.laneSignalChange p lane false) s = .next t ∧ t = u.pumpAll ∧ (u.port p.val).reg.st = .retrain ∧
      (u.port p.val).tr.sig = putBit (s.port p.val).tr.sig lane.toNat false ∧ (u.port p.val).tr.since = s.time.now ∧
      bit (u.port p.val).tr.marked lane.toNat = false ∧ (u.port p.val).tr.restore = false ∧
      (∀ q, q ≠ p.val → u.port q = s.port q) ∧ u.route = s.route) ∧
  (∀ (s : State) (p : PortId) (lane : BitVec 3), s.linksRun = true → (s.port p.val).reg.st = .detect → p.val < 32 →
    (s.port p.val).tr.gap = false → bit (s.port p.val).tr.marked lane.toNat = true →
    (s.port p.val).tr.laneOf lane.toNat < 8 → ∃ t u : State,
      exec (.laneSignalChange p lane true) s = .next t ∧ t = u.pumpAll ∧ (u.port p.val).reg.st = .align ∧
      (u.port p.val).tr.seen = true ∧ u.onlyPort s p.val) ∧
  (∀ (s : State) (n : Fin 8), s.linksRun = true → (s.port (32 + n.val)).reg.st = .detect → (s.port (32 + n.val)).tr.gap = false →
    ∃ t u : State, exec (.fdiStateChange n .active) s = .next t ∧ t = u.pumpAll ∧ (u.port (32 + n.val)).reg.st = .ident ∧
      (u.port (32 + n.val)).reg.laneUse = 0xFF ∧
      (u.port (32 + n.val)).reg.width = (if (s.port (32 + n.val)).rx.x32 then 4 else 8) ∧ u.onlyPort s (32 + n.val)) ∧
  (∀ (s : State) (n : Fin 8), s.linksRun = true → (s.port (32 + n.val)).reg.st = .active → ∃ t u : State,
    exec (.fdiStateChange n .retrain) s = .next t ∧ t = u.pumpAll ∧ (u.port (32 + n.val)).reg.st = .retrain) ∧
  (∀ (s : State) (n : Fin 8) (x : Bool), (s.port (32 + n.val)).reg.st.inService = true → (s.port (32 + n.val)).rx.x32 ≠ x →
    ∃ t u : State, exec (.sibX32Change n x) s = .next t ∧ t = u.pumpAll ∧ (u.port (32 + n.val)).rx.x32 = x ∧
      (u.port (32 + n.val)).reg.st = .retrain ∧ (u.port (32 + n.val)).tr.use = (if x then 0x0F else 0xFF) ∧
      (u.port (32 + n.val)).tr.sendAgreed = true ∧ (u.port (32 + n.val)).tr.partnerAgreed = true) ∧
  (∀ (s : State) (n : Fin 8) (x : Bool), (s.port (32 + n.val)).reg.st.inService = false → exec (.sibX32Change n x) s =
    .next (s.modPort (32 + n.val) fun y => { y with rx := { y.rx with x32 := x } }).pumpAll) ∧
  (∀ (s : State) (p : PortId), s.linksRun = true → (s.port p.val).reg.st = .retrain →
    (s.port p.val).tr.sendAgreed = true → (s.port p.val).tr.partnerAgreed = true → ∃ t u : State,
      exec (.periodBoundary p (.lanes [])) s = .next t ∧ t = u.pumpAll ∧ (u.port p.val).reg.st = .active ∧
      (u.port p.val).reg.laneUse = (s.port p.val).tr.use ∧
      (u.port p.val).reg.width = BitVec.ofNat 4 (popcount (s.port p.val).tr.use) ∧
      (u.port p.val).tx.resend = (s.port p.val).tx.kept.map (fun k => k.fseq) ∧ (u.port p.val).rx.part = [] ∧
      (u.port p.val).reg.discard =
        (if (s.port p.val).rx.part = [] then (s.port p.val).reg.discard else satInc (s.port p.val).reg.discard)) ∧
  (∀ (s : State) (p : PortId) (lane : BitVec 3), s.linksRun = true → (s.port p.val).reg.st = .retrain →
    (s.port p.val).tr.sendAgreed = true → (s.port p.val).tr.partnerAgreed = true →
    bit (s.port p.val).tr.use ((s.port p.val).tr.laneOf lane.toNat) = false → putBit (s.port p.val).tr.sig lane.toNat false ≠ 0 →
    ∃ t u : State, exec (.laneSignalChange p lane false) s = .next t ∧ t = u.pumpAll ∧ u.onlyPort s p.val ∧
      (u.port p.val).reg = (s.port p.val).reg ∧ (u.port p.val).tr.sendAgreed = true ∧ (u.port p.val).tr.partnerAgreed = true ∧
      (u.port p.val).tr.since = (s.port p.val).tr.since)

/-- R204, R209, R211, R235, R236, R255. A frame that arrives at a port in service. A bad one is discarded and counted, and loses a sibling
port; a good one acknowledges kept frames and brings credits; its billets enter the receive buffer, as far as it has entries for
them (4,096 in all, and those of their pair's pool), only where its FSEQ is the expected one, which then advances; a repeated or early one is discarded and counted; an idle one
brings no billets. A frame that the port has decoded from its lanes is received as one that is given.

R204, R213, R215, R235, R237. The frame that a port in service sends. A replay resends its next kept frame; with a full replay buffer
the frame is idle; otherwise it has four positions, each idle or a queued billet whose key passes, position 0 never a circuit's,
and none a circuit's in a slot that no circuit owns; the time of sending goes into a TIME billet; a frame that is not idle takes the next FSEQ and is kept. Its trailer is
intact, and the slot advances.

R237, R251, R279. REPLAY_WAIT of the oldest kept frame expires: every kept frame is to be resent, the replay is counted, and the heats
with a circuit through the port, bound or not yet, are marked; the 64th from
one FSEQ loses the port. With no frame kept nothing happens. -/
def Obligations.Frames : Prop :=
  (∀ (s : State) (p : PortId) (f : Frame), s.linksRun = true → (s.port p.val).reg.st.inService = false →
    exec (.frameReceive p (some f)) s = .next s.pumpAll) ∧
  (∀ (s : State) (p : PortId), s.linksRun = true → (s.port p.val).rx.frames = [] →
    exec (.frameReceive p none) s = .next s.pumpAll) ∧
  (∀ (s : State) (p : PortId) (f : Frame) (rest : List Frame), s.linksRun = true → (s.port p.val).rx.frames = f :: rest →
    exec (.frameReceive p none) s = exec (.frameReceive p (some f)) (s.modPort p.val fun x =>
      { x with rx := { x.rx with frames := rest } })) ∧
  (∀ (s : State) (p : PortId) (f : Frame), s.linksRun = true → (s.port p.val).reg.st.inService = true → frameGood f = false →
    p.val < 32 → exec (.frameReceive p (some f)) s = .next (s.modPort p.val fun x =>
      { x with reg := { x.reg with discard := satInc x.reg.discard } }).pumpAll) ∧
  (∀ (s : State) (p : PortId) (f : Frame), s.linksRun = true → (s.port p.val).reg.st.inService = true → frameGood f = false →
    32 ≤ p.val → s.heatList = [] → ∃ t u : State, exec (.frameReceive p (some f)) s = .next t ∧ t = u.pumpAll ∧ u.portGone s p.val ∧
      (u.port p.val).reg.st = .lost ∧ (u.port p.val).reg.discard = satInc (s.port p.val).reg.discard) ∧
  (∀ (s : State) (p : PortId) (f : Frame), s.linksRun = true → (s.port p.val).reg.st.inService = true → frameGood f = true →
    s.route.hold = none → s.route.forceUntil = none → ∃ t u : State, exec (.frameReceive p (some f)) s = .next t ∧ t = u.pumpAll ∧
      u.onlyPort s p.val ∧ (u.port p.val).rx.lastGood = s.time.now ∧
      (u.port p.val).tx.kept = (s.port p.val).tx.kept.filter (fun k => !acks f.ack k.fseq) ∧
      (u.port p.val).tx.queue = (s.port p.val).tx.queue ∧
      (∀ k, Tbl.get 0 (u.port p.val).tx.credit k = Tbl.get 0 (s.port p.val).tx.credit k +
        (if k = creditPair f.credit then fieldN f.credit 0 8 else 0)) ∧
      (frameIdle f.pos = true → (u.port p.val).rx.e = (s.port p.val).rx.e ∧ (u.port p.val).rx.buf = (s.port p.val).rx.buf ∧
        (u.port p.val).reg.discard = (s.port p.val).reg.discard) ∧
      (frameIdle f.pos = false → f.fseq = (s.port p.val).rx.e → (u.port p.val).rx.e = (s.port p.val).rx.e + 1 ∧
        (u.port p.val).reg.discard = (s.port p.val).reg.discard ∧
        ((s.port p.val).rx.occupied + f.pos.length ≤ 4096 →
          (∀ b ∈ f.pos, b.kind ≠ kIdle → ((s.port p.val).rx.buf.filter fun x => s.pairOfBillet x = s.pairOfBillet b).length +
            ((s.port p.val).rx.ents.filter fun e => e.pair = some (s.pairOfBillet b)).length + f.pos.length ≤
              (s.port p.val).rx.pool (s.pairOfBillet b)) →
          (u.port p.val).rx.buf = (s.port p.val).rx.buf ++ f.pos.filter (fun b => b.kind ≠ kIdle))) ∧
      (frameIdle f.pos = false → f.fseq ≠ (s.port p.val).rx.e → (u.port p.val).rx.e = (s.port p.val).rx.e ∧
        (u.port p.val).rx.buf = (s.port p.val).rx.buf ∧
        (u.port p.val).reg.discard = satInc (s.port p.val).reg.discard)) ∧
  (∀ (s : State) (p : PortId), s.linksRun = true → (s.port p.val).reg.st = .retrain →
    exec (.frameSend p) s = .next s.pumpAll) ∧
  (∀ (s : State) (p : PortId), s.linksRun = true → (s.port p.val).reg.st ≠ .active → (s.port p.val).reg.st ≠ .retrain →
    exec (.frameSend p) s = .next (s.setPort p.val { s.port p.val with
      tx := { (s.port p.val).tx with slotNow := (s.port p.val).tx.slotNow + 1 } }).pumpAll) ∧
  (∀ (s : State) (p : PortId) (f : BitVec 12) (rest : List (BitVec 12)) (k : Kept), s.linksRun = true →
    (s.port p.val).reg.st = .active → (s.port p.val).tx.resend = f :: rest →
    ((s.port p.val).tx.kept.find? fun k => k.fseq = f) = some k → ∃ (t u : State) (fr : Frame), exec (.frameSend p) s = .next t ∧
      t = u.pumpAll ∧ (∀ q, q ≠ p.val → u.port q = s.port q) ∧ u.hrt = s.hrt ∧ (u.port p.val).tx.last = some fr ∧ fr.pos = k.pos ∧ fr.fseq = f ∧
      frameGood fr = true ∧ fr.ack = (s.port p.val).rx.e - 1 ∧ (u.port p.val).tx.resend = rest ∧
      (u.port p.val).tx.queue = (s.port p.val).tx.queue ∧ (u.port p.val).tx.credit = (s.port p.val).tx.credit ∧
      (u.port p.val).tx.nextSeq = (s.port p.val).tx.nextSeq ∧
      (u.port p.val).tx.kept.map (fun k => (k.fseq, k.pos)) = (s.port p.val).tx.kept.map (fun k => (k.fseq, k.pos)) ∧
      (u.port p.val).tx.slotNow = (s.port p.val).tx.slotNow + 1) ∧
  (∀ (s : State) (p : PortId), s.linksRun = true → (s.port p.val).reg.st = .active → (s.port p.val).tx.resend = [] →
    replayRoom p.val ≤ (s.port p.val).tx.kept.length → ∃ (t u : State) (fr : Frame), exec (.frameSend p) s = .next t ∧
      t = u.pumpAll ∧ u.onlyPort s p.val ∧ (u.port p.val).tx.last = some fr ∧ frameIdle fr.pos = true ∧ frameGood fr = true ∧
      (u.port p.val).tx.queue = (s.port p.val).tx.queue ∧ (u.port p.val).tx.kept = (s.port p.val).tx.kept ∧
      (u.port p.val).tx.nextSeq = (s.port p.val).tx.nextSeq ∧ (u.port p.val).tx.credit = (s.port p.val).tx.credit) ∧
  (∀ (s : State) (p : PortId), s.linksRun = true → (s.port p.val).reg.st = .active → (s.port p.val).tx.resend = [] →
    (s.port p.val).tx.kept.length < replayRoom p.val → ∃ (t u : State) (fr : Frame), exec (.frameSend p) s = .next t ∧
      t = u.pumpAll ∧ (∀ q, q ≠ p.val → (u.port q).tx = (s.port q).tx ∧ (u.port q).reg = (s.port q).reg) ∧ u.hrt = s.hrt ∧
      (u.port p.val).tx.last = some fr ∧ fr.pos.length = 4 ∧
      frameGood fr = true ∧ fr.ack = (s.port p.val).rx.e - 1 ∧
      (u.port p.val).tx.slotNow = (s.port p.val).tx.slotNow + 1 ∧
      (∀ b ∈ fr.pos, b.kind ≠ kIdle → s.keyPasses p.val b.key = true ∧ ∃ b' ∈ (s.port p.val).tx.queue, b = s.stamp b') ∧
      (∀ b, fr.pos[0]? = some b → onCircuit b = false) ∧
      (Tbl.get 0 (s.port p.val).tx.wheel (s.port p.val).tx.slotNow.toNat = 0 → ∀ b ∈ fr.pos, onCircuit b = false) ∧
      (frameIdle fr.pos = true → (u.port p.val).tx.kept = (s.port p.val).tx.kept ∧
        (u.port p.val).tx.nextSeq = (s.port p.val).tx.nextSeq) ∧
      (frameIdle fr.pos = false → fr.fseq = (s.port p.val).tx.nextSeq ∧
        (u.port p.val).tx.nextSeq = (s.port p.val).tx.nextSeq + 1 ∧ (u.port p.val).tx.kept =
          (s.port p.val).tx.kept ++ [{ fseq := fr.fseq, pos := fr.pos, sentAt := s.time.now }])) ∧
  (∀ (s : State) (p : PortId), s.linksRun = true → ((s.port p.val).tx.kept = [] ∨ (s.port p.val).reg.st ≠ .active) →
    exec (.replayTimeout p) s = .next s.pumpAll) ∧
  (∀ (s : State) (p : PortId) (k : Kept) (rest : List Kept), s.linksRun = true → (s.port p.val).reg.st = .active →
    (s.port p.val).tx.kept = k :: rest → (∀ n, (s.port p.val).tx.replayFseq = some (k.fseq, n) → n < 63) →
    ∃ t u : State, exec (.replayTimeout p) s = .next t ∧ t = u.pumpAll ∧ (∀ q, q ≠ p.val → u.port q = s.port q) ∧
      u.hrt = s.hrt ∧ u.route = s.route ∧
      (∀ c h, s.heat c = some h → ∃ h', u.heat c = some h' ∧ h'.id = h.id ∧ h'.dp = h.dp ∧
        (s.heatOver p.val h = true → h'.run.timing = true)) ∧
      u.time.now = max s.time.now (k.sentAt + (s.port p.val).replayWait p.val) ∧
      (u.port p.val).tx.resend = k.fseq :: rest.map (fun y => y.fseq) ∧
      (u.port p.val).reg = { (s.port p.val).reg with replays := satInc (s.port p.val).reg.replays } ∧
      (u.port p.val).tx.kept = k :: rest) ∧
  (∀ (s : State) (p : PortId) (k : Kept) (rest : List Kept), s.linksRun = true → (s.port p.val).reg.st = .active →
    (s.port p.val).tx.kept = k :: rest → (s.port p.val).tx.replayFseq = some (k.fseq, 63) → s.heatList = [] →
    ∃ t u : State, exec (.replayTimeout p) s = .next t ∧ t = u.pumpAll ∧ u.portGone s p.val ∧ (u.port p.val).reg.st = .lost)

/-- R199, R204, R231, R232, R234, R240. How a lane carries a port (which bit of the register the scrambler puts out, the place of the payload in
the low bits of a codeword, and the symbols and syndromes of its code are the model's presumption, log 58): what the scrambler has scrambled it gives back; a codeword begins with its payload
and has 5,440 bits; symbols whose syndromes are all zero stand as received, and nothing is corrected; a marker group is read back,
with its lane, LANE_USE, PERIOD and 32 audits; a frame's 296 bytes are read back as the frame, and a billet's 72 as the billet; a lane port in training sends its groups on all 8 lanes. -/
def Obligations.LaneCoding : Prop :=
  (∀ ws : List (BitVec 256), scramble (scramble ws) = ws) ∧
  (∀ n, n < 2 ^ 5140 → rsEncode n % 2 ^ 5140 = n ∧ rsEncode n < 2 ^ 5440) ∧
  (∀ r : List Nat, (∀ x ∈ rsSyndromes r, x = 0) → rsDecode r = some (r, 0)) ∧
  (∀ (phy lane : Nat) (use : Byte) (period : BitVec 16) (as : List Audit), lane < 8 → as.length = 32 →
    (markerGroup lane use period as).length = 5 ∧ readGroup phy (markerGroup lane use period as) =
      some { phy := phy, lane := lane, found := true, laneUse := use, period := period, audits := as, corr := 0, bad := [] }) ∧
  (∀ f : Frame, f.pos.length = 4 → f.fecBad = false →
    (frameBytes f).length = 296 ∧ frameOf ((frameBytes f).map fun b => (b, false)) = f) ∧
  (∀ b : Billet, (billetBytes b).length = 72 ∧ billetOf (billetBytes b) = b) ∧
  (∀ (fs : List Frame) (bs : List (Byte × Bool)), (∀ f ∈ fs, f.pos.length = 4 ∧ f.fecBad = false) → bs.length < 296 →
    cutFrames (fs.length + 1) ((fs.flatMap frameBytes).map (fun b => (b, false)) ++ bs) = (fs, bs)) ∧
  (∀ (x : Port) (p : Nat), p < 32 → x.tr.gap = false → x.reg.st ∈ [.detect, .align, .ident, .credit] →
    (x.groupsSent p).length = 8)

/-! ### Arithmetic of Anvil and the converters (03, 04, 06) -/

/-- R67 to R74. Additions of FP32 without assay. A sum of magnitude `mag` below the threshold (2^25 - 1) × 2^103 rounds, under RNE, to the nearest
value, of two nearest to the one whose last bit is 0; under RTZ to the greatest not above it; under SR to RTZ's encoding or the next one, as the draw
added to the first 16 discarded bits carries; at or above the threshold every mode gives infinity with OVERFLOW and INEXACT. INEXACT says that something
was discarded. An addition is exact where the sum is an FP32 value; a NaN, or infinities of opposite sign, give the default NaN; the order of
the two operands does not matter. The draw of Sparks is what R72's four rounds leave, and each round of an odd constant tells apart the words that it
absorbs.

R89 to R91, R95, R100 to R103, R105, R109. Conversions. A code of a floating element format is what its sign and magnitude encode; a value below the overflow
threshold rounds under RNE to the nearest finite value of the format; at the threshold and above it is R102's code; a value that has been
expanded converts back into its own code without a flag. The shared scale puts every element of its block below the second power of two above the format's
greatest binade, and one of them into that binade, unless it is clamped; a NaN makes it 0xFF. INT32 values of up to 24 bits expand exactly, and so do INT4 elements of scale
1.0.

R140 to R145. The merge of softmax. A multiply-add of finite operands is rounded once, under RNE: no FP32 value is nearer than its result. An exact one, and
an exact quotient, are given without a flag. The table of exp holds the integers nearest to 2^62 × 2^(j/64); exp(0) is 1.0 without a flag, -∞ gives 0, from 160 on it is
infinity, down from -160 it is 0. A merge takes the greater maximum and scales each side by exp of its distance from it; with equal maxima it adds; a NaN maximum makes
the row NaN. -/
def Obligations.AnvilArithmetic : Prop :=
  (∀ (neg : Bool) (mag : Nat) (u : BitVec 16), 0 < mag → mag < (2 ^ 25 - 1) * 2 ^ 252 →
    let n := (roundFp32 neg mag .rne u).1
    let z := (roundFp32 neg mag .rtz u).1
    let sh := mag.log2 - 23
    expOf n ≠ 255 ∧ signOf n = neg ∧ expOf z ≠ 255 ∧ signOf z = neg ∧ magOf z ≤ mag ∧
      (∀ x : W32, expOf x ≠ 255 → ((magOf n : Int) - mag).natAbs ≤ ((magOf x : Int) - mag).natAbs) ∧
      (∀ x : W32, expOf x ≠ 255 → signOf x = neg → x ≠ n →
        ((magOf n : Int) - mag).natAbs = ((magOf x : Int) - mag).natAbs → bit n 0 = false) ∧
      (∀ x : W32, expOf x ≠ 255 → magOf x ≤ mag → magOf x ≤ magOf z) ∧
      (roundFp32 neg mag .sr u).1 = (if 2 ^ 16 ≤ mag % 2 ^ sh * 2 ^ 16 / 2 ^ sh + u.toNat then z + 1 else z) ∧
      ∀ mode : Rnd, ((roundFp32 neg mag mode u).2.inexact = true ↔ mag % 2 ^ sh ≠ 0) ∧
        ((roundFp32 neg mag mode u).2.overflow = true ↔ expOf (roundFp32 neg mag mode u).1 = 255)) ∧
  (∀ (neg : Bool) (mag : Nat) (mode : Rnd) (u : BitVec 16), (2 ^ 25 - 1) * 2 ^ 252 ≤ mag →
    roundFp32 neg mag mode u = (if neg then negInf else posInf, Flags.ovf)) ∧
  (∀ (a b : W32) (mode : Rnd) (u : BitVec 16), anvilAdd a b mode u = anvilAdd b a mode u) ∧
  (∀ (a b : W32) (mode : Rnd) (u : BitVec 16), isNan a = true ∨ isNan b = true →
    anvilAdd a b mode u = (nanW, Flags.inv (isSnan a || isSnan b))) ∧
  (∀ (b : W32) (mode : Rnd) (u : BitVec 16), isNan b = false →
    anvilAdd posInf b mode u = (if b = negInf then (nanW, Flags.inv true) else (posInf, Flags.none)) ∧
    anvilAdd negInf b mode u = (if b = posInf then (nanW, Flags.inv true) else (negInf, Flags.none))) ∧
  (∀ (a b : W32) (mode : Rnd) (u : BitVec 16), expOf a ≠ 255 → expOf b ≠ 255 →
    (fixed a + fixed b = 0 → anvilAdd a b mode u = (if a = negZero ∧ b = negZero then negZero else 0, Flags.none)) ∧
    (fixed a + fixed b ≠ 0 → anvilAdd a b mode u = roundFp32 (fixed a + fixed b < 0) (fixed a + fixed b).natAbs mode u) ∧
    ∀ c : W32, expOf c ≠ 255 → fixed c ≠ 0 → fixed a + fixed b = fixed c → anvilAdd a b mode u = (c, Flags.none)) ∧
  (∀ (seed : W64) (elem node : W32) (j : BitVec 5), sparks seed elem node j =
    let s := seed ^^^ (j.setWidth 64 <<< 59)
    let h : W64 := ([(s &&& 0xFFFFFFFF, 0x9C5D27F3B84E61A5, 31), (s >>> 32, 0xE3A16C0B47D9F215, 29),
      (elem.setWidth 64, 0x5B2FD8E493C70A6D, 32), (node.setWidth 64, 0xA7C41F5E6B38D29B, 27)] : List (W64 × W64 × Nat)).foldl
      (fun (h : W64) (x : W64 × W64 × Nat) => ((h ^^^ x.1) * x.2.1) ^^^ (((h ^^^ x.1) * x.2.1) >>> x.2.2)) 0x4D19C7E02B86F35A
    field h 48 16) ∧
  (∀ (h k w w' : W64) (sh : Nat), bit k 0 = true → 0 < sh → w ≠ w' → sparksRound h w k sh ≠ sparksRound h w' k sh) ∧
  anvilAdd 0x7F7FFFFF 0x72800000 .rtz 0 = (0x7F7FFFFF, Flags.inex true) ∧
  anvilAdd 0x7F7FFFFF 0x73000000 .rtz 0 = (posInf, Flags.ovf) ∧
  anvilAdd 0x3F800000 0x33C00000 .sr 0x3FFF = (0x3F800000, Flags.inex true) ∧
  anvilAdd 0x3F800000 0x33C00000 .sr 0x4000 = (0x3F800001, Flags.inex true) ∧
  (∀ f ∈ [Fmt.bf16, .fp16, .e4m3, .e5m2, .e3m2, .e2m3, .e2m1], ∀ c < 2 ^ f.bits, f.encode (f.decode c).1 (f.decode c).2 = c) ∧
  (∀ f ∈ [Fmt.bf16, .fp16, .e4m3, .e5m2, .e3m2, .e2m3, .e2m1], ∀ (neg : Bool) (mag k : Nat) (ovf : Ovf) (u : BitVec 16), 0 < mag →
    (f.ovt2 neg * 2 ^ k ≤ 2 * mag → ∀ mode : Rnd, roundNarrow f neg mag (f.qe - k) mode ovf u = f.overflowCode neg ovf) ∧
    (2 * mag < f.ovt2 neg * 2 ^ k →
      let r := roundNarrow f neg mag (f.qe - k) .rne ovf u
      (f.decode r.1).1 = neg ∧ (f.decode r.1).2 ≤ f.maxv neg ∧
      (r.2 = Flags.none ↔ (f.decode r.1).2 * 2 ^ k = mag) ∧
      ∀ c < 2 ^ f.bits, (f.decode c).2 ≤ f.maxv neg →
        (((f.decode r.1).2 * 2 ^ k : Int) - mag).natAbs ≤ (((f.decode c).2 * 2 ^ k : Int) - mag).natAbs)) ∧
  (∀ neg : Bool, let s : Nat := if neg then 1 else 0
    Fmt.overflowCode .bf16 neg .sat = (2 ^ 15 * s + 0x7F7F, Flags.sat) ∧ Fmt.overflowCode .bf16 neg .ieee = (2 ^ 15 * s + 0x7F80, Flags.ovf) ∧
    Fmt.overflowCode .fp16 neg .sat = (2 ^ 15 * s + 0x7BFF, Flags.sat) ∧ Fmt.overflowCode .fp16 neg .ieee = (2 ^ 15 * s + 0x7C00, Flags.ovf) ∧
    Fmt.overflowCode .e5m2 neg .sat = (2 ^ 7 * s + 0x7B, Flags.sat) ∧ Fmt.overflowCode .e5m2 neg .ieee = (2 ^ 7 * s + 0x7C, Flags.ovf) ∧
    Fmt.overflowCode .e4m3 neg .sat = (2 ^ 7 * s + 0x7E, Flags.sat) ∧
    Fmt.overflowCode .e4m3 neg .ieee = (0x7F, { invalid := true, overflow := true, inexact := true }) ∧
    ∀ ovf : Ovf, Fmt.overflowCode .e3m2 neg ovf = (2 ^ 5 * s + 0x1F, Flags.sat) ∧ Fmt.overflowCode .e2m3 neg ovf = (2 ^ 5 * s + 0x1F, Flags.sat) ∧
      Fmt.overflowCode .e2m1 neg ovf = (2 ^ 3 * s + 0x7, Flags.sat) ∧
      Fmt.overflowCode .mxint8 neg ovf = (if neg then 0x81 else 0x7F, Flags.sat) ∧
      Fmt.overflowCode .int32 neg ovf = (if neg then 0x80000000 else 0x7FFFFFFF, Flags.sat)) ∧
  (∀ f ∈ [Fmt.bf16, .fp16], ∀ c < 2 ^ 16, isNan16 f c = false → ∀ (mode : Rnd) (ovf : Ovf) (u : BitVec 16),
    (expand16 f c).2 = Flags.none ∧ narrowElem f 0x7F (expand16 f c).1 mode ovf u = (c, Flags.none)) ∧
  (∀ f ∈ [Fmt.e4m3, .e5m2, .e3m2, .e2m3, .e2m1, .mxint8], ∀ c < 2 ^ f.bits, mxNan f c = false → (f = .mxint8 → c ≠ 128) → ∀ s ≤ 127,
    ∀ (mode : Rnd) (ovf : Ovf) (u : BitVec 16),
    (expandMx f s c).2 = Flags.none ∧ narrowElem f s (expandMx f s c).1 mode ovf u = (c, Flags.none)) ∧
  (∀ (f : Fmt) (v : List W32), f.isMx = true → ((∃ x ∈ v, isNan x = true) → sharedScale f v = 0xFF) ∧
    ((∀ x ∈ v, isNan x = false) → (∃ x ∈ v, isInf x = false ∧ isZero x = false) → sharedScale f v ≤ 254 ∧
      (sharedScale f v < 254 → ∀ x ∈ v, isInf x = false → (magOf x : Int) < 2 ^ ((sharedScale f v : Int) + f.emax + 23).toNat) ∧
      (0 < sharedScale f v → ∃ x ∈ v, isInf x = false ∧ 2 ^ ((sharedScale f v : Int) + f.emax + 22).toNat ≤ (magOf x : Int)))) ∧
  (∀ v : Int, v.natAbs ≤ 2 ^ 24 → expOf (int32ToFp v).1 ≠ 255 ∧ fixed (int32ToFp v).1 = v * 2 ^ 149 ∧ (int32ToFp v).2 = Flags.none) ∧
  (∀ (zp q : Nat) (ovf : Ovf), zp < 16 → q < 16 → (int4Szp 0x3F800000 zp q ovf).2 = Flags.none ∧
    fixed (expandMx .e4m3 127 (int4Szp 0x3F800000 zp q ovf).1).1 = ((q : Int) - zp) * 2 ^ 149) ∧
  (∀ x y z : W32, expOf x ≠ 255 → expOf y ≠ 255 → expOf z ≠ 255 →
    let s := fixed x * fixed y + fixed z * 2 ^ 149
    (s ≠ 0 → s.natAbs < (2 ^ 25 - 1) * 2 ^ 252 * 2 ^ 149 → expOf (anvilFma x y z).1 ≠ 255 ∧
      (∀ c : W32, expOf c ≠ 255 → (fixed (anvilFma x y z).1 * 2 ^ 149 - s).natAbs ≤ (fixed c * 2 ^ 149 - s).natAbs) ∧
      ((anvilFma x y z).2.inexact = true ↔ fixed (anvilFma x y z).1 * 2 ^ 149 ≠ s)) ∧
    (∀ c : W32, expOf c ≠ 255 → fixed c ≠ 0 → fixed c * 2 ^ 149 = s → anvilFma x y z = (c, Flags.none)) ∧
    ((2 ^ 25 - 1) * 2 ^ 252 * 2 ^ 149 ≤ s.natAbs → anvilFma x y z = (if s < 0 then negInf else posInf, Flags.ovf))) ∧
  (∀ x y c : W32, expOf x ≠ 255 → expOf y ≠ 255 → expOf c ≠ 255 → fixed y ≠ 0 → fixed c ≠ 0 → fixed x * 2 ^ 149 = fixed c * fixed y →
    anvilDiv x y = (c, Flags.none)) ∧
  (∀ x y : W32, isNan x = false → isNan y = false → isZero y = true → (isZero x = true → anvilDiv x y = (nanW, Flags.inv true)) ∧
    (isZero x = false → isInf x = false → anvilDiv x y = (if signOf x = signOf y then posInf else negInf, { overflow := true }))) ∧
  (∀ j < 64, (2 * expTbl j - 1) ^ 64 ≤ 2 ^ (63 * 64 + j) ∧ 2 ^ (63 * 64 + j) < (2 * expTbl j + 1) ^ 64) ∧
  (∀ x : W32, isZero x = true → anvilExp x = (0x3F800000, Flags.none)) ∧
  (∀ x : W32, isNan x = true → anvilExp x = (nanW, Flags.inv (isSnan x))) ∧ anvilExp negInf = (0, Flags.none) ∧
  anvilExp posInf = (posInf, Flags.none) ∧
  (∀ x : W32, expOf x ≠ 255 → (160 * 2 ^ 149 ≤ fixed x → anvilExp x = (posInf, Flags.ovf)) ∧
    (fixed x ≤ -(160 * 2 ^ 149) → anvilExp x = (0, Flags.inex true))) ∧
  (∀ (m l m2 l2 : W32) (o o2 : List W32), isNan m = false → isNan m2 = false →
    let mn := (anvilMax m m2).1
    let part (x : W32) : W32 := (anvilExp (if x = mn then 0 else (anvilAdd x (mn ^^^ 0x80000000) .rne 0).1)).1
    (softmaxMerge m l o m2 l2 o2).1 = (mn, (anvilFma l2 (part m2) (anvilMul l (part m)).1).1,
      List.zipWith (fun y x => (anvilFma y (part m2) (anvilMul x (part m)).1).1) o2 o) ∧
    (part m = 0x3F800000 ∨ part m2 = 0x3F800000)) ∧
  (∀ (m l l2 : W32) (o o2 : List W32), isNan m = false →
    (softmaxMerge m l o m l2 o2).1 = (m, (anvilAdd l2 l .rne 0).1, List.zipWith (fun y x => (anvilAdd y x .rne 0).1) o2 o)) ∧
  (∀ (m l m2 l2 : W32) (o o2 : List W32), isNan m = true ∨ isNan m2 = true →
    (softmaxMerge m l o m2 l2 o2).1 = (nanW, nanW, o.map fun _ => nanW))

/-! ### Weld, memory, timers, Trace (08, 09, 12, 13) -/

/-- R185, R361. Weld grants the next elements of a running heat's inbound stream, at most one staging half, while fewer than two grants
are open and the half is free; before boot is DONE no beat is taken; a beat brings its elements; a beat of a late grant is discarded, the last one ending the grant; a beat of no live
tag is counted; an outbound beat that transfers commits its elements, and its port is free.

R186, R193, R306, R307, R364, R383. A memory response frees its tag; where all were in use, streams that wait for one are served in turn. For a live heat's stream: OKAY brings a read's bytes or
accepts a write's, and an accepted write re-arms the watchdog; an error counts and ends the heat with XLATE_FAIL; the data of a read that a pause has overtaken is
discarded. A response to an abandoned read is slag and counted. A fetched descriptor is cached; a tag that is free has no
effect. -/
def Obligations.StreamsAndMemory : Prop :=
  (∀ (s : State) (c : BitVec 12) (h : Heat) (i : Nat) (x : Stream), s.heat c.toNat = some h → h.weldIn = some i →
    h.dp.streams[i]? = some x → h.run.phase = .run → h.paused = false → x.wait ≠ .done → x.wait ≠ .staging → x.staged = true → x.beats.length < 2 →
    x.granted < x.weldUnits → x.grantFits (h.taken x) = true → s.lateOf x.place = false →
    let y : Stream := { x with granted := x.granted + x.grantUnits, beats := x.beats ++ [x.grantUnits] }
    exec (.weldGrant c) s = .next (s.setHeat c.toNat (some { h with dp := { h.dp with streams := h.dp.streams.set i y } }))) ∧
  (∀ (s : State) (c : BitVec 12), (∀ h, s.heat c.toNat = some h → h.weldIn = none ∨ h.run.phase ≠ .run ∨ h.paused = true) →
    exec (.weldGrant c) s = .next s) ∧
  (∀ (s : State) (port : BitVec 5) (tag : BitVec 16) (d : BitVec 1024) (m : W32) (last : Bool) (n : Nat)
    (rest : List (BitVec 5 × BitVec 16 × Nat)), s.mgmtReady = true → s.wld.late = (port, tag, n) :: rest →
    exec (.weldInBeat port tag d m last) s = .next { s with wld := { s.wld with
      late := if last then rest else s.wld.late } }) ∧
  (∀ (s : State) (port : BitVec 5) (tag : BitVec 16) (d : BitVec 1024) (m : W32) (last : Bool), s.mgmtReady = true →
    (∀ l ∈ s.wld.late, l.1 ≠ port ∨ l.2.1 ≠ tag) → s.weldFor port tag = none → exec (.weldInBeat port tag d m last) s =
      .next { s with wld := { s.wld with noTag := satInc s.wld.noTag } }) ∧
  (∀ (s : State) (port : BitVec 5) (tag : BitVec 16) (d : BitVec 1024) (m : W32) (c i n : Nat) (h : Heat) (x : Stream)
    (more : List Nat), s.mgmtReady = true → (∀ l ∈ s.wld.late, l.1 ≠ port ∨ l.2.1 ≠ tag) → s.weldFor port tag = some (c, h, i, x) →
    s.heat c = some h → h.dp.streams[i]? = some x → x.unit = 4 → x.beats = n :: more → 32 < n → x.pos + 128 < x.total →
    ∃ (t u : State) (h' : Heat) (y : Stream), exec (.weldInBeat port tag d m false) s = .next t ∧ t = u.pumpAll ∧
      u.heat c = some h' ∧ h'.id = h.id ∧ h'.dp.streams[i]? = some y ∧ y.pos = x.pos + 128 ∧ y.beats = (n - 32) :: more ∧
      y.buf = x.buf ++ beatBytes d m h.maskCounts x.pos 128 ∧ u.wld = s.wld ∧ u.time = s.time ∧ u.hrt = s.hrt) ∧
  (∀ (s : State) (port : BitVec 5) (tag : BitVec 16) (d : BitVec 1024) (m : W32) (last : Bool), s.mgmtReady = false →
    exec (.weldInBeat port tag d m last) s = .next s) ∧
  (∀ (s : State) (port : BitVec 5), (∀ e ∈ s.wld.out, e.1 ≠ port) → exec (.weldOutBeat port) s = .next s) ∧
  (∀ (s : State) (port : BitVec 5) (tag : BitVec 16) (d : BitVec 1024) (m : W32) (last : Bool) (c : Nat) (h : Heat)
    (rest : List (BitVec 5 × BitVec 16 × BitVec 1024 × W32 × Bool × Nat)), s.wld.out = (port, tag, d, m, last, c) :: rest →
    s.heat c = some h → h.live = true → ∃ (t u : State) (h' : Heat), exec (.weldOutBeat port) s = .next t ∧ t = u.pumpAll ∧
      u.wld = { s.wld with out := rest } ∧ u.heat c = some h' ∧ h'.id = h.id ∧
      h'.run.wdog = (if h.run.wdogStopped then 0 else s.time.now) + h.run.periodUs * usPs ∧
      ∀ (i : Nat) (x : Stream), h.dp.streams[i]? = some x → h'.dp.streams[i]? = some
        (if x.write = true ∧ x.place = .weld port tag then x.beatOut else x)) ∧
  (∀ (s : State) (tag : BitVec 12) (st : BitVec 2) (d : Payload), Tbl.get none s.wld.mem tag.toNat = none →
    exec (.memoryResponse tag st d) s = .next s) ∧
  (∀ (s : State) (tag : BitVec 12) (st : BitVec 2) (d : Payload) (r : MemReq), Tbl.get none s.wld.mem tag.toNat = some r →
    let v : State := { s with wld := { s.wld with mem := Tbl.set none s.wld.mem tag.toNat none } }
    let serve (x : State) : State := if (Tbl.free s.wld.mem 4096).isNone then x.serveTags else x
    (∀ c k, r.owner = .stream c k → r.slag = true → exec (.memoryResponse tag st d) s = .next (serve { v with tng := { s.tng with
      slagMem := satInc s.tng.slagMem } }).pumpAll) ∧
    (∀ c k h, r.owner = .stream c k → r.slag = false → s.heat c = some h → h.live = true → st ≠ 0 →
      h.id.d.kind ≠ .planLoad → exec (.memoryResponse tag st d) s = .next (serve (({ v with wld := { v.wld with
        memData := satInc s.wld.memData } } : State).endHeat c .xlateFail)).pumpAll) ∧
    (∀ c k h, r.owner = .stream c k → r.slag = false → s.heat c = some h → h.live = true → st = 0 → r.drop = true →
      exec (.memoryResponse tag st d) s = .next (serve v).pumpAll) ∧
    (∀ c k h, r.owner = .stream c k → r.slag = false → s.heat c = some h → h.live = true → st = 0 → r.drop = false →
      ∃ (t u : State) (h' : Heat), exec (.memoryResponse tag st d) s = .next t ∧ t = (serve u).pumpAll ∧ u.wld = v.wld ∧
        u.heat c = some h' ∧ h'.id = h.id ∧
        h'.dp = { h.dp with streams := h.dp.streams.map fun (x : Stream) => if x.id = k then x.answered d else x } ∧
        h'.run.wdog = (if r.write then (if h.run.wdogStopped then 0 else s.time.now) + h.run.periodUs * usPs
          else h.run.wdog) ∧
        u.time = s.time ∧ u.hrt = s.hrt) ∧
    (∀ q i, r.owner = .fetch q i → r.slag = false → st = 0 → ∃ t u : State, exec (.memoryResponse tag st d) s = .next t ∧
      t = ((serve u).fetch q 8).pumpAll ∧ u.wld = v.wld ∧ u.queue q = { s.queue q with
        cache := (s.queue q).cache ++ [(i, d)], fetching := (s.queue q).fetching.erase i } ∧
      (∀ k, k ≠ q → u.queue k = s.queue k))) ∧
  (∀ (x : Stream) (d : Payload), x.write = false → (x.answered d).pos = x.pos + x.chunkLen ∧ (x.answered d).buf.length =
    x.buf.length + x.chunkLen) ∧
  (∀ (x : Stream) (d : Payload), x.write = true → (x.answered d).pos = x.pos + x.chunkLen ∧
    (x.answered d).buf = x.buf.drop x.chunkLen)

/-- R188, R190, R193, R195, R198, R368. Replies of the translation port free their request. A translation for a stream that waits for it
is kept in the cache and the stream goes on; a fault pauses the heat and asks for its page, counted in WLD_XLATE_CNT.FAULTS; the page
there, the heat goes on, its pause added to what it has spent, and wakes Anvil where it needs it and none is powered; no page, the heat ends with XLATE_FAIL, counted in FAILS.
Where all 256 were outstanding those that wait for one are served in turn. A reply with no request of its kind has
no effect of its own. (Nothing is being recorded or replayed, and no write of a Trace register waits.)

R189. An invalidation is accepted while fewer than 16 wait; the cached translations that it covers are gone. At the limit it has
no effect. The scopes: ALL, one address space, a range of pages of one. -/
def Obligations.Translations : Prop :=
  (∀ (s : State) (id : BitVec 8) (x : XReq) (c i : Nat) (k : StreamId) (h : Heat) (y : Stream), s.trc.enable = false →
     s.trc.replay = false → s.trc.asking = none → Tbl.get none s.wld.xl id.toNat = some x → x.owner = .stream c k → x.slag = false →
     s.heat c = some h → h.live = true → h.streamIdx k = some i → h.dp.streams[i]? = some y →
     let v : State := { s with wld := { s.wld with xl := Tbl.set none s.wld.xl id.toNat none } }
     let serve (z : State) : State := if s.xlFull then z.serveXl else z
     (x.page = false → y.wait = .xlate id.toNat → ∀ (size : BitVec 2) (pa : BitVec 40), ∃ t u : State,
       exec (.xlateReply id 0 size pa) s = .next t ∧ t = (serve u).pumpAll ∧
       u.heat c = some { h with dp := { h.dp with streams := h.dp.streams.set i { y with wait := .idle } } } ∧
       u.wld = { v.wld with cache := u.wld.cache } ∧ u.wld.cache.head? =
         some { space := x.space, vpage := x.vpage, size := size.toNat, ppage := pa.toNat, write := x.write }) ∧
     (x.page = false → y.wait = .xlate id.toNat → h.paused = false → (∃ cap, s.capPs h = some cap ∧ h.run.pausedTotal < cap) →
       ∀ (st size : BitVec 2) (pa : BitVec 40), st ≠ 0 → ∃ (t u : State) (h' : Heat), exec (.xlateReply id st size pa) s = .next t ∧
         t = (serve u).pumpAll ∧ u.heat c = some h' ∧ h'.id = h.id ∧ h'.run.pausedAt = some s.time.now ∧ h'.run.wdogStopped = true ∧
         (h.run.wdogStopped = false → h'.run.wdog = h.run.wdog - s.time.now) ∧ h'.run.beacons = h.run.beacons + 1 ∧ h'.run.phase = h.run.phase ∧
         (∀ z ∈ h'.dp.streams, z.staged = false) ∧ u.time = s.time ∧
         ∃ n, h'.dp.streams[i]?.map (fun z => z.wait) = some (.page n) ∧ u.wld.faults = satInc s.wld.faults ∧
           (Tbl.get none u.wld.xl n).map (fun z => (z.page, z.vpage, z.owner)) = some (true, x.vpage, .stream c k)) ∧
     (x.page = true → ∀ at_ : Nat, h.run.pausedAt = some at_ → h.run.waking = false → ∃ (t u : State) (h' : Heat), exec (.pageReqReply id 0) s = .next t ∧
       t = (((serve u.pumpAll).pumpAll).traceNext).pumpAll ∧ u.heat c = some h' ∧ h'.id = h.id ∧ h'.paused = false ∧
       h'.run.pausedTotal = h.run.pausedTotal + (s.time.now - at_) ∧
       (h.id.d.kind.needsAnvil = false ∨ s.anvilServes = true → h'.run.wdogStopped = false ∧
         (h.run.wdogStopped = true → h'.run.wdog = s.time.now + h.run.wdog)) ∧
       (h.id.d.kind.needsAnvil = true → s.anvilServes = false → h.run.phase = .run → h'.run.waking = true ∧ h'.run.wdogStopped = true) ∧
       (∀ z ∈ h'.dp.streams, ∀ n, z.wait ≠ .page n) ∧ u.wld = v.wld ∧ u.time = s.time ∧ u.hrt = s.hrt) ∧
     (x.page = true → h.id.d.kind ≠ .planLoad → ∀ st : BitVec 2, st ≠ 0 → exec (.pageReqReply id st) s =
       .next ((((serve (({ v with wld := { v.wld with fails := satInc s.wld.fails } } : State).endHeat c .xlateFail)).pumpAll).traceNext).pumpAll))) ∧
  (∀ (s : State) (id : BitVec 8), s.trc.asking = none → (∀ x, Tbl.get none s.wld.xl id.toNat = some x → x.page = true) →
    ∀ (st size : BitVec 2) (pa : BitVec 40), exec (.xlateReply id st size pa) s =
      .next (if s.xlFull = true then s.serveXl.pumpAll else s.pumpAll)) ∧
  (∀ (s : State) (id : BitVec 8), s.trc.asking = none → (∀ x, Tbl.get none s.wld.xl id.toNat = some x → x.page = false) →
    ∀ st : BitVec 2, exec (.pageReqReply id st) s = .next s.pumpAll) ∧
  (∀ (s : State) (sc : BitVec 2) (a : BitVec 16) (f l : BitVec 52), s.wld.invs.length < 16 → ∃ t u : State,
    exec (.xlateInvalidate sc a f l) s = .next t ∧ t = u.pumpAll ∧
    u.wld = { s.wld with invs := s.wld.invs ++ [(sc, a, f.toNat, l.toNat)], cache := u.wld.cache } ∧
    (∀ e, e ∈ u.wld.cache ↔ e ∈ s.wld.cache ∧ invCovers (sc, a, f.toNat, l.toNat) e.space e.vpage e.size = false) ∧
    u.tab = s.tab ∧ u.hrt = s.hrt) ∧
  (∀ (s : State) (sc : BitVec 2) (a : BitVec 16) (f l : BitVec 52), 16 ≤ s.wld.invs.length →
    exec (.xlateInvalidate sc a f l) s = .next s) ∧
  (∀ (a b : BitVec 16) (f l vp : Nat), invCovers (0, a, f, l) (.asid b) vp 0 = true ∧
    (invCovers (1, a, f, l) (.asid b) vp 0 = true ↔ b = a) ∧
    (invCovers (2, a, f, l) (.asid b) vp 0 = true ↔ b = a ∧ f ≤ vp ∧ vp ≤ l)) ∧
  (∀ (s : State) (code : BitVec 2), exec (.throttleInputChange code) s = .next { s with wld := { s.wld with level := code } })

/-- R191, R194, R195, R308. The timers of a running heat's flows: 2 µs after a flow's last billet its commits are reported, those of a paused heat too; a paused heat that has
not reached its cap sends its beacon again after 50 µs; a count of an origin is forgotten after 1 ms; a pause that reaches
PAUSE_CAP starts the watchdog again where it stood, unless the heat waits for an island to wake; the hold of a flow tag ends and the tag is free. Each moves time to its own deadline, and does
nothing where there is nothing for it to do.

R292, R300. The waits of steward heats: a PARTITION_CREATE that waited for its key, and a PARTITION_RESET that waited for the
spacing, start afresh at their time, a reset where no sequencer reloads or has failed (R342); any other heat stays. -/
def Obligations.Timers : Prop :=
  (∀ (s : State) (tag : BitVec 12) (c f : Nat) (h : Heat) (x : FlowIn), s.tag tag.toNat = .recv c f → s.heat c = some h →
    h.live = true → h.dp.ins[f]? = some x → x.reported < x.applied → ∃ (t : State) (h' : Heat) (y : FlowIn),
      exec (.commitQuietTimer tag) s = .next t ∧ t.time.now = max s.time.now (x.lastAt + 2 * usPs) ∧ t.heat c = some h' ∧
      h'.id = h.id ∧ h'.dp.ins[f]? = some y ∧ y = { x with reported := x.applied } ∧ h'.dp.outs = h.dp.outs ∧ t.hrt = s.hrt ∧
      t.wld = s.wld) ∧
  (∀ (s : State) (tag : BitVec 12), (∀ c f, s.tag tag.toNat ≠ .recv c f) → exec (.commitQuietTimer tag) s = .next s) ∧
  (∀ (s : State) (c : BitVec 12) (h : Heat), s.heat c.toNat = some h → h.live = true → h.paused = true → h.run.capped = false →
    ∃ (t : State) (h' : Heat), exec (.beaconPeriod c) s = .next t ∧ t.heat c.toNat = some h' ∧ h'.id = h.id ∧
      t.time.now = max s.time.now (h.run.lastBeacon + 50 * usPs) ∧ h'.run = { h.run with
        beacons := h.run.beacons + 1, lastBeacon := t.time.now } ∧ h'.dp = h.dp ∧ t.hrt = s.hrt ∧ t.wld = s.wld) ∧
  (∀ (s : State) (c : BitVec 12) (h : Heat), s.heat c.toNat = some h → (h.paused = false ∨ h.run.capped = true) →
    exec (.beaconPeriod c) s = .next s) ∧
  (∀ (s : State) (c : BitVec 12) (o : BitVec 16) (h : Heat) (e : Nat × BitVec 16 × Nat), s.heat c.toNat = some h →
    (h.run.seen.find? fun x => x.1 = o.toNat) = some e → exec (.beaconCountForget c o) s =
      .next (({ s with time := { s.time with now := max s.time.now (e.2.2 + msPs) } } : State).setHeat c.toNat (some { h with
        run := { h.run with seen := h.run.seen.filter fun x => x.1 ≠ o.toNat } }))) ∧
  (∀ (s : State) (c : BitVec 12) (o : BitVec 16) (h : Heat), s.heat c.toNat = some h → (∀ x ∈ h.run.seen, x.1 ≠ o.toNat) →
    exec (.beaconCountForget c o) s = .next s) ∧
  (∀ (s : State) (c : BitVec 12) (h : Heat) (cap at_ : Nat), s.heat c.toNat = some h → h.live = true → h.run.capped = false →
    s.capPs h = some cap → h.run.pausedAt = some at_ →
    let now := max s.time.now (at_ + (cap - h.run.pausedTotal))
    exec (.pauseCapReached c) s = .next (({ s with time := { s.time with now := now } } : State).setHeat c.toNat (some { h with
      run := if h.run.waking then { h.run with capped := true } else { h.run with
        capped := true, wdogStopped := false, wdog := if h.run.wdogStopped then now + h.run.wdog else h.run.wdog } }))) ∧
  (∀ (s : State) (c : BitVec 12) (h : Heat), s.heat c.toNat = some h → h.run.pausedAt = none →
    exec (.pauseCapReached c) s = .next s) ∧
  (∀ (s : State) (tag : BitVec 12) (p u : Nat), s.tag tag.toNat = .held p u → exec (.tagHoldExpiry tag) s =
    .next (({ s with time := { s.time with now := max s.time.now u } } : State).setTag tag.toNat .free)) ∧
  (∀ (s : State) (tag : BitVec 12), (∀ p u, s.tag tag.toNat ≠ .held p u) → exec (.tagHoldExpiry tag) s = .next s) ∧
  (∀ (s : State) (c : BitVec 12) (h : Heat), s.heat c.toNat = some h → h.live = true → h.run.phase = .run → h.run.due ≠ 0 →
    (h.id.d.kind = .partCreate → exec (.keyReuseWaitEnd c) s = .next (((s.advanceTo h.run.due).startCreate c.toNat).pumpAll)) ∧
    (h.id.d.kind = .partReset → s.seqStopped = false →
      exec (.resetSpacingEnd c) s = .next (((s.advanceTo h.run.due).startReset c.toNat).pumpAll)) ∧
    (s.seqStopped = true → exec (.resetSpacingEnd c) s = .next s)) ∧
  (∀ (s : State) (c : BitVec 12) (h : Heat), s.heat c.toNat = some h → (h.run.due = 0 ∨ h.run.phase ≠ .run) →
    exec (.keyReuseWaitEnd c) s = .next s ∧ exec (.resetSpacingEnd c) s = .next s) ∧
  (∀ (s : State) (c : Nat) (h : Heat), s.heat c = some h → s.createCheck h.id.w = .refuse →
    s.startCreate c = s.endHeat c .malformed) ∧
  (∀ (s : State) (c : Nat) (h : Heat), s.heat c = some h → (s.part h.id.w.partIdx).state = .free →
    s.startReset c = s.endHeat c .malformed)

/-- R297, R309, R310. A heat's watchdog expires, or TNG_ABORT names it: the heat has ended with ABORT_TIMEOUT, a quench record of its
partition with cause WATCHDOG is there, and no other heat has ended. A heat of queue 0, or one whose watchdog is stopped, does
not expire; TNG_ABORT that names no heat is an ERROR. A heat that another event of the same tclk has ended, with a status of a higher code
and no record yet, has ABORT_TIMEOUT all the same (R179, R301; that a tclk is a whole nanosecond of time is the model's choice, log 83). -/
def Obligations.WatchdogAndAbort : Prop :=
  (∀ (s : State) (c : BitVec 12) (h : Heat), s.heat c.toNat = some h → h.live = true → h.id.q ≠ 0 →
    h.run.wdogStopped = false → h.id.d.kind ≠ .planLoad → (∀ p, h.id.part = some p → p < 256) →
    ∃ (t u : State) (h' : Heat), exec (.watchdogExpiry c) s = .next t ∧
      t = u.pumpAll ∧ u.heat c.toNat = some h' ∧ h'.id = h.id ∧ h'.run.phase = .ended .abortTimeout ∧
      u.time.now = max s.time.now h.run.wdog ∧ u.quench.valid = true ∧ u.quench.unread = true ∧
      u.quench.seq = s.quench.seq + 1 ∧ bit u.tng.event 1 = true ∧
      (u.quench.record.head?.map fun e => fieldN e 80 4) = some causeWatchdog ∧
      (∀ k x, k ≠ c.toNat → s.heat k = some x → ∃ y, u.heat k = some y ∧ y.run.phase = x.run.phase)) ∧
  (∀ (s : State) (c : BitVec 12) (h : Heat), s.heat c.toNat = some h →
    ((h.live = false ∧ s.expiresNow h = false) ∨ h.id.q = 0 ∨ h.run.wdogStopped = true) → exec (.watchdogExpiry c) s = .next s) ∧
  (∀ (s : State) (c : BitVec 12) (h : Heat) (st : Status), s.heat c.toNat = some h → h.run.phase = .ended st → s.expiresNow h = true →
    0x10 < st.code → h.run.endAt / 1000 = s.time.now / 1000 → h.run.record = none → (∀ p, h.id.part = some p → p < 256) →
    ∃ (t u : State) (h' : Heat), exec (.watchdogExpiry c) s = .next t ∧
      t = u.pumpAll ∧ u.heat c.toNat = some h' ∧ h'.id = h.id ∧ h'.dp = h.dp ∧ h'.run.phase = .ended .abortTimeout ∧ u.time = s.time ∧
      u.quench.valid = true ∧ u.quench.seq = s.quench.seq + 1) ∧
  (∀ (s : State) (v : W32), s.up → (∀ e ∈ s.heatList, e.2.live = true → e.2.id.q ≠ 0 →
    ¬ (e.2.id.q = s.tng.abortQueue.toNat ∧ e.2.id.idx = field v 0 17)) → exec (.tngAbort v) s = .next (s.answer rspError 0)) ∧
  (∀ (s : State) (v : W32) (c : Nat) (h : Heat), s.up → s.tng.abortQueue ≠ 0 → s.heatList = [(c, h)] → s.heat c = some h →
    h.live = true → h.id.q = s.tng.abortQueue.toNat → h.id.idx = field v 0 17 → h.id.d.kind ≠ .planLoad →
    ∃ (t u : State) (h' : Heat), exec (.tngAbort v) s = .next t ∧ t = u.pumpAll.answer rspOkay 0 ∧ u.heat c = some h' ∧
      h'.id = h.id ∧ h'.run.phase = .ended .abortTimeout ∧ u.time = s.time ∧ u.quench.seq = s.quench.seq + 1)

/-- R282, R283, R354, R391. Writes of TRC_REC_CTL. ENABLE or REPLAY without RECORD_PERMIT, and a REPLAY that R283 does not allow, are
DENIED and change nothing; both at once are an ERROR. Otherwise, with Trace ALIGNED, the write asks for the translation of the first page of the buffer (for
writing, or for reading) and waits; with Trace gated it has Trace wake and waits. With the last page there it takes effect:
OKAY, and a START entry is first in the queue of Trace or already in memory; a replay has no entry yet. ENABLE = 0 ends a
recording in progress. Two things are the model's choice (log 20): ENABLE = 1 during a recording stores the other fields, and ENABLE keeps the 1
that was written when the buffer has become full.

R282. The queue of Trace: an entry that finds 256 entries waiting is lost: it is counted, and INCOMPLETE becomes 1; one that would
take the last place of the buffer ends the recording with FULL = 1 and a STOP entry in that place; any other waits behind the
rest or is written.

R283, R284. The next doorbell, queue control or barrier entry of a replay takes effect at its time and is taken; the first lost
entry, once every entry before it is applied, and 1 ms without an expected heat or run, counted from the heat's previous run, end
the replay with their reason and index; of several waits the one that ends first. With no such entry, and outside
a replay, nothing happens. Three things are the model's choice (log 75): a heat's first run is late 1 ms after its entry's time, GAP is reached
also where only ARRIVAL, XLATE or STOP entries follow, and of two waits that end together the one recorded earlier stands. -/
def Obligations.RecordAndReplay : Prop :=
  (∀ (s : State) (v : W32), s.up → (bit v 31 = true ∨ bit v 30 = true) → bit s.ctl.permits 2 = false →
    exec (.recordEnable v) s = .next (s.answer rspDenied 0).pumpAll ∧
    exec (.replayStart v) s = .next (s.answer rspDenied 0).pumpAll) ∧
  (∀ (s : State) (v : W32), s.up → bit v 30 = true → (s.trc.enable = true ∨ bit v 29 = true) →
    exec (.replayStart v) s = .next (s.answer rspDenied 0).pumpAll) ∧
  (∀ (s : State) (v : W32), s.up → bit v 31 = true → bit v 30 = true → bit s.ctl.permits 2 = true → s.replayOk v = true →
    exec (.replayStart v) s = .next (s.answer rspError 0).pumpAll) ∧
  (∀ (s : State) (v : W32) (k : Nat), s.up → bit v 30 = false → bit v 31 = true → bit s.ctl.permits 2 = true →
    s.recording = false → s.isReady .trace = true → Tbl.free s.wld.xl 256 = some k →
    (∀ e ∈ s.wld.xl, ∀ r, e.2 = some r → r.owner ≠ .trace 0) → ∃ t u : State, exec (.recordEnable v) s = .next t ∧
      t = u.pumpAll ∧ u.trc.pendWrite = v ∧ u.trc.xl = [] ∧ u.trc.asking = some (s.trc.base.toNat / 4096) ∧
      u.trc.pendAt = s.machineTime ∧ u.trc.enable = s.trc.enable ∧ u.ctl = { s.ctl with ymbWait := some .trace } ∧ u.time = s.time ∧ u.tab = s.tab ∧ Tbl.get none u.wld.xl k = some
        { page := false, space := .steward, vpage := s.trc.base.toNat / 4096, write := true, owner := .trace 0 }) ∧
  (∀ (s : State) (v : W32) (k : Nat), s.up → bit v 31 = false → bit v 30 = true → bit s.ctl.permits 2 = true →
    s.replayOk v = true → s.isReady .trace = true → Tbl.free s.wld.xl 256 = some k →
    (∀ e ∈ s.wld.xl, ∀ r, e.2 = some r → r.owner ≠ .replay 0) → ∃ t u : State, exec (.replayStart v) s = .next t ∧
      t = u.pumpAll ∧ u.trc.pendWrite = v ∧ u.trc.xl = [] ∧ u.trc.asking = some (s.trc.base.toNat / 4096) ∧
      u.trc.pendAt = s.machineTime ∧ u.ctl = { s.ctl with ymbWait := some .trace } ∧ u.time = s.time ∧ u.tab = s.tab ∧
      Tbl.get none u.wld.xl k = some
        { page := false, space := .steward, vpage := s.trc.base.toNat / 4096, write := false, owner := .replay 0 }) ∧
  (∀ (s : State) (v : W32), s.up → bit v 30 = false → bit v 31 = true → bit s.ctl.permits 2 = true → s.recording = false →
    s.isReady .trace = false → ∃ t u : State, exec (.recordEnable v) s = .next t ∧ t = u.pumpAll ∧ u.trc.pendWrite = v ∧
      u.trc.asking = none ∧ u.trc.enable = s.trc.enable ∧ u.ctl = { s.ctl with ymbWait := some .trace } ∧ u.tab = s.tab ∧ u.power = { s.power with
        waking := s.power.waking ||| (maskOf (domainBits .trace) &&& ~~~ s.power.on)
        woken := s.power.woken ||| (maskOf (domainBits .trace) &&& ~~~ s.power.on) }) ∧
  (∀ (s : State) (vp : Nat) (e : XEnt), s.trc.asking = some vp → bit s.trc.pendWrite 31 = true → 1 ≤ s.trc.log2.toNat →
    (s.trc.xl.find? fun e => e.covers .steward vp true) = some e →
    s.tracePages.2 < (vp / pageUnits e.size + 1) * pageUnits e.size →
    let t := s.traceNext
    t.ctl.rspCode = rspOkay ∧ t.ctl.ymbWait = none ∧ t.trc.enable = true ∧ t.trc.active = true ∧ t.trc.full = false ∧ t.trc.incomplete = false ∧
    t.trc.all = bit s.trc.pendWrite 29 ∧ t.trc.part = field s.trc.pendWrite 0 8 ∧ t.trc.asking = none ∧ t.time = s.time ∧
    ((t.trc.queue = [] ∧ t.trc.issued = 1) ∨ (t.trc.issued = 0 ∧ t.trc.queue =
      [assemble 128 [(fieldN s.machineTime 0 40, 88), (4, 84), (0, 80), (fieldN s.trc.pendWrite 0 8, 72)]]))) ∧
  (∀ (s : State) (vp : Nat) (e : XEnt), s.trc.asking = some vp → bit s.trc.pendWrite 31 = false → bit s.trc.pendWrite 30 = true →
    (s.trc.xl.find? fun e => e.covers .steward vp false) = some e →
    s.tracePages.2 < (vp / pageUnits e.size + 1) * pageUnits e.size →
    let t := s.traceNext
    t.ctl.rspCode = rspOkay ∧ t.ctl.ymbWait = none ∧ t.trc.replay = true ∧ t.trc.enable = false ∧ t.trc.entries = [] ∧ t.trc.count = 0 ∧
    t.trc.t0 = s.trc.pendAt ∧ t.trc.part = field s.trc.pendWrite 0 8 ∧ t.time = s.time) ∧
  (∀ (s : State) (v : W32), s.up → bit v 31 = false → bit v 30 = false → s.recording = true → s.trc.replay = false →
    ∃ t u : State, exec (.recordDisable v) s = .next t ∧ t = u.pumpAll ∧ u.trc.enable = false ∧ u.trc.active = false ∧
      u.trc.runs = [] ∧ u.trc.all = bit v 29 ∧ u.trc.part = field v 0 8 ∧ u.ctl.rspCode = rspOkay ∧ u.time = s.time ∧
      u.tab = s.tab) ∧
  (∀ (s : State) (v : W32), s.up → bit v 31 = false → bit v 30 = false → s.recording = false → s.trc.replay = false →
    exec (.recordDisable v) s = .next ({ s with trc := { s.trc with
      enable := false, replay := false, all := bit v 29, part := field v 0 8 } }.answer rspOkay 0).pumpAll) ∧
  (∀ (s : State) (v : W32), s.up → bit v 31 = true → bit v 30 = false → bit s.ctl.permits 2 = true → s.recording = true →
    s.trc.replay = false → exec (.recordEnable v) s = .next ({ s with trc := { s.trc with
      enable := true, replay := false, all := bit v 29, part := field v 0 8 } }.answer rspOkay 0).pumpAll) ∧
  (∀ (s : State) (e : BitVec 128), 256 ≤ s.trc.queue.length → ∃ g, s.traceEntry e = { s with trc := { s.trc with
    drop := satInc s.trc.drop, incomplete := true, gap := g } }) ∧
  (∀ (s : State) (e : BitVec 128), s.trc.queue.length < 256 →
    2 ^ s.trc.log2.toNat ≤ s.trc.issued + s.trc.queue.length + 1 →
    let t := s.traceEntry e
    t.trc.active = false ∧ t.trc.full = true ∧ t.trc.enable = s.trc.enable ∧
    ∃ k ≤ s.trc.queue.length + 1, t.trc.issued = s.trc.issued + k ∧ t.trc.queue = (s.trc.queue ++
      [assemble 128 [(fieldN s.machineTime 0 40, 88), (4, 84), (1, 80), (s.trc.part.toNat, 72)]]).drop k) ∧
  (∀ (s : State) (e : BitVec 128), s.trc.queue.length < 256 →
    s.trc.issued + s.trc.queue.length + 1 < 2 ^ s.trc.log2.toNat →
    let t := s.traceEntry e
    t.trc.active = s.trc.active ∧ t.trc.full = s.trc.full ∧ t.time = s.time ∧ t.tab = s.tab ∧
    ∃ k ≤ s.trc.queue.length + 1, t.trc.queue = (s.trc.queue ++ [e]).drop k ∧ t.trc.issued = s.trc.issued + k) ∧
  (∀ (s : State) (i : Nat) (e : BitVec 128), s.trc.replay = true → s.trc.incomplete = false → s.time.running = true →
    (s.trc.entries.find? fun e => fieldN e.2 84 4 = 1 || fieldN e.2 84 4 = 5 || fieldN e.2 84 4 = 6) = some (i, e) →
    ∃ t u v : State, exec .replayEntryDue s = .next t ∧ u = s.advanceTo (s.time.now +
        (s.trc.t0.toNat + (field e 88 40 - s.trc.time0).toNat - s.machineTime.toNat) * 640) ∧
      t = (v.replayTake i).pumpAll ∧
      (fieldN e 84 4 = 1 → v = u.ring (fieldN e 72 12) (assemble 32 [(fieldN e 71 1, 31), (fieldN e 54 17, 0)])) ∧
      (fieldN e 84 4 = 5 → v = u.control (fieldN e 72 12) (assemble 32 [(fieldN e 68 4, 0)])) ∧
      (fieldN e 84 4 = 6 → v = if bit e 69 then u.hostArm (fieldN e 70 14) (field e 53 16) else u.hostArrive (fieldN e 70 14))) ∧
  (∀ (s : State) (i g : Nat) (e : BitVec 128), s.trc.replay = true → s.trc.incomplete = true → s.trc.gap = some g → g ≤ i →
    (s.trc.entries.find? fun e => fieldN e.2 84 4 = 1 || fieldN e.2 84 4 = 5 || fieldN e.2 84 4 = 6) = some (i, e) →
    exec .replayEntryDue s = .next ({ s with trc := { s.trc with
      replay := false, active := false, entries := [], met := [], runEnds := [], diverged := true, divReason := 4, divIndex := BitVec.ofNat 28 g } }).pumpAll) ∧
  (∀ (s : State), (s.trc.replay = false ∨ ∀ e ∈ s.trc.entries, fieldN e.2 84 4 ≠ 1 ∧ fieldN e.2 84 4 ≠ 5 ∧ fieldN e.2 84 4 ≠ 6) →
    exec .replayEntryDue s = .next s) ∧
  (∀ (s : State) (r i d : Nat), s.trc.replay = true → s.overdue = some (r, i, d) → s.time.running = true →
    (∀ e ∈ s.trc.entries, fieldN e.2 84 4 = 2 ∨ fieldN e.2 84 4 = 3 ∨ fieldN e.2 84 4 = 4) →
    exec .replayDivergeTimeout s = .next ({ s with
      time := { s.time with now := max s.time.now (s.time.now + (d - s.machineTime.toNat) * 640) }
      trc := { s.trc with
        replay := false, active := false, entries := [], met := [], runEnds := [], diverged := true
        divReason := BitVec.ofNat 4 r, divIndex := BitVec.ofNat 28 i } }).pumpAll) ∧
  (∀ (s : State) (r i d : Nat), s.overdue = some (r, i, d) → (∃ x ∈ s.trc.entries, s.entryWait x = some (r, i, d)) ∧
    ∀ x ∈ s.trc.entries, ∀ w, s.entryWait x = some w → d ≤ w.2.2) ∧
  (∀ s : State, s.overdue = none → ∀ x ∈ s.trc.entries, s.entryWait x = none) ∧
  (∀ (s : State) (i : Nat) (e : BitVec 128),
    (fieldN e 84 4 = 2 ∨ fieldN e 84 4 = 3) → (∀ x ∈ s.heatList, ¬ (x.2.id.q = fieldN e 72 12 ∧ x.2.id.idx = field e 55 17)) →
    (s.queue (fieldN e 72 12)).d (field e 55 17) < (s.queue (fieldN e 72 12)).size →
    s.entryWait (i, e) = some (3, i, s.trc.t0.toNat + (field e 88 40 - s.trc.time0).toNat + 1562500)) ∧
  (∀ (s : State) (i : Nat) (e : BitVec 128), (s.trc.entries.find? fun x => fieldN x.2 84 4 = 2 ∧ fieldN x.2 55 29 = fieldN e 55 29) = some (i, e) →
    fieldN e 84 4 = 2 → fieldN e 0 12 = 0 → (∃ x ∈ s.heatList, x.2.id.q = fieldN e 72 12 ∧ x.2.id.idx = field e 55 17) →
    ((∀ x ∈ s.trc.runEnds, x.1 ≠ fieldN e 55 29) →
      s.entryWait (i, e) = some (1, i, s.trc.t0.toNat + (field e 88 40 - s.trc.time0).toNat + 1562500)) ∧
    (∀ t, s.trc.runEnds = [(fieldN e 55 29, t)] → s.entryWait (i, e) = some (1, i, t + 1562500))) ∧
  (∀ (s : State) (g : Nat), s.trc.replay = true → s.trc.incomplete = true → s.trc.gap = some g → s.trc.readAll = true →
    (∀ e ∈ s.trc.entries, g ≤ e.1) → s.replayOver = s.diverge 4 g) ∧
  (∀ (s : State), s.trc.entries = [] → exec .replayDivergeTimeout s = .next s)

/-- R226, R227, R278, R354. Telemetry. A write of TRC_TELE_CTL with INTERVAL_US 0 is an ERROR; with Trace ALIGNED it is stored; ENABLE = 1 with Trace
gated wakes it and waits. A sample, at a multiple of the interval by the
epoch counter, sends ten billets, TAG 0 to 9, to the destination on VC7, with the epoch counter at the sample and each
port's counts, which start afresh, as at the enabling and at a write of TRC_TELE_DEST that sets VALID later; what waits of the last sample is discarded and counted; with telemetry off nothing happens.
That TX_UTIL is rounded down, that a sample falls on a multiple of the interval, and that TRC_TELE_DROP counts what waits in the queues of the
output ports (and in a hold, of which there is none here), are the model's choice (log 23). -/
def Obligations.Telemetry : Prop :=
  (∀ (s : State) (v : W32), s.up → fieldN v 0 16 = 0 → exec (.telemetryEnable v) s = .next (s.answer rspError 0)) ∧
  (∀ (s : State) (v : W32), s.up → fieldN v 0 16 ≠ 0 → s.isReady .trace = true → ∃ t, exec (.telemetryEnable v) s = .next t ∧
    let begins := bit v 31 = true ∧ s.trc.teleEnable = false
    t.trc = { s.trc with
      teleEnable := bit v 31, teleInterval := field v 0 16, telePend := 0
      teleAt := if begins then s.epochPs else s.trc.teleAt } ∧
    (∀ p, t.port p = if begins then { s.port p with te := { PortTele.reset with rxMax := (s.port p).rx.occupied } } else s.port p) ∧
    t.ctl.rspCode = rspOkay ∧ t.time = s.time ∧ t.power = s.power ∧ t.hrt = s.hrt ∧ t.wld = s.wld) ∧
  (∀ (s : State) (v : W32), s.up → fieldN v 0 16 ≠ 0 → bit v 31 = true → s.isReady .trace = false →
    exec (.telemetryEnable v) s = .next { s with
      trc := { s.trc with telePend := v }
      ctl := { s.ctl with ymbWait := some .trace }
      power := { s.power with
        waking := s.power.waking ||| (maskOf (domainBits .trace) &&& ~~~ s.power.on)
        woken := s.power.woken ||| (maskOf (domainBits .trace) &&& ~~~ s.power.on) } }) ∧
  (∀ (s : State) (v : W32), s.up → s.trc.teleEnable = true → s.trc.teleValid = false → bit v 31 = true →
    ∃ t, exec (.registerWrite (.ymb 0x1C0104 v)) s = .next t ∧ t.ctl.rspCode = rspOkay ∧ t.time = s.time ∧ t.power = s.power ∧
      t.trc = { s.trc with teleValid := true, teleDest := field v 0 16, teleAt := s.epochPs } ∧
      ∀ p, (t.port p).te = { PortTele.reset with rxMax := (s.port p).rx.occupied }) ∧
  (∀ (s : State), s.trc.teleEnable = true → s.trc.teleValid = true → s.isReady .trace = true → s.route.hold = none →
    ∃ t, exec .telemetrySample s = .next t ∧
      (let per := s.trc.teleInterval.toNat * usPs
       t.time = { s.time with now := s.time.now +
         (max (s.trc.teleAt / per + 1) (ceilDiv s.epochPs per) * per - s.epochPs) }) ∧
      t.trc = { s.trc with
        sample := s.trc.sample + 1, teleAt := t.epochPs, sampled := t.trc.sampled
        teleDrop := satAdd s.trc.teleDrop (s.ports.map fun e =>
          (e.2.tx.queue.filter fun b => s.trc.sampled.elem b).length).sum } ∧
      t.trc.sampled.length = 10 ∧ t.tab = s.tab ∧ t.boot = s.boot ∧
      (∀ p, (t.port p).te = { PortTele.reset with rxMax := (s.port p).rx.occupied }) ∧
      (∀ p b, b ∈ (t.port p).tx.queue → b ∈ s.trc.sampled → b.seq = s.trc.sample) ∧
      ∀ k b, t.trc.sampled[k]? = some b → b.dest = s.trc.teleDest ∧ b.kind = kTelemetry ∧ b.vc = 7 ∧
        b.tag = BitVec.ofNat 12 k ∧ b.seq = s.trc.sample ∧ b.key = 0 ∧ field b.data 0 64 = t.epoch ∧
        ∀ j < 4, (let x := s.port (4 * k + j)
          x.te.sent ≤ 4 * x.te.frames → x.tx.wheel.length < 65536 →
            pAt b.data (8 + 14 * j) 2 = (if x.te.frames = 0 then 0 else x.te.sent * 65535 / (4 * x.te.frames)) ∧
            pAt b.data (10 + 14 * j) 2 = min x.te.rxMax 65535 ∧ pAt b.data (12 + 14 * j) 4 = min x.te.stall (2 ^ 32 - 1) ∧
            pAt b.data (16 + 14 * j) 2 = min x.te.replays 65535 ∧ pAt b.data (18 + 14 * j) 1 = x.reg.width.toNat ∧
            pAt b.data (19 + 14 * j) 1 = x.reg.st.code ∧ pAt b.data (20 + 14 * j) 2 = x.tx.wheel.length)) ∧
  (∀ (s : State), (s.trc.teleEnable = false ∨ s.trc.teleValid = false) → exec .telemetrySample s = .next s)

/-! ### Arithmetic, and the block as a whole -/

/-- R77. Assay accumulation: an FP32 operand adds its exact value or joins its status, and clears NEGZ unless it is -0; an exact
operand adds its value and clears NEGZ; a partial is added, joined and its NEGZ kept with the other's; `join` keeps a status
against a finite one, and two different ones give NaN. The order of the operands does not matter to the accumulator nor to
what is drained from it, and with a status that is not finite ACC does not matter. While the magnitudes together stay below
2^319 the range check of the accumulator (R78) changes nothing and raises nothing. -/
def Obligations.AssayOrderFree : Prop :=
  (∀ (a : Assay) (x : W32),
    a.apply (.fp x) = (
      if isNan x then { acc := a.acc, st := a.st.join .nan, negz := false }
      else if x = posInf then { acc := a.acc, st := a.st.join .pinf, negz := false }
      else if x = negInf then { acc := a.acc, st := a.st.join .ninf, negz := false }
      else { acc := a.acc + fixed x, st := a.st, negz := a.negz && decide (x = negZero) })) ∧
  (∀ (a : Assay) (v : Int), a.apply (.exact v) = { acc := a.acc + v, st := a.st, negz := false }) ∧
  (∀ a p : Assay, a.merge p = { acc := a.acc + p.acc, st := a.st.join p.st, negz := a.negz && p.negz }) ∧
  (∀ x y z : ASt, x.join .finite = x ∧ ASt.join .finite x = x ∧ x.join x = x ∧ x.join y = y.join x ∧
    (x.join y).join z = x.join (y.join z) ∧ (x ≠ .finite → y ≠ .finite → x ≠ y → x.join y = .nan)) ∧
  (∀ (a : Assay) (n : Int) (mode : Rnd), a.st ≠ .finite → Assay.drain { a with acc := n } mode = a.drain mode) ∧
  (∀ (a : Assay) (l l' : List Assay), l.Perm l' → l.foldl Assay.merge a = l'.foldl Assay.merge a) ∧
  (∀ (a : Assay) (l l' : List AOp) (mode : Rnd), l.Perm l' →
    (l.foldl Assay.apply a).drain mode = (l'.foldl Assay.apply a).drain mode ∧
    (l.foldl Assay.apply a).drainPair mode = (l'.foldl Assay.apply a).drainPair mode) ∧
  (∀ (a : Assay) (l : List Assay) (f : Flags), a.acc.natAbs + (l.map fun p => p.acc.natAbs).sum < 2 ^ 319 →
    l.foldl (fun r p => ((r.1.mergeF p).1, r.2.or (r.1.mergeF p).2)) (a, f) = (l.foldl Assay.merge a, f))

/-- R75. MAX and MIN, over every FP32 input: a NaN operand gives the default NaN, and INVALID where one is signalling; -0 and +0 give
+0 and -0; an infinity gives the infinity or the other operand; two finite values give the greater and the lesser, exactly, and
no other flag is ever raised; both are commutative, flags and all, and their values associative.

R146, R148. A merge of two lists that are best first holds every record of both, is best first itself, and what is kept is its best
K records. -/
def Obligations.MaxMinAndTopk : Prop :=
  (∀ a b : W32, anvilMax a b = anvilMax b a ∧ anvilMin a b = anvilMin b a) ∧
  (∀ a b c : W32, (anvilMax (anvilMax a b).1 c).1 = (anvilMax a (anvilMax b c).1).1 ∧
    (anvilMin (anvilMin a b).1 c).1 = (anvilMin a (anvilMin b c).1).1) ∧
  (∀ a b : W32, isNan a = true ∨ isNan b = true →
    anvilMax a b = (nanW, Flags.inv (isSnan a || isSnan b)) ∧ anvilMin a b = (nanW, Flags.inv (isSnan a || isSnan b))) ∧
  (∀ a b : W32, isNan a = false → isNan b = false → (anvilMax a b).2 = Flags.none ∧ (anvilMin a b).2 = Flags.none ∧
    ((anvilMax a b).1 = a ∨ (anvilMax a b).1 = b) ∧ ((anvilMin a b).1 = a ∨ (anvilMin a b).1 = b)) ∧
  (∀ a b : W32, expOf a ≠ 255 → expOf b ≠ 255 →
    fixed (anvilMax a b).1 = max (fixed a) (fixed b) ∧ fixed (anvilMin a b).1 = min (fixed a) (fixed b)) ∧
  (anvilMax 0 negZero).1 = 0 ∧ (anvilMin 0 negZero).1 = negZero ∧
  (∀ a : W32, isNan a = false → (anvilMax a negInf).1 = a ∧ (anvilMin a posInf).1 = a ∧ (anvilMax a posInf).1 = posInf ∧
    (anvilMin a negInf).1 = negInf) ∧
  (∀ (run inc : List (W32 × W32)), (topkMerge run inc).Perm (run ++ inc)) ∧
  (∀ (run inc : List (W32 × W32)), run.Pairwise (fun x y => topkBefore y x = false) →
    inc.Pairwise (fun x y => topkBefore y x = false) → (topkMerge run inc).Pairwise (fun x y => topkBefore y x = false)) ∧
  (∀ (k : Nat) (run inc : List (W32 × W32)), run.Pairwise (fun x y => topkBefore y x = false) →
    inc.Pairwise (fun x y => topkBefore y x = false) →
    (topkKeep k run inc).length = min k (run.length + inc.length) ∧
    ∀ x ∈ topkKeep k run inc, ∀ y ∈ (topkMerge run inc).drop k, topkBefore y x = false)

/-- Every command c and state s: the step of s with c at the front of its queue is exec of c on s with the queue's rest. On an empty
queue one refclk period (6,400 ps) passes and nothing else changes (the model's choice, log 2). -/
def Obligations.StepTakesFront : Prop :=
  (∀ (s : State) (c : Instr) (rest : List Instr), s.pending = c :: rest → step s = exec c { s with pending := rest }) ∧
  (∀ (s : State), s.pending = [] → step s = .next { s with time := { s.time with now := s.time.now + 6400 } })

/-- Every step answers a next state, whose queue is the rest of the queue: no command puts a command there (the model's queue,
log 1). Time never goes back (log 2).

R54, R186, R192. What makes every heat go on as far as it can leaves time, the registers of Control, boot, the session and the
queue of commands as they are, and power but for the time at which a heat last used Anvil. -/
def Obligations.QueueAndTime : Prop :=
  (∀ s : State, ∃ t, step s = .next t ∧ t.pending = s.pending.tail ∧ s.time.now ≤ t.time.now) ∧
  (∀ s : State, s.pumpAll.time = s.time ∧ s.pumpAll.ctl = s.ctl ∧ s.pumpAll.boot = s.boot ∧ s.pumpAll.prov = s.prov ∧
     s.pumpAll.power = { s.power with anvilIdle := s.pumpAll.power.anvilIdle } ∧ s.pumpAll.pending = s.pending)

/-- The invariant of the block's control state (`State.Inv`) holds at reset, with these values of registers after power-on: boot
step 1, BOOT_PROV_CTL CLOSED, CTL_POLICY with every permit and no lock, TNG_PART_SEL 0, empty queue pages, FREE partitions with
watchdog 10,000 µs and PAUSE_CAP 1,000, no domain powered, epoch counter stopped at 0. -/
def Obligations.ResetHoldsInv : Prop :=
  State.reset.Inv ∧ State.reset.pending = [] ∧ State.reset.boot.state = .por ∧ State.reset.boot.step = 1 ∧
    State.reset.boot.sealBroken = false ∧ State.reset.prov.state = provClosed ∧ State.reset.prov.tapOpen = false ∧
    State.reset.ctl.permits = 0xF ∧ State.reset.ctl.lock = false ∧ State.reset.ctl.tagWritten = false ∧
    State.reset.ctl.irqMask = 0xF ∧ State.reset.power.on = 0 ∧ State.reset.power.aligned = 0 ∧ State.reset.power.level = 0 ∧
    State.reset.epoch = 0 ∧ State.reset.time.running = false ∧ State.reset.tng.partSel = 0 ∧ State.reset.tng.event = 0 ∧
    State.reset.quench.valid = false ∧ State.reset.quench.mbox = [] ∧ State.reset.route.bank0 = [] ∧
    State.reset.trc.enable = false ∧ State.reset.trc.replay = false ∧ State.reset.hrt.diag = false ∧
    (∀ q, (State.reset.queue q).head = 0 ∧ (State.reset.queue q).tail = 0 ∧ (State.reset.queue q).hold = false) ∧
    (∀ p, (State.reset.part p).state = .free ∧ (State.reset.part p).wdogUs = 10000 ∧ (State.reset.part p).pauseCap = 1000) ∧
    (∀ p, (State.reset.port p).reg.laneUse = 0 ∧ (State.reset.port p).reg.width = 0)

/-- From every state that meets the invariant (`State.Inv`), not only those that a run reaches, every step gives a state that
meets it: R305, R332, R335 to R338, R343, R349, R353, R356, R379 as the invariant states them. -/
def Obligations.StepKeepsInv : Prop :=
 ∀ s t : State, s.Inv → step s = .next t → t.Inv
end

