-- ==== Sys2Proof/Laws/Frame.lean ====
section
/-! SUPPORT. What the shared operations leave alone: the control state (time, Control's registers, power, boot, the session, the queue
of commands). One lemma for each operation, or for each part of the control state that it leaves. -/

set_option linter.unusedSimpArgs false

namespace Sys2Proof.Machine

/-- The control state: time, Control's registers, power, boot, the session and the queue of commands. -/
structure Ctrl where
  time : TimeSt
  ctl : CtlSt
  power : PowerSt
  rest : BootSt × ProvSt × List Instr

/-- The control state of a state. -/
def State.ctrl (s : State) : Ctrl := { time := s.time, ctl := s.ctl, power := s.power, rest := (s.boot, s.prov, s.pending) }

theorem State.time_ctrl (s : State) : s.time = s.ctrl.time := rfl
theorem State.ctl_ctrl (s : State) : s.ctl = s.ctrl.ctl := rfl
theorem State.power_ctrl (s : State) : s.power = s.ctrl.power := rfl
theorem State.boot_ctrl (s : State) : s.boot = s.ctrl.rest.1 := rfl
theorem State.prov_ctrl (s : State) : s.prov = s.ctrl.rest.2.1 := rfl
theorem State.pending_ctrl (s : State) : s.pending = s.ctrl.rest.2.2 := rfl
@[simp] theorem State.ctrl_mk (a : TimeSt) (b : CtlSt) (c : QuenchSt) (d : BootSt) (e : SeqSt) (f : ProvSt) (g : PowerSt)
    (h : RouteSt) (i : Tbl Port) (j : TngSt) (k : TngTbl) (l : HrtSt) (m : WldSt) (n : TrcSt) (o : Nat) (p : List Instr) :
    State.ctrl ⟨a, b, c, d, e, f, g, h, i, j, k, l, m, n, o, p⟩ = ⟨a, b, g, (d, f, p)⟩ := rfl
@[simp] theorem Ctrl.eta (c : Ctrl) : (⟨c.time, c.ctl, c.power, (c.rest.1, c.rest.2.1, c.rest.2.2)⟩ : Ctrl) = c := rfl

theorem ctrl_ite {β : Type} (g : Ctrl → β) (c : Prop) [Decidable c] (a b : State) :
    g (if c then a else b).ctrl = if c then g a.ctrl else g b.ctrl := by split <;> rfl

theorem State.foldl_keeps {α β : Type} (g : State → β) (f : State → α → State) (h : ∀ s a, g (f s a) = g s) (l : List α) (s : State) :
    g (l.foldl f s) = g s := by
  induction l generalizing s with
  | nil => rfl
  | cons a l ih => rw [List.foldl_cons, ih, h]

@[simp] theorem State.foldl_ctrl {α : Type} (f : State → α → State) (h : ∀ s a, (f s a).ctrl = s.ctrl) (l : List α) (s : State) :
    (l.foldl f s).ctrl = s.ctrl := State.foldl_keeps State.ctrl f h l s
@[simp] theorem State.foldl_time {α : Type} (f : State → α → State) (h : ∀ s a, (f s a).ctrl.time = s.ctrl.time) (l : List α) (s : State) :
    (l.foldl f s).ctrl.time = s.ctrl.time := State.foldl_keeps (·.ctrl.time) f h l s
@[simp] theorem State.foldl_ctl {α : Type} (f : State → α → State) (h : ∀ s a, (f s a).ctrl.ctl = s.ctrl.ctl) (l : List α) (s : State) :
    (l.foldl f s).ctrl.ctl = s.ctrl.ctl := State.foldl_keeps (·.ctrl.ctl) f h l s
@[simp] theorem State.foldl_power {α : Type} (f : State → α → State) (h : ∀ s a, (f s a).ctrl.power = s.ctrl.power) (l : List α) (s : State) :
    (l.foldl f s).ctrl.power = s.ctrl.power := State.foldl_keeps (·.ctrl.power) f h l s
@[simp] theorem State.foldl_rest {α : Type} (f : State → α → State) (h : ∀ s a, (f s a).ctrl.rest = s.ctrl.rest) (l : List α) (s : State) :
    (l.foldl f s).ctrl.rest = s.ctrl.rest := State.foldl_keeps (·.ctrl.rest) f h l s


@[simp] theorem State.setPort_ctrl (s : State) (p : Nat) (v : Port) : (State.setPort s p v).ctrl = s.ctrl := rfl
@[simp] theorem State.modPort_ctrl (s : State) (p : Nat) (f : Port → Port) : (State.modPort s p f).ctrl = s.ctrl := rfl
@[simp] theorem State.setPart_ctrl (s : State) (i : Nat) (v : Part) : (State.setPart s i v).ctrl = s.ctrl := rfl
@[simp] theorem State.modPart_ctrl (s : State) (i : Nat) (f : Part → Part) : (State.modPart s i f).ctrl = s.ctrl := rfl
@[simp] theorem State.setQueue_ctrl (s : State) (q : Nat) (v : Queue) : (State.setQueue s q v).ctrl = s.ctrl := rfl
@[simp] theorem State.modQueue_ctrl (s : State) (q : Nat) (f : Queue → Queue) : (State.modQueue s q f).ctrl = s.ctrl := rfl
@[simp] theorem State.setHeat_ctrl (s : State) (c : Nat) (h : Option Heat) : (State.setHeat s c h).ctrl = s.ctrl := rfl
@[simp] theorem State.modHeat_ctrl (s : State) (c : Nat) (f : Heat → Heat) : (State.modHeat s c f).ctrl = s.ctrl := rfl
@[simp] theorem State.setPlan_ctrl (s : State) (k : Nat) (v : Option Plan) : (State.setPlan s k v).ctrl = s.ctrl := rfl
@[simp] theorem State.setBar_ctrl (s : State) (b : Nat) (v : Bar) : (State.setBar s b v).ctrl = s.ctrl := rfl
@[simp] theorem State.setTag_ctrl (s : State) (t : Nat) (v : TagUse) : (State.setTag s t v).ctrl = s.ctrl := rfl
@[simp] theorem State.setSlot_ctrl (s : State) (p : Nat) (k : Nat) (v : Option Slot) : (State.setSlot s p k v).ctrl = s.ctrl := rfl
@[simp] theorem State.setCirc_ctrl (s : State) (i : Nat) (v : Option Circ) : (State.setCirc s i v).ctrl = s.ctrl := rfl
@[simp] theorem State.advanceTo_ctl (s : State) (t : Nat) : (State.advanceTo s t).ctrl.ctl = s.ctrl.ctl := rfl
@[simp] theorem State.advanceTo_power (s : State) (t : Nat) : (State.advanceTo s t).ctrl.power = s.ctrl.power := rfl
@[simp] theorem State.advanceTo_rest (s : State) (t : Nat) : (State.advanceTo s t).ctrl.rest = s.ctrl.rest := rfl
@[simp] theorem State.toPhase_ctl (s : State) (last : Nat) (period : Nat) : (State.toPhase s last period).ctrl.ctl = s.ctrl.ctl := rfl
@[simp] theorem State.toPhase_power (s : State) (last : Nat) (period : Nat) : (State.toPhase s last period).ctrl.power = s.ctrl.power := rfl
@[simp] theorem State.toPhase_rest (s : State) (last : Nat) (period : Nat) : (State.toPhase s last period).ctrl.rest = s.ctrl.rest := rfl
@[simp] theorem State.startFrames_ctl (s : State) : (State.startFrames s).ctrl.ctl = s.ctrl.ctl := by
  unfold State.startFrames
  dsimp only
  (repeat' split) <;> simp [State.time_ctrl, State.ctl_ctrl, State.power_ctrl, State.boot_ctrl, State.prov_ctrl, State.pending_ctrl, ctrl_ite]
@[simp] theorem State.startFrames_power (s : State) : (State.startFrames s).ctrl.power = s.ctrl.power := by
  unfold State.startFrames
  dsimp only
  (repeat' split) <;> simp [State.time_ctrl, State.ctl_ctrl, State.power_ctrl, State.boot_ctrl, State.prov_ctrl, State.pending_ctrl, ctrl_ite]
@[simp] theorem State.startFrames_rest (s : State) : (State.startFrames s).ctrl.rest = s.ctrl.rest := by
  unfold State.startFrames
  dsimp only
  (repeat' split) <;> simp [State.time_ctrl, State.ctl_ctrl, State.power_ctrl, State.boot_ctrl, State.prov_ctrl, State.pending_ctrl, ctrl_ite]
@[simp] theorem State.answer_time (s : State) (code : BitVec 2) (data : W32) : (State.answer s code data).ctrl.time = s.ctrl.time := rfl
@[simp] theorem State.answer_power (s : State) (code : BitVec 2) (data : W32) : (State.answer s code data).ctrl.power = s.ctrl.power := rfl
@[simp] theorem State.answer_rest (s : State) (code : BitVec 2) (data : W32) : (State.answer s code data).ctrl.rest = s.ctrl.rest := rfl
@[simp] theorem State.tngEvent_ctrl (s : State) (m : BitVec 5) : (State.tngEvent s m).ctrl = s.ctrl := rfl
@[simp] theorem State.pwrEvent_time (s : State) (m : BitVec 3) : (State.pwrEvent s m).ctrl.time = s.ctrl.time := rfl
@[simp] theorem State.pwrEvent_ctl (s : State) (m : BitVec 3) : (State.pwrEvent s m).ctrl.ctl = s.ctrl.ctl := rfl
@[simp] theorem State.pwrEvent_rest (s : State) (m : BitVec 3) : (State.pwrEvent s m).ctrl.rest = s.ctrl.rest := rfl
@[simp] theorem State.pickReject_ctrl (s : State) (cause : BitVec 3) (rid : BitVec 16) : (State.pickReject s cause rid).ctrl = s.ctrl := rfl
@[simp] theorem State.slagBillet_ctrl (s : State) : (State.slagBillet s).ctrl = s.ctrl := rfl
@[simp] theorem State.tagDrop_ctrl (s : State) : (State.tagDrop s).ctrl = s.ctrl := rfl
@[simp] theorem State.dropNoroute_ctrl (s : State) : (State.dropNoroute s).ctrl = s.ctrl := rfl
@[simp] theorem State.dropPortdown_ctrl (s : State) : (State.dropPortdown s).ctrl = s.ctrl := rfl
@[simp] theorem State.dropKind_ctrl (s : State) : (State.dropKind s).ctrl = s.ctrl := rfl
@[simp] theorem State.dropSwap_ctrl (s : State) : (State.dropSwap s).ctrl = s.ctrl := rfl
@[simp] theorem State.owe_ctrl (s : State) (p : Nat) (b : Billet) : (State.owe s p b).ctrl = s.ctrl := rfl
@[simp] theorem State.touchHold_ctrl (s : State) (p : Nat) (vc : BitVec 3) : (State.touchHold s p vc).ctrl = s.ctrl := by
  unfold State.touchHold
  (repeat' split) <;> simp [State.time_ctrl, State.ctl_ctrl, State.power_ctrl, State.boot_ctrl, State.prov_ctrl, State.pending_ctrl]
@[simp] theorem State.leftQueue_ctrl (s : State) (q : Nat) (bs : List Billet) : (State.leftQueue s q bs).ctrl = s.ctrl := by
  unfold State.leftQueue
  apply State.foldl_ctrl
  intro s b
  split <;> simp
@[simp] theorem State.queueOut_ctrl (s : State) (p : Nat) (b : Billet) : (State.queueOut s p b).ctrl = s.ctrl := by simp [State.queueOut]
@[simp] theorem State.mailbox_ctrl (s : State) (b : Billet) : (State.mailbox s b).ctrl = s.ctrl := by
  unfold State.mailbox
  (repeat' split) <;> simp [State.time_ctrl, State.ctl_ctrl, State.power_ctrl, State.boot_ctrl, State.prov_ctrl, State.pending_ctrl]
@[simp] theorem State.inject_ctrl (s : State) (b : Billet) : (State.inject s b).ctrl = s.ctrl := by
  unfold State.inject
  (repeat' split) <;> simp [State.time_ctrl, State.ctl_ctrl, State.power_ctrl, State.boot_ctrl, State.prov_ctrl, State.pending_ctrl]
@[simp] theorem State.endHold_ctrl (s : State) : (State.endHold s).ctrl = s.ctrl := by
  unfold State.endHold
  (repeat' split) <;> simp [State.time_ctrl, State.ctl_ctrl, State.power_ctrl, State.boot_ctrl, State.prov_ctrl, State.pending_ctrl]
@[simp] theorem State.takeIngots_ctrl (s : State) (is : List Nat) : (State.takeIngots s is).ctrl = s.ctrl := rfl
@[simp] theorem State.releaseSlot_ctrl (s : State) (p : Nat) (k : Nat) : (State.releaseSlot s p k).ctrl = s.ctrl := by
  unfold State.releaseSlot
  (repeat' split) <;> simp [State.time_ctrl, State.ctl_ctrl, State.power_ctrl, State.boot_ctrl, State.prov_ctrl, State.pending_ctrl]
@[simp] theorem State.draw_ctrl (s : State) : (State.draw s).2.ctrl = s.ctrl := rfl
@[simp] theorem State.captureFlags_ctrl (s : State) (ctx : Nat) (f : Flags) : (State.captureFlags s ctx f).ctrl = s.ctrl := by
  unfold State.captureFlags
  (repeat' split) <;> simp [State.time_ctrl, State.ctl_ctrl, State.power_ctrl, State.boot_ctrl, State.prov_ctrl, State.pending_ctrl]
@[simp] theorem State.diagOff_ctrl (s : State) : (State.diagOff s).ctrl = s.ctrl := rfl
@[simp] theorem State.diagEnds_ctrl (s : State) : (State.diagEnds s).ctrl = s.ctrl := by
  unfold State.diagEnds
  split <;> simp
@[simp] theorem State.cacheUse_ctrl (s : State) (e : XEnt) : (State.cacheUse s e).ctrl = s.ctrl := rfl
@[simp] theorem State.cacheDrop_ctrl (s : State) (f : XEnt → Bool) : (State.cacheDrop s f).ctrl = s.ctrl := rfl
theorem State.askXlate_ctrl (s : State) (x1 : XReq) : ∀ r, State.askXlate s x1 = some r → r.2.ctrl = s.ctrl := by
  intro r h
  simp only [State.askXlate, Option.map_eq_some_iff] at h
  obtain ⟨a, -, rfl⟩ := h
  simp [State.time_ctrl, State.ctl_ctrl, State.power_ctrl, State.boot_ctrl, State.prov_ctrl, State.pending_ctrl]
@[simp] theorem State.cacheAdd_ctrl (s : State) (e : XEnt) : (State.cacheAdd s e).ctrl = s.ctrl := rfl
theorem State.issueMem_ctrl (s : State) (x1 : MemReq) : ∀ r, State.issueMem s x1 = some r → r.2.2.ctrl = s.ctrl := by
  intro r h
  simp only [State.issueMem, Option.map_eq_some_iff] at h
  obtain ⟨a, -, rfl⟩ := h
  simp [State.time_ctrl, State.ctl_ctrl, State.power_ctrl, State.boot_ctrl, State.prov_ctrl, State.pending_ctrl]
@[simp] theorem State.perturb_ctrl (s : State) (c : Nat) : (State.perturb s c).ctrl = s.ctrl := rfl
@[simp] theorem State.ackInvs_ctrl (x0 : Nat) (x1 : State) : (State.ackInvs x0 x1).ctrl = x1.ctrl := by
  induction x0 generalizing x1 with
  | zero => rfl
  | succ n ih =>
    unfold State.ackInvs
    repeat' split
    all_goals simp [ih, State.time_ctrl, State.ctl_ctrl, State.power_ctrl, State.boot_ctrl, State.prov_ctrl, State.pending_ctrl]
@[simp] theorem State.modStream_ctrl (s : State) (c : Nat) (i : Nat) (f : Stream → Stream) : (State.modStream s c i f).ctrl = s.ctrl := rfl
@[simp] theorem State.takePair_ctrl (s : State) (c : Nat) (i : Nat) : (State.takePair s c i).ctrl = s.ctrl := rfl
@[simp] theorem State.prefetch_ctrl (s : State) (c : Nat) (i : Nat) : (State.prefetch s c i).ctrl = s.ctrl := by
  unfold State.prefetch
  (repeat' split) <;> first | (simp [State.time_ctrl, State.ctl_ctrl, State.power_ctrl, State.boot_ctrl, State.prov_ctrl, State.pending_ctrl, ctrl_ite]; done) | (simp [State.time_ctrl, State.ctl_ctrl, State.power_ctrl, State.boot_ctrl, State.prov_ctrl, State.pending_ctrl, ctrl_ite, State.askXlate_ctrl _ _ _  (by assumption)]; done)
@[simp] theorem State.streamStep_ctrl (s : State) (c : Nat) (i : Nat) : (State.streamStep s c i).ctrl = s.ctrl := by
  unfold State.streamStep
  dsimp only
  (repeat' split) <;> first | (simp [State.time_ctrl, State.ctl_ctrl, State.power_ctrl, State.boot_ctrl, State.prov_ctrl, State.pending_ctrl, ctrl_ite]; done) | (simp [State.time_ctrl, State.ctl_ctrl, State.power_ctrl, State.boot_ctrl, State.prov_ctrl, State.pending_ctrl, ctrl_ite, State.askXlate_ctrl _ _ _  (by assumption)]; done) | (simp [State.time_ctrl, State.ctl_ctrl, State.power_ctrl, State.boot_ctrl, State.prov_ctrl, State.pending_ctrl, ctrl_ite, State.issueMem_ctrl _ _ _  (by assumption)]; done)
@[simp] theorem State.weldStage_ctrl (s : State) (c : Nat) (i : Nat) (h : Heat) (st : Stream) : (State.weldStage s c i h st).ctrl = s.ctrl := by
  unfold State.weldStage
  (repeat' split) <;> simp
@[simp] theorem State.weldOutStep_ctrl (s : State) (c : Nat) (i : Nat) : (State.weldOutStep s c i).ctrl = s.ctrl := by
  unfold State.weldOutStep
  dsimp only
  (repeat' split) <;> simp [State.time_ctrl, State.ctl_ctrl, State.power_ctrl, State.boot_ctrl, State.prov_ctrl, State.pending_ctrl, ctrl_ite]
@[simp] theorem State.traceAsk_ctrl (s : State) (o : ReqFor) (vp : Nat) (write : Bool) : (State.traceAsk s o vp write).ctrl = s.ctrl := by
  unfold State.traceAsk
  split
  · rfl
  · split
    · next h => exact State.askXlate_ctrl _ _ _ h
    · rfl
@[simp] theorem State.tracePump_ctrl (n : Nat) (s : State) : (State.tracePump n s).ctrl = s.ctrl := by
  induction n generalizing s with
  | zero => rfl
  | succ n ih =>
    unfold State.tracePump
    dsimp only
    (repeat' split) <;> first | rfl | exact State.traceAsk_ctrl .. | (rw [ih]; exact State.issueMem_ctrl _ _ _ (by assumption))
@[simp] theorem State.traceStop_ctrl (s : State) (full : Bool) : (State.traceStop s full).ctrl = s.ctrl := by simp [State.traceStop, State.time_ctrl, State.ctl_ctrl, State.power_ctrl, State.boot_ctrl, State.prov_ctrl, State.pending_ctrl]
@[simp] theorem State.traceEntry_ctrl (s : State) (e : BitVec 128) : (State.traceEntry s e).ctrl = s.ctrl := by
  unfold State.traceEntry
  (repeat' split) <;> simp [State.time_ctrl, State.ctl_ctrl, State.power_ctrl, State.boot_ctrl, State.prov_ctrl, State.pending_ctrl]
@[simp] theorem State.traceInput_ctrl (s : State) (part : Option Nat) (code : Nat) (fs : List (Nat × Nat)) : (State.traceInput s part code fs).ctrl = s.ctrl := by
  unfold State.traceInput
  (repeat' split) <;> simp
@[simp] theorem State.traceClose_ctrl (s : State) (c : Nat) : (State.traceClose s c).ctrl = s.ctrl := by
  unfold State.traceClose
  dsimp only
  (repeat' split) <;> simp [State.time_ctrl, State.ctl_ctrl, State.power_ctrl, State.boot_ctrl, State.prov_ctrl, State.pending_ctrl, ctrl_ite]
@[simp] theorem State.traceCloseAll_ctrl (s : State) : (State.traceCloseAll s).ctrl = s.ctrl := by simp [State.traceCloseAll]
@[simp] theorem State.recordEnd_ctrl (s : State) : (State.recordEnd s).ctrl = s.ctrl := by
  unfold State.recordEnd
  dsimp only
  (repeat' split) <;> simp [State.time_ctrl, State.ctl_ctrl, State.power_ctrl, State.boot_ctrl, State.prov_ctrl, State.pending_ctrl, ctrl_ite]
@[simp] theorem State.traceArrival_ctrl (s : State) (c : Nat) (h : Heat) (src : Nat) (seq : BitVec 13) : (State.traceArrival s c h src seq).ctrl = s.ctrl := by
  unfold State.traceArrival
  (repeat' split) <;> simp [State.time_ctrl, State.ctl_ctrl, State.power_ctrl, State.boot_ctrl, State.prov_ctrl, State.pending_ctrl]
@[simp] theorem State.traceXlate_ctrl (s : State) (h : Heat) (st : StreamId) (size : Nat) (fault : Bool) (fail : Bool) (ppage : Nat) : (State.traceXlate s h st size fault fail ppage).ctrl = s.ctrl := by simp [State.traceXlate]
@[simp] theorem State.replayEnd_ctrl (s : State) : (State.replayEnd s).ctrl = s.ctrl := rfl
@[simp] theorem State.diverge_ctrl (s : State) (reason : Nat) (idx : Nat) : (State.diverge s reason idx).ctrl = s.ctrl := rfl
@[simp] theorem State.replayOver_ctrl (s : State) : (State.replayOver s).ctrl = s.ctrl := by
  unfold State.replayOver
  (repeat' split) <;> simp
@[simp] theorem State.replayTake_ctrl (s : State) (idx : Nat) : (State.replayTake s idx).ctrl = s.ctrl := by simp [State.replayTake, State.time_ctrl, State.ctl_ctrl, State.power_ctrl, State.boot_ctrl, State.prov_ctrl, State.pending_ctrl]
@[simp] theorem State.replayArrival_ctrl (s : State) (h : Heat) : (State.replayArrival s h).ctrl = s.ctrl := by
  unfold State.replayArrival
  (repeat' split) <;> simp [State.time_ctrl, State.ctl_ctrl, State.power_ctrl, State.boot_ctrl, State.prov_ctrl, State.pending_ctrl]
@[simp] theorem State.compareXlate_ctrl (s : State) (no : Nat) (fs : Nat) : (State.compareXlate s no fs).ctrl = s.ctrl := by
  unfold State.compareXlate
  (repeat' split) <;> simp [State.time_ctrl, State.ctl_ctrl, State.power_ctrl, State.boot_ctrl, State.prov_ctrl, State.pending_ctrl]
@[simp] theorem State.replayXlate_ctrl (s : State) (h : Heat) (st : StreamId) (size : Nat) (fault : Bool) (fail : Bool) (ppage : Nat) : (State.replayXlate s h st size fault fail ppage).ctrl = s.ctrl := by
  simp only [State.replayXlate]
  (repeat' split) <;> simp [State.time_ctrl, State.ctl_ctrl, State.power_ctrl, State.boot_ctrl, State.prov_ctrl, State.pending_ctrl, ctrl_ite]
@[simp] theorem State.compareMet_ctrl (s : State) : (State.compareMet s).ctrl = s.ctrl := by
  unfold State.compareMet
  dsimp only
  (repeat' split) <;> simp [State.time_ctrl, State.ctl_ctrl, State.power_ctrl, State.boot_ctrl, State.prov_ctrl, State.pending_ctrl, ctrl_ite]
@[simp] theorem State.replayRead_ctrl (s : State) : (State.replayRead s).ctrl = s.ctrl := by
  unfold State.replayRead
  dsimp only
  (repeat' split) <;> first | (simp [State.time_ctrl, State.ctl_ctrl, State.power_ctrl, State.boot_ctrl, State.prov_ctrl, State.pending_ctrl, ctrl_ite]; done) | (simp [State.time_ctrl, State.ctl_ctrl, State.power_ctrl, State.boot_ctrl, State.prov_ctrl, State.pending_ctrl, ctrl_ite, State.issueMem_ctrl _ _ _  (by assumption)]; done)
@[simp] theorem State.replayGot_ctrl (s : State) (n : Nat) (rdata : Payload) : (State.replayGot s n rdata).ctrl = s.ctrl := by simp [State.replayGot, State.time_ctrl, State.ctl_ctrl, State.power_ctrl, State.boot_ctrl, State.prov_ctrl, State.pending_ctrl]
@[simp] theorem State.sendCtl_ctrl (s : State) (c : Nat) (b : Billet) : (State.sendCtl s c b).ctrl = s.ctrl := by
  unfold State.sendCtl
  (repeat' split) <;> simp
@[simp] theorem State.flushCtl_ctrl (s : State) (c : Nat) : (State.flushCtl s c).ctrl = s.ctrl := by
  unfold State.flushCtl
  (repeat' split) <;> simp
@[simp] theorem State.sendReady_ctrl (s : State) (c : Nat) (x2 : Nat) : (State.sendReady s c x2).ctrl = s.ctrl := by
  unfold State.sendReady
  (repeat' split) <;> simp
@[simp] theorem State.sendReply_ctrl (s : State) (c : Nat) (x2 : Nat) (dest : BitVec 16) (mismatch : Bool) : (State.sendReply s c x2 dest mismatch).ctrl = s.ctrl := by
  unfold State.sendReply
  (repeat' split) <;> simp
@[simp] theorem State.sendAll_ctrl (s : State) (bs : List (Billet × Option Nat)) : (State.sendAll s bs).ctrl = s.ctrl := by
  unfold State.sendAll
  apply State.foldl_ctrl
  intro s x
  split <;> simp
@[simp] theorem State.sendFlow_ctrl (s : State) (c : Nat) (i : Nat) (x3 : Nat) : (State.sendFlow s c i x3).ctrl = s.ctrl := by
  induction x3 generalizing s with
  | zero => rfl
  | succ n ih =>
    unfold State.sendFlow
    dsimp only
    repeat' split
    all_goals simp [ih, State.time_ctrl, State.ctl_ctrl, State.power_ctrl, State.boot_ctrl, State.prov_ctrl, State.pending_ctrl, ctrl_ite]
@[simp] theorem State.sendFlows_ctrl (s : State) (c : Nat) : (State.sendFlows s c).ctrl = s.ctrl := by
  unfold State.sendFlows
  (repeat' split) <;> simp
@[simp] theorem State.flowReply_ctrl (s : State) (c : Nat) (i : Nat) (kind : BitVec 4) (val : Nat) : (State.flowReply s c i kind val).ctrl = s.ctrl := by
  unfold State.flowReply
  (repeat' split) <;> simp
@[simp] theorem State.modIn_ctrl (s : State) (c : Nat) (i : Nat) (g : FlowIn → FlowIn) : (State.modIn s c i g).ctrl = s.ctrl := rfl
@[simp] theorem State.modOut_ctrl (s : State) (c : Nat) (i : Nat) (g : FlowOut → FlowOut) : (State.modOut s c i g).ctrl = s.ctrl := rfl
@[simp] theorem State.sendCommit_ctrl (s : State) (c : Nat) (i : Nat) : (State.sendCommit s c i).ctrl = s.ctrl := by
  unfold State.sendCommit
  (repeat' split) <;> simp
@[simp] theorem State.reportIns_ctrl (s : State) (c : Nat) : (State.reportIns s c).ctrl = s.ctrl := by
  unfold State.reportIns
  (repeat' (first | rfl | intro _ _ | rw [State.foldl_ctrl] | split)) <;> simp [State.time_ctrl, State.ctl_ctrl, State.power_ctrl, State.boot_ctrl, State.prov_ctrl, State.pending_ctrl, ctrl_ite]
@[simp] theorem State.sendResume_ctrl (s : State) (c : Nat) (i : Nat) : (State.sendResume s c i).ctrl = s.ctrl := by
  unfold State.sendResume
  (repeat' split) <;> simp
@[simp] theorem State.resumeRefused_ctrl (s : State) (c n : Nat) : (State.resumeRefused s c n).ctrl = s.ctrl := by
  induction n generalizing s with
  | zero => rfl
  | succ n ih =>
    unfold State.resumeRefused
    (repeat' split) <;> simp [ih]
@[simp] theorem State.sendBeacons_ctrl (s : State) (c : Nat) (origin : Nat) (count : BitVec 16) (paused : Bool) (skip : Option Nat) : (State.sendBeacons s c origin count paused skip).ctrl = s.ctrl := by
  unfold State.sendBeacons
  dsimp only
  (repeat' (first | rfl | intro _ _ | rw [State.foldl_ctrl] | split | simp)) <;> simp [State.time_ctrl, State.ctl_ctrl, State.power_ctrl, State.boot_ctrl, State.prov_ctrl, State.pending_ctrl, ctrl_ite]
@[simp] theorem State.modSet_ctrl (s : State) (p : Nat) (k : Nat) (i : Nat) (f : SetSt → SetSt) : (State.modSet s p k i f).ctrl = s.ctrl := by
  unfold State.modSet
  (repeat' split) <;> simp
@[simp] theorem State.heatSet_ctrl (s : State) (h : Heat) (f : SetSt → SetSt) : (State.heatSet s h f).ctrl = s.ctrl := by
  unfold State.heatSet
  (repeat' split) <;> simp
@[simp] theorem State.freeTags_ctrl (s : State) (c : Nat) (held : Option (Nat × Nat)) : (State.freeTags s c held).ctrl = s.ctrl := by
  unfold State.freeTags
  (repeat' (first | rfl | intro _ _ | rw [State.foldl_ctrl] | split)) <;> simp [State.time_ctrl, State.ctl_ctrl, State.power_ctrl, State.boot_ctrl, State.prov_ctrl, State.pending_ctrl, ctrl_ite]
@[simp] theorem State.unbind_ctrl (s : State) (h : Heat) : (State.unbind s h).ctrl = s.ctrl := by
  unfold State.unbind
  (repeat' (first | rfl | intro _ _ | rw [State.foldl_ctrl] | split)) <;> simp [State.time_ctrl, State.ctl_ctrl, State.power_ctrl, State.boot_ctrl, State.prov_ctrl, State.pending_ctrl, ctrl_ite]
@[simp] theorem State.abandon_ctrl (s : State) (c : Nat) : (State.abandon s c).ctrl = s.ctrl := rfl
@[simp] theorem State.lateGrants_ctrl (s : State) (h : Heat) : (State.lateGrants s h).ctrl = s.ctrl := rfl
@[simp] theorem State.endHeat_time (s : State) (c : Nat) (st : Status) : (State.endHeat s c st).ctrl.time = s.ctrl.time := by
  unfold State.endHeat
  dsimp only
  (repeat' split) <;> simp_all [State.time_ctrl, State.ctl_ctrl, State.power_ctrl, State.boot_ctrl, State.prov_ctrl, State.pending_ctrl, ctrl_ite]
@[simp] theorem State.endHeat_ctl (s : State) (c : Nat) (st : Status) : (State.endHeat s c st).ctrl.ctl = s.ctrl.ctl := by
  unfold State.endHeat
  (repeat' split) <;> simp [State.time_ctrl, State.ctl_ctrl, State.power_ctrl, State.boot_ctrl, State.prov_ctrl, State.pending_ctrl]
@[simp] theorem State.endHeat_rest (s : State) (c : Nat) (st : Status) : (State.endHeat s c st).ctrl.rest = s.ctrl.rest := by
  unfold State.endHeat
  (repeat' split) <;> simp [State.time_ctrl, State.ctl_ctrl, State.power_ctrl, State.boot_ctrl, State.prov_ctrl, State.pending_ctrl]
@[simp] theorem State.writeRecord_ctrl (s : State) (pa : Nat) (page : Nat × Nat) (sp : Space) (q : Nat) (notify : Bool) (x6 : BitVec 128) : (State.writeRecord s pa page sp q notify x6).ctrl = s.ctrl := rfl
@[simp] theorem State.complete_ctrl (s : State) (c : Nat) : (State.complete s c).ctrl = s.ctrl := by
  unfold State.complete
  (repeat' split) <;> simp
@[simp] theorem State.flips_ctrl (s : State) (fs : List Flip) : (State.flips s fs).ctrl = s.ctrl := rfl
@[simp] theorem State.written_ctrl (s : State) (p : Nat → Bool) : (State.written s p).ctrl = s.ctrl := rfl
@[simp] theorem State.ingotsWritten_ctrl (s : State) (is : List Nat) : (State.ingotsWritten s is).ctrl = s.ctrl := rfl
@[simp] theorem State.eccLog_ctrl (s : State) (k : Nat) (patrol : Bool) : (State.eccLog s k patrol).ctrl = s.ctrl := by
  unfold State.eccLog
  dsimp only
  (repeat' split) <;> simp [State.time_ctrl, State.ctl_ctrl, State.power_ctrl, State.boot_ctrl, State.prov_ctrl, State.pending_ctrl, ctrl_ite]
@[simp] theorem State.readWord_ctrl (s : State) (k : Nat) (patrol : Bool) : (State.readWord s k patrol).1.ctrl = s.ctrl := by
  unfold State.readWord
  (repeat' split) <;> simp [State.time_ctrl, State.ctl_ctrl, State.power_ctrl, State.boot_ctrl, State.prov_ctrl, State.pending_ctrl]
@[simp] theorem State.readAll_ctrl (l : List Nat) (s : State) : (State.readAll l s).1.ctrl = s.ctrl := by
  induction l generalizing s with
  | nil => rfl
  | cons k l ih =>
    unfold State.readAll
    dsimp only
    split <;> simp [ih]
@[simp] theorem State.readUnits_ctrl (s : State) (sl : Slot) (i : Nat) (qs : List Nat) : (State.readUnits s sl i qs).1.ctrl = s.ctrl := by
  unfold State.readUnits
  (repeat' split) <;> simp
@[simp] theorem State.readBias_ctrl (s : State) (sl : Slot) : (State.readBias s sl).1.ctrl = s.ctrl := by
  unfold State.readBias
  (repeat' split) <;> simp
@[simp] theorem State.eccEnds_time (s : State) (c : Nat) (h : Heat) : (State.eccEnds s c h).ctrl.time = s.ctrl.time := by simp [State.eccEnds]
@[simp] theorem State.eccEnds_ctl (s : State) (c : Nat) (h : Heat) : (State.eccEnds s c h).ctrl.ctl = s.ctrl.ctl := by simp [State.eccEnds]
@[simp] theorem State.eccEnds_rest (s : State) (c : Nat) (h : Heat) : (State.eccEnds s c h).ctrl.rest = s.ctrl.rest := by simp [State.eccEnds]
@[simp] theorem State.goOn_time (s : State) (c : Nat) (h : Heat) (pl : Plane) : (State.goOn s c h pl).1.ctrl.time = s.ctrl.time := by
  unfold State.goOn
  dsimp only
  (repeat' split) <;> simp [State.time_ctrl, State.ctl_ctrl, State.power_ctrl, State.boot_ctrl, State.prov_ctrl, State.pending_ctrl, ctrl_ite]
@[simp] theorem State.goOn_ctl (s : State) (c : Nat) (h : Heat) (pl : Plane) : (State.goOn s c h pl).1.ctrl.ctl = s.ctrl.ctl := by
  unfold State.goOn
  dsimp only
  (repeat' split) <;> simp [State.time_ctrl, State.ctl_ctrl, State.power_ctrl, State.boot_ctrl, State.prov_ctrl, State.pending_ctrl, ctrl_ite]
@[simp] theorem State.goOn_rest (s : State) (c : Nat) (h : Heat) (pl : Plane) : (State.goOn s c h pl).1.ctrl.rest = s.ctrl.rest := by
  unfold State.goOn
  dsimp only
  (repeat' split) <;> simp [State.time_ctrl, State.ctl_ctrl, State.power_ctrl, State.boot_ctrl, State.prov_ctrl, State.pending_ctrl, ctrl_ite]
@[simp] theorem State.modDp_ctrl (s : State) (c : Nat) (f : Plane → Plane) : (State.modDp s c f).ctrl = s.ctrl := rfl
@[simp] theorem State.lastAddition_time (s : State) (c : Nat) : (State.lastAddition s c).ctrl.time = s.ctrl.time := by
  unfold State.lastAddition
  dsimp only
  (repeat' split) <;> simp [State.time_ctrl, State.ctl_ctrl, State.power_ctrl, State.boot_ctrl, State.prov_ctrl, State.pending_ctrl, ctrl_ite]
@[simp] theorem State.lastAddition_ctl (s : State) (c : Nat) : (State.lastAddition s c).ctrl.ctl = s.ctrl.ctl := by
  unfold State.lastAddition
  dsimp only
  (repeat' split) <;> simp [State.time_ctrl, State.ctl_ctrl, State.power_ctrl, State.boot_ctrl, State.prov_ctrl, State.pending_ctrl, ctrl_ite]
@[simp] theorem State.lastAddition_rest (s : State) (c : Nat) : (State.lastAddition s c).ctrl.rest = s.ctrl.rest := by
  unfold State.lastAddition
  dsimp only
  (repeat' split) <;> simp [State.time_ctrl, State.ctl_ctrl, State.power_ctrl, State.boot_ctrl, State.prov_ctrl, State.pending_ctrl, ctrl_ite]
@[simp] theorem State.freeCirc_ctrl (s : State) (i : Nat) : (State.freeCirc s i).ctrl = s.ctrl := by
  unfold State.freeCirc
  (repeat' split) <;> simp
@[simp] theorem State.releaseCircuits_ctrl (s : State) (p : Plan) : (State.releaseCircuits s p).ctrl = s.ctrl := by
  unfold State.releaseCircuits
  (repeat' (first | rfl | intro _ _ | rw [State.foldl_ctrl] | split)) <;> simp [State.time_ctrl, State.ctl_ctrl, State.power_ctrl, State.boot_ctrl, State.prov_ctrl, State.pending_ctrl, ctrl_ite]
@[simp] theorem State.unloadPlan_ctrl (s : State) (k : Nat) : (State.unloadPlan s k).ctrl = s.ctrl := by
  unfold State.unloadPlan
  (repeat' split) <;> simp
@[simp] theorem State.giveTags_ctrl (s : State) (c : Nat) : (State.giveTags s c).ctrl = s.ctrl := by
  unfold State.giveTags
  dsimp only
  (repeat' (first | rfl | intro _ _ | rw [State.foldl_ctrl] | split | simp)) <;> simp [State.time_ctrl, State.ctl_ctrl, State.power_ctrl, State.boot_ctrl, State.prov_ctrl, State.pending_ctrl, ctrl_ite]
@[simp] theorem State.bindCircuits_ctrl (s : State) (c : Nat) (p : Plan) : (State.bindCircuits s c p).ctrl = s.ctrl := by
  unfold State.bindCircuits
  (repeat' (first | rfl | intro _ _ | rw [State.foldl_ctrl] | split)) <;> simp [State.time_ctrl, State.ctl_ctrl, State.power_ctrl, State.boot_ctrl, State.prov_ctrl, State.pending_ctrl, ctrl_ite]
@[simp] theorem State.perturbDegraded_ctrl (s : State) (c : Nat) : (State.perturbDegraded s c).ctrl = s.ctrl := by
  unfold State.perturbDegraded
  (repeat' split) <;> simp
@[simp] theorem State.meet_ctrl (s : State) (c : Nat) : (State.meet s c).ctrl = s.ctrl := by
  unfold State.meet
  (repeat' split) <;> simp
@[simp] theorem State.readMap_time (s : State) (c : Nat) : (State.readMap s c).ctrl.time = s.ctrl.time := by
  unfold State.readMap
  (repeat' split) <;> simp
@[simp] theorem State.readMap_ctl (s : State) (c : Nat) : (State.readMap s c).ctrl.ctl = s.ctrl.ctl := by
  unfold State.readMap
  (repeat' split) <;> simp
@[simp] theorem State.readMap_rest (s : State) (c : Nat) : (State.readMap s c).ctrl.rest = s.ctrl.rest := by
  unfold State.readMap
  (repeat' split) <;> simp
@[simp] theorem State.mapRead_time (s : State) (c : Nat) : (State.mapRead s c).ctrl.time = s.ctrl.time := by
  unfold State.mapRead
  dsimp only
  (repeat' split) <;> simp [State.time_ctrl, State.ctl_ctrl, State.power_ctrl, State.boot_ctrl, State.prov_ctrl, State.pending_ctrl, ctrl_ite]
@[simp] theorem State.mapRead_ctl (s : State) (c : Nat) : (State.mapRead s c).ctrl.ctl = s.ctrl.ctl := by
  unfold State.mapRead
  dsimp only
  (repeat' split) <;> simp [State.time_ctrl, State.ctl_ctrl, State.power_ctrl, State.boot_ctrl, State.prov_ctrl, State.pending_ctrl, ctrl_ite]
@[simp] theorem State.mapRead_rest (s : State) (c : Nat) : (State.mapRead s c).ctrl.rest = s.ctrl.rest := by
  unfold State.mapRead
  dsimp only
  (repeat' split) <;> simp [State.time_ctrl, State.ctl_ctrl, State.power_ctrl, State.boot_ctrl, State.prov_ctrl, State.pending_ctrl, ctrl_ite]
@[simp] theorem State.enterGroup_time (s : State) (c : Nat) (k : Nat) (p : Plan) (d : Desc) (w : Words) (obj : Option Nat) : (State.enterGroup s c k p d w obj).ctrl.time = s.ctrl.time := by
  unfold State.enterGroup
  (repeat' split) <;> first | (simp [State.time_ctrl, State.ctl_ctrl, State.power_ctrl, State.boot_ctrl, State.prov_ctrl, State.pending_ctrl, ctrl_ite]; done)
@[simp] theorem State.enterGroup_ctl (s : State) (c : Nat) (k : Nat) (p : Plan) (d : Desc) (w : Words) (obj : Option Nat) : (State.enterGroup s c k p d w obj).ctrl.ctl = s.ctrl.ctl := by
  unfold State.enterGroup
  (repeat' split) <;> first | (simp [State.time_ctrl, State.ctl_ctrl, State.power_ctrl, State.boot_ctrl, State.prov_ctrl, State.pending_ctrl, ctrl_ite]; done)
@[simp] theorem State.enterGroup_rest (s : State) (c : Nat) (k : Nat) (p : Plan) (d : Desc) (w : Words) (obj : Option Nat) : (State.enterGroup s c k p d w obj).ctrl.rest = s.ctrl.rest := by
  unfold State.enterGroup
  (repeat' split) <;> first | (simp [State.time_ctrl, State.ctl_ctrl, State.power_ctrl, State.boot_ctrl, State.prov_ctrl, State.pending_ctrl, ctrl_ite]; done)
@[simp] theorem State.startGroup_time (s : State) (c : Nat) : (State.startGroup s c).ctrl.time = s.ctrl.time := by
  unfold State.startGroup
  dsimp only
  (repeat' split) <;> simp_all [State.time_ctrl, State.ctl_ctrl, State.power_ctrl, State.boot_ctrl, State.prov_ctrl, State.pending_ctrl, ctrl_ite]
@[simp] theorem State.startGroup_ctl (s : State) (c : Nat) : (State.startGroup s c).ctrl.ctl = s.ctrl.ctl := by
  unfold State.startGroup
  dsimp only
  (repeat' (first | rfl | intro _ _ | rw [State.foldl_ctl] | split | simp)) <;> simp [State.time_ctrl, State.ctl_ctrl, State.power_ctrl, State.boot_ctrl, State.prov_ctrl, State.pending_ctrl, ctrl_ite]
@[simp] theorem State.startGroup_rest (s : State) (c : Nat) : (State.startGroup s c).ctrl.rest = s.ctrl.rest := by
  unfold State.startGroup
  dsimp only
  (repeat' split) <;> simp_all [State.time_ctrl, State.ctl_ctrl, State.power_ctrl, State.boot_ctrl, State.prov_ctrl, State.pending_ctrl, ctrl_ite]
@[simp] theorem State.pinAsk_ctrl (s : State) (c : Nat) (h : Heat) : (State.pinAsk s c h).ctrl = s.ctrl := by
  unfold State.pinAsk
  (repeat' split) <;> first | (simp [State.time_ctrl, State.ctl_ctrl, State.power_ctrl, State.boot_ctrl, State.prov_ctrl, State.pending_ctrl, ctrl_ite]; done) | (simp [State.time_ctrl, State.ctl_ctrl, State.power_ctrl, State.boot_ctrl, State.prov_ctrl, State.pending_ctrl, ctrl_ite, State.askXlate_ctrl _ _ _  (by assumption)]; done)
@[simp] theorem State.pinned_time (s : State) (c : Nat) (h : Heat) : (State.pinned s c h).ctrl.time = s.ctrl.time := by
  unfold State.pinned
  (repeat' split) <;> simp
@[simp] theorem State.pinned_ctl (s : State) (c : Nat) (h : Heat) : (State.pinned s c h).ctrl.ctl = s.ctrl.ctl := by
  unfold State.pinned
  (repeat' split) <;> simp
@[simp] theorem State.pinned_rest (s : State) (c : Nat) (h : Heat) : (State.pinned s c h).ctrl.rest = s.ctrl.rest := by
  unfold State.pinned
  (repeat' split) <;> simp
@[simp] theorem State.pinStep_time (s : State) (c : Nat) : (State.pinStep s c).ctrl.time = s.ctrl.time := by
  unfold State.pinStep
  dsimp only
  (repeat' split) <;> simp [State.time_ctrl, State.ctl_ctrl, State.power_ctrl, State.boot_ctrl, State.prov_ctrl, State.pending_ctrl, ctrl_ite]
@[simp] theorem State.pinStep_ctl (s : State) (c : Nat) : (State.pinStep s c).ctrl.ctl = s.ctrl.ctl := by
  unfold State.pinStep
  dsimp only
  (repeat' split) <;> simp [State.time_ctrl, State.ctl_ctrl, State.power_ctrl, State.boot_ctrl, State.prov_ctrl, State.pending_ctrl, ctrl_ite]
@[simp] theorem State.pinStep_rest (s : State) (c : Nat) : (State.pinStep s c).ctrl.rest = s.ctrl.rest := by
  unfold State.pinStep
  dsimp only
  (repeat' split) <;> simp [State.time_ctrl, State.ctl_ctrl, State.power_ctrl, State.boot_ctrl, State.prov_ctrl, State.pending_ctrl, ctrl_ite]
@[simp] theorem State.releaseSets_ctrl (s : State) (p : Nat) (k : Nat) : (State.releaseSets s p k).ctrl = s.ctrl := by
  unfold State.releaseSets
  (repeat' split) <;> simp [State.time_ctrl, State.ctl_ctrl, State.power_ctrl, State.boot_ctrl, State.prov_ctrl, State.pending_ctrl]
@[simp] theorem State.startReads_ctrl (s : State) (h : Heat) (sl : Slot) : (State.startReads s h sl).1.ctrl = s.ctrl := by
  unfold State.startReads
  (repeat' split) <;> simp
@[simp] theorem State.startEcc_time (s : State) (c : Nat) (p : Nat) (h : Heat) (sl : Slot) : (State.startEcc s c p h sl).ctrl.time = s.ctrl.time := by
  unfold State.startEcc
  (repeat' split) <;> simp
@[simp] theorem State.startEcc_ctl (s : State) (c : Nat) (p : Nat) (h : Heat) (sl : Slot) : (State.startEcc s c p h sl).ctrl.ctl = s.ctrl.ctl := by
  unfold State.startEcc
  (repeat' split) <;> simp
@[simp] theorem State.startEcc_rest (s : State) (c : Nat) (p : Nat) (h : Heat) (sl : Slot) : (State.startEcc s c p h sl).ctrl.rest = s.ctrl.rest := by
  unfold State.startEcc
  (repeat' split) <;> simp
@[simp] theorem State.takeSet_time (s : State) (c : Nat) (p : Nat) (h : Heat) : (State.takeSet s c p h).ctrl.time = s.ctrl.time := by
  unfold State.takeSet
  dsimp only
  (repeat' split) <;> simp [State.time_ctrl, State.ctl_ctrl, State.power_ctrl, State.boot_ctrl, State.prov_ctrl, State.pending_ctrl, ctrl_ite]
@[simp] theorem State.takeSet_ctl (s : State) (c : Nat) (p : Nat) (h : Heat) : (State.takeSet s c p h).ctrl.ctl = s.ctrl.ctl := by
  unfold State.takeSet
  dsimp only
  (repeat' split) <;> simp [State.time_ctrl, State.ctl_ctrl, State.power_ctrl, State.boot_ctrl, State.prov_ctrl, State.pending_ctrl, ctrl_ite]
@[simp] theorem State.takeSet_rest (s : State) (c : Nat) (p : Nat) (h : Heat) : (State.takeSet s c p h).ctrl.rest = s.ctrl.rest := by
  unfold State.takeSet
  dsimp only
  (repeat' split) <;> simp [State.time_ctrl, State.ctl_ctrl, State.power_ctrl, State.boot_ctrl, State.prov_ctrl, State.pending_ctrl, ctrl_ite]
@[simp] theorem State.preloadDone_time (s : State) (c : Nat) : (State.preloadDone s c).ctrl.time = s.ctrl.time := by
  unfold State.preloadDone
  (repeat' split) <;> simp
@[simp] theorem State.preloadDone_ctl (s : State) (c : Nat) : (State.preloadDone s c).ctrl.ctl = s.ctrl.ctl := by
  unfold State.preloadDone
  (repeat' split) <;> simp
@[simp] theorem State.preloadDone_rest (s : State) (c : Nat) : (State.preloadDone s c).ctrl.rest = s.ctrl.rest := by
  unfold State.preloadDone
  (repeat' split) <;> simp
@[simp] theorem State.beginDrain_time (s : State) (c : Nat) (p : Nat) (h : Heat) (sl : Slot) : (State.beginDrain s c p h sl).ctrl.time = s.ctrl.time := by
  unfold State.beginDrain
  dsimp only
  (repeat' split) <;> simp [State.time_ctrl, State.ctl_ctrl, State.power_ctrl, State.boot_ctrl, State.prov_ctrl, State.pending_ctrl, ctrl_ite]
@[simp] theorem State.beginDrain_ctl (s : State) (c : Nat) (p : Nat) (h : Heat) (sl : Slot) : (State.beginDrain s c p h sl).ctrl.ctl = s.ctrl.ctl := by
  unfold State.beginDrain
  dsimp only
  (repeat' split) <;> simp [State.time_ctrl, State.ctl_ctrl, State.power_ctrl, State.boot_ctrl, State.prov_ctrl, State.pending_ctrl, ctrl_ite]
@[simp] theorem State.beginDrain_rest (s : State) (c : Nat) (p : Nat) (h : Heat) (sl : Slot) : (State.beginDrain s c p h sl).ctrl.rest = s.ctrl.rest := by
  unfold State.beginDrain
  dsimp only
  (repeat' split) <;> simp [State.time_ctrl, State.ctl_ctrl, State.power_ctrl, State.boot_ctrl, State.prov_ctrl, State.pending_ctrl, ctrl_ite]
@[simp] theorem State.drainDone_ctrl (s : State) (c : Nat) : (State.drainDone s c).ctrl = s.ctrl := by
  unfold State.drainDone
  dsimp only
  (repeat' split) <;> simp [State.time_ctrl, State.ctl_ctrl, State.power_ctrl, State.boot_ctrl, State.prov_ctrl, State.pending_ctrl, ctrl_ite]
@[simp] theorem State.barCheck_ctrl (s : State) (i : Nat) : (State.barCheck s i).ctrl = s.ctrl := by
  unfold State.barCheck
  dsimp only
  (repeat' split) <;> simp [State.time_ctrl, State.ctl_ctrl, State.power_ctrl, State.boot_ctrl, State.prov_ctrl, State.pending_ctrl, ctrl_ite]
@[simp] theorem State.barArrive_ctrl (s : State) (i : Nat) : (State.barArrive s i).ctrl = s.ctrl := by
  unfold State.barArrive
  dsimp only
  (repeat' split) <;> simp [State.time_ctrl, State.ctl_ctrl, State.power_ctrl, State.boot_ctrl, State.prov_ctrl, State.pending_ctrl, ctrl_ite]
@[simp] theorem State.barArm_ctrl (s : State) (i : Nat) (n : BitVec 16) : (State.barArm s i n).ctrl = s.ctrl := by
  unfold State.barArm
  (repeat' split) <;> simp
@[simp] theorem State.sendBarrier_ctrl (s : State) (c : Nat) (x2 : Nat) (release : Bool) (d : Payload) : (State.sendBarrier s c x2 release d).ctrl = s.ctrl := by
  unfold State.sendBarrier
  (repeat' split) <;> simp
@[simp] theorem State.barrierRelease_ctrl (s : State) (c : Nat) (t : W64) : (State.barrierRelease s c t).ctrl = s.ctrl := by
  unfold State.barrierRelease
  (repeat' split) <;> simp
@[simp] theorem State.barrierStep_time (s : State) (c : Nat) : (State.barrierStep s c).ctrl.time = s.ctrl.time := by
  unfold State.barrierStep
  (repeat' split) <;> simp
@[simp] theorem State.barrierStep_ctl (s : State) (c : Nat) : (State.barrierStep s c).ctrl.ctl = s.ctrl.ctl := by
  unfold State.barrierStep
  (repeat' split) <;> simp
@[simp] theorem State.barrierStep_rest (s : State) (c : Nat) : (State.barrierStep s c).ctrl.rest = s.ctrl.rest := by
  unfold State.barrierStep
  (repeat' split) <;> simp
@[simp] theorem State.openCounted_ctrl (s : State) (c : Nat) (cnts : List Nat) (rcv : W64) : (State.openCounted s c cnts rcv).ctrl = s.ctrl := by
  unfold State.openCounted
  (repeat' split) <;> simp
@[simp] theorem State.sendCounts_time (s : State) (c : Nat) (h : Heat) : (State.sendCounts s c h).ctrl.time = s.ctrl.time := by
  unfold State.sendCounts
  dsimp only
  (repeat' (first | rfl | intro _ _ | rw [State.foldl_time] | split | simp)) <;> simp [State.time_ctrl, State.ctl_ctrl, State.power_ctrl, State.boot_ctrl, State.prov_ctrl, State.pending_ctrl, ctrl_ite]
@[simp] theorem State.sendCounts_ctl (s : State) (c : Nat) (h : Heat) : (State.sendCounts s c h).ctrl.ctl = s.ctrl.ctl := by
  unfold State.sendCounts
  dsimp only
  (repeat' (first | rfl | intro _ _ | rw [State.foldl_ctl] | split | simp)) <;> simp [State.time_ctrl, State.ctl_ctrl, State.power_ctrl, State.boot_ctrl, State.prov_ctrl, State.pending_ctrl, ctrl_ite]
@[simp] theorem State.sendCounts_rest (s : State) (c : Nat) (h : Heat) : (State.sendCounts s c h).ctrl.rest = s.ctrl.rest := by
  unfold State.sendCounts
  dsimp only
  (repeat' (first | rfl | intro _ _ | rw [State.foldl_rest] | split | simp)) <;> simp [State.time_ctrl, State.ctl_ctrl, State.power_ctrl, State.boot_ctrl, State.prov_ctrl, State.pending_ctrl, ctrl_ite]
@[simp] theorem State.alltoallStep_time (s : State) (c : Nat) : (State.alltoallStep s c).ctrl.time = s.ctrl.time := by
  unfold State.alltoallStep
  dsimp only
  (repeat' split) <;> simp [State.time_ctrl, State.ctl_ctrl, State.power_ctrl, State.boot_ctrl, State.prov_ctrl, State.pending_ctrl, ctrl_ite]
@[simp] theorem State.alltoallStep_ctl (s : State) (c : Nat) : (State.alltoallStep s c).ctrl.ctl = s.ctrl.ctl := by
  unfold State.alltoallStep
  dsimp only
  (repeat' split) <;> simp [State.time_ctrl, State.ctl_ctrl, State.power_ctrl, State.boot_ctrl, State.prov_ctrl, State.pending_ctrl, ctrl_ite]
@[simp] theorem State.alltoallStep_rest (s : State) (c : Nat) : (State.alltoallStep s c).ctrl.rest = s.ctrl.rest := by
  unfold State.alltoallStep
  dsimp only
  (repeat' split) <;> simp [State.time_ctrl, State.ctl_ctrl, State.power_ctrl, State.boot_ctrl, State.prov_ctrl, State.pending_ctrl, ctrl_ite]
@[simp] theorem State.takeCount_time (s : State) (c : Nat) (x2 : Nat) (n : Nat) : (State.takeCount s c x2 n).ctrl.time = s.ctrl.time := by
  unfold State.takeCount
  (repeat' split) <;> simp
@[simp] theorem State.takeCount_ctl (s : State) (c : Nat) (x2 : Nat) (n : Nat) : (State.takeCount s c x2 n).ctrl.ctl = s.ctrl.ctl := by
  unfold State.takeCount
  (repeat' split) <;> simp
@[simp] theorem State.takeCount_rest (s : State) (c : Nat) (x2 : Nat) (n : Nat) : (State.takeCount s c x2 n).ctrl.rest = s.ctrl.rest := by
  unfold State.takeCount
  (repeat' split) <;> simp
@[simp] theorem State.recvStep_time (s : State) (c : Nat) : (State.recvStep s c).ctrl.time = s.ctrl.time := by
  unfold State.recvStep
  (repeat' split) <;> simp
@[simp] theorem State.recvStep_ctl (s : State) (c : Nat) : (State.recvStep s c).ctrl.ctl = s.ctrl.ctl := by
  unfold State.recvStep
  (repeat' split) <;> simp
@[simp] theorem State.recvStep_rest (s : State) (c : Nat) : (State.recvStep s c).ctrl.rest = s.ctrl.rest := by
  unfold State.recvStep
  (repeat' split) <;> simp
@[simp] theorem State.recvOver_ctrl (s : State) (c : Nat) : (State.recvOver s c).ctrl = s.ctrl := by
  unfold State.recvOver
  (repeat' split) <;> simp
@[simp] theorem State.rotateNext_ctrl (s : State) (c : Nat) : (State.rotateNext s c).ctrl = s.ctrl := by
  unfold State.rotateNext
  dsimp only
  (repeat' split) <;> simp [State.time_ctrl, State.ctl_ctrl, State.power_ctrl, State.boot_ctrl, State.prov_ctrl, State.pending_ctrl, ctrl_ite]
@[simp] theorem State.stepWord_ctrl (s : State) (c : Nat) : (State.stepWord s c).ctrl = s.ctrl := by
  unfold State.stepWord
  dsimp only
  (repeat' split) <;> first | (simp [State.time_ctrl, State.ctl_ctrl, State.power_ctrl, State.boot_ctrl, State.prov_ctrl, State.pending_ctrl, ctrl_ite]; done) | (simp [State.time_ctrl, State.ctl_ctrl, State.power_ctrl, State.boot_ctrl, State.prov_ctrl, State.pending_ctrl, ctrl_ite, State.askXlate_ctrl _ _ _  (by assumption)]; done)
@[simp] theorem State.rotateStep_ctrl (s : State) (c : Nat) : (State.rotateStep s c).ctrl = s.ctrl := by
  unfold State.rotateStep
  (repeat' split) <;> simp
@[simp] theorem State.planFail_time (s : State) (c : Nat) (st : Status) : (State.planFail s c st).ctrl.time = s.ctrl.time := by
  unfold State.planFail
  (repeat' split) <;> simp
@[simp] theorem State.planFail_ctl (s : State) (c : Nat) (st : Status) : (State.planFail s c st).ctrl.ctl = s.ctrl.ctl := by
  unfold State.planFail
  (repeat' split) <;> simp
@[simp] theorem State.planFail_rest (s : State) (c : Nat) (st : Status) : (State.planFail s c st).ctrl.rest = s.ctrl.rest := by
  unfold State.planFail
  (repeat' split) <;> simp
@[simp] theorem State.planReady_time (s : State) (c : Nat) : (State.planReady s c).ctrl.time = s.ctrl.time := by
  unfold State.planReady
  (repeat' split) <;> simp
@[simp] theorem State.planReady_ctl (s : State) (c : Nat) : (State.planReady s c).ctrl.ctl = s.ctrl.ctl := by
  unfold State.planReady
  (repeat' split) <;> simp
@[simp] theorem State.planReady_rest (s : State) (c : Nat) : (State.planReady s c).ctrl.rest = s.ctrl.rest := by
  unfold State.planReady
  (repeat' split) <;> simp
theorem State.reserve_here {s : State} {x : Option (Fin 40)} {m : CircMsg} {k : BitVec 12} {g : BitVec 4} {i : Nat} {t : State}
    (h : s.reserve x m k g = .here i t) : t.ctrl = s.ctrl := by
  unfold State.reserve at h
  dsimp only at h
  (repeat' split at h) <;> simp_all
  obtain ⟨-, rfl⟩ := h
  simp
theorem State.reserve_onward {s : State} {x : Option (Fin 40)} {m : CircMsg} {k : BitVec 12} {g : BitVec 4} {i p : Nat} {t : State}
    (h : s.reserve x m k g = .onward i p t) : t.ctrl = s.ctrl := by
  unfold State.reserve at h
  dsimp only at h
  (repeat' split at h) <;> simp_all
  obtain ⟨-, -, rfl⟩ := h
  simp
@[simp] theorem State.setups_ctrl (s : State) (c : Nat) (k : Nat) (l : List Nat) : (State.setups s c k l).1.ctrl = s.ctrl := by
  induction l generalizing s with
  | nil => rfl
  | cons a l ih =>
    unfold State.setups
    dsimp only
    (repeat' split) <;> simp [ih] <;> first | exact State.reserve_here (by assumption) | exact State.reserve_onward (by assumption)
@[simp] theorem State.planInstall_time (s : State) (c : Nat) (part : Nat) (h : Heat) (b : List Byte) : (State.planInstall s c part h b).ctrl.time = s.ctrl.time := by
  unfold State.planInstall
  dsimp only
  (repeat' split) <;> simp [State.time_ctrl, State.ctl_ctrl, State.power_ctrl, State.boot_ctrl, State.prov_ctrl, State.pending_ctrl, ctrl_ite]
@[simp] theorem State.planInstall_ctl (s : State) (c : Nat) (part : Nat) (h : Heat) (b : List Byte) : (State.planInstall s c part h b).ctrl.ctl = s.ctrl.ctl := by
  unfold State.planInstall
  dsimp only
  (repeat' split) <;> simp [State.time_ctrl, State.ctl_ctrl, State.power_ctrl, State.boot_ctrl, State.prov_ctrl, State.pending_ctrl, ctrl_ite]
@[simp] theorem State.planInstall_rest (s : State) (c : Nat) (part : Nat) (h : Heat) (b : List Byte) : (State.planInstall s c part h b).ctrl.rest = s.ctrl.rest := by
  unfold State.planInstall
  dsimp only
  (repeat' split) <;> simp [State.time_ctrl, State.ctl_ctrl, State.power_ctrl, State.boot_ctrl, State.prov_ctrl, State.pending_ctrl, ctrl_ite]
@[simp] theorem State.planStep_time (s : State) (c : Nat) : (State.planStep s c).ctrl.time = s.ctrl.time := by
  unfold State.planStep
  dsimp only
  (repeat' split) <;> simp [State.time_ctrl, State.ctl_ctrl, State.power_ctrl, State.boot_ctrl, State.prov_ctrl, State.pending_ctrl, ctrl_ite]
@[simp] theorem State.planStep_ctl (s : State) (c : Nat) : (State.planStep s c).ctrl.ctl = s.ctrl.ctl := by
  unfold State.planStep
  dsimp only
  (repeat' split) <;> simp [State.time_ctrl, State.ctl_ctrl, State.power_ctrl, State.boot_ctrl, State.prov_ctrl, State.pending_ctrl, ctrl_ite]
@[simp] theorem State.planStep_rest (s : State) (c : Nat) : (State.planStep s c).ctrl.rest = s.ctrl.rest := by
  unfold State.planStep
  dsimp only
  (repeat' split) <;> simp [State.time_ctrl, State.ctl_ctrl, State.power_ctrl, State.boot_ctrl, State.prov_ctrl, State.pending_ctrl, ctrl_ite]
@[simp] theorem State.notice_ctrl (s : State) (cause : Nat) (part : Option Nat) (time : BitVec 40) (fault : BitVec 128) : (State.notice s cause part time fault).ctrl = s.ctrl := by
  unfold State.notice
  (repeat' split) <;> simp
@[simp] theorem State.publish_ctrl (s : State) (cause : Nat) (part : Option Nat) (nopart : Bool) (es : List (BitVec 128)) : (State.publish s cause part nopart es).ctrl = s.ctrl := by simp [State.publish, State.time_ctrl, State.ctl_ctrl, State.power_ctrl, State.boot_ctrl, State.prov_ctrl, State.pending_ctrl]
@[simp] theorem State.capture_ctrl (s : State) (cause : Nat) (part : Option Nat) (nopart : Bool) (es : List (BitVec 128)) : (State.capture s cause part nopart es).ctrl = s.ctrl := by
  unfold State.capture
  (repeat' split) <;> simp [State.time_ctrl, State.ctl_ctrl, State.power_ctrl, State.boot_ctrl, State.prov_ctrl, State.pending_ctrl]
@[simp] theorem State.publishWaiting_ctrl (s : State) : (State.publishWaiting s).ctrl = s.ctrl := by simp [State.publishWaiting, State.time_ctrl, State.ctl_ctrl, State.power_ctrl, State.boot_ctrl, State.prov_ctrl, State.pending_ctrl]
@[simp] theorem State.captureHeats_ctrl (s : State) (cause : Nat) (part : Option Nat) (fs : List (Nat × Why)) (crash : List (BitVec 128)) : (State.captureHeats s cause part fs crash).ctrl = s.ctrl := by simp [State.captureHeats]
@[simp] theorem State.beginSample_ctrl (s : State) (c : Nat) : (State.beginSample s c).ctrl = s.ctrl := by
  unfold State.beginSample
  dsimp only
  (repeat' split) <;> simp [State.time_ctrl, State.ctl_ctrl, State.power_ctrl, State.boot_ctrl, State.prov_ctrl, State.pending_ctrl, ctrl_ite]
@[simp] theorem State.skipSample_ctrl (s : State) (c : Nat) : (State.skipSample s c).ctrl = s.ctrl := by
  unfold State.skipSample
  dsimp only
  (repeat' split) <;> simp [State.time_ctrl, State.ctl_ctrl, State.power_ctrl, State.boot_ctrl, State.prov_ctrl, State.pending_ctrl, ctrl_ite]
@[simp] theorem State.crashStep_ctrl (s : State) (c : Nat) : (State.crashStep s c).ctrl = s.ctrl := by
  unfold State.crashStep
  dsimp only
  (repeat' split) <;> first | (simp [State.time_ctrl, State.ctl_ctrl, State.power_ctrl, State.boot_ctrl, State.prov_ctrl, State.pending_ctrl, ctrl_ite]; done) | (simp [State.time_ctrl, State.ctl_ctrl, State.power_ctrl, State.boot_ctrl, State.prov_ctrl, State.pending_ctrl, ctrl_ite, State.askXlate_ctrl _ _ _  (by assumption)]; done) | (simp [State.time_ctrl, State.ctl_ctrl, State.power_ctrl, State.boot_ctrl, State.prov_ctrl, State.pending_ctrl, ctrl_ite, State.issueMem_ctrl _ _ _  (by assumption)]; done)
@[simp] theorem State.expire_time (s : State) (c : Nat) : (State.expire s c).ctrl.time = s.ctrl.time := by simp [State.expire]
@[simp] theorem State.expire_ctl (s : State) (c : Nat) : (State.expire s c).ctrl.ctl = s.ctrl.ctl := by simp [State.expire]
@[simp] theorem State.expire_rest (s : State) (c : Nat) : (State.expire s c).ctrl.rest = s.ctrl.rest := by simp [State.expire]
@[simp] theorem State.stopHeat_time (s : State) (c : Nat) (st : Status) : (State.stopHeat s c st).ctrl.time = s.ctrl.time := by
  unfold State.stopHeat
  (repeat' split) <;> simp
@[simp] theorem State.stopHeat_ctl (s : State) (c : Nat) (st : Status) : (State.stopHeat s c st).ctrl.ctl = s.ctrl.ctl := by
  unfold State.stopHeat
  (repeat' split) <;> simp
@[simp] theorem State.stopHeat_rest (s : State) (c : Nat) (st : Status) : (State.stopHeat s c st).ctrl.rest = s.ctrl.rest := by
  unfold State.stopHeat
  (repeat' split) <;> simp
@[simp] theorem State.dropFetches_ctrl (s : State) (q : Nat) : (State.dropFetches s q).ctrl = s.ctrl := rfl
@[simp] theorem State.haltQueue_ctrl (s : State) (q : Nat) : (State.haltQueue s q).ctrl = s.ctrl := rfl
@[simp] theorem State.haltPart_ctrl (s : State) (p : Nat) : (State.haltPart s p).ctrl = s.ctrl := by
  unfold State.haltPart
  dsimp only
  (repeat' (first | rfl | intro _ _ | rw [State.foldl_ctrl] | split | simp)) <;> simp [State.time_ctrl, State.ctl_ctrl, State.power_ctrl, State.boot_ctrl, State.prov_ctrl, State.pending_ctrl, ctrl_ite]
@[simp] theorem State.flushBad_ctrl (s : State) (q : Nat) : (State.flushBad s q).ctrl = s.ctrl := by
  unfold State.flushBad
  dsimp only
  (repeat' split) <;> simp [State.time_ctrl, State.ctl_ctrl, State.power_ctrl, State.boot_ctrl, State.prov_ctrl, State.pending_ctrl, ctrl_ite]
@[simp] theorem State.askBad_ctrl (s : State) (q : Nat) : (State.askBad s q).ctrl = s.ctrl := by
  unfold State.askBad
  (repeat' split) <;> first | (simp [State.time_ctrl, State.ctl_ctrl, State.power_ctrl, State.boot_ctrl, State.prov_ctrl, State.pending_ctrl, ctrl_ite]; done) | (simp [State.time_ctrl, State.ctl_ctrl, State.power_ctrl, State.boot_ctrl, State.prov_ctrl, State.pending_ctrl, ctrl_ite, State.askXlate_ctrl _ _ _  (by assumption)]; done)
@[simp] theorem State.badRecord_ctrl (s : State) (q : Nat) (hd : Option Payload) : (State.badRecord s q hd).ctrl = s.ctrl := by
  unfold State.badRecord
  dsimp only
  (repeat' split) <;> simp [State.time_ctrl, State.ctl_ctrl, State.power_ctrl, State.boot_ctrl, State.prov_ctrl, State.pending_ctrl, ctrl_ite]
@[simp] theorem State.foundWith_ctrl (s : State) (p : Nat) (q : Nat) : (State.foundWith s p q).ctrl = s.ctrl := by
  unfold State.foundWith
  dsimp only
  (repeat' (first | rfl | intro _ _ | rw [State.foldl_ctrl] | split | simp)) <;> simp [State.time_ctrl, State.ctl_ctrl, State.power_ctrl, State.boot_ctrl, State.prov_ctrl, State.pending_ctrl, ctrl_ite]
@[simp] theorem State.malformed_ctrl (s : State) (q : Nat) (reason : BitVec 4) (hd : Option Payload) : (State.malformed s q reason hd).ctrl = s.ctrl := by
  unfold State.malformed
  dsimp only
  (repeat' split) <;> simp [State.time_ctrl, State.ctl_ctrl, State.power_ctrl, State.boot_ctrl, State.prov_ctrl, State.pending_ctrl, ctrl_ite]
@[simp] theorem State.createRead_ctrl (s : State) (c : Nat) : (State.createRead s c).ctrl = s.ctrl := rfl
@[simp] theorem State.startCreate_time (s : State) (c : Nat) : (State.startCreate s c).ctrl.time = s.ctrl.time := by
  unfold State.startCreate
  (repeat' split) <;> simp
@[simp] theorem State.startCreate_ctl (s : State) (c : Nat) : (State.startCreate s c).ctrl.ctl = s.ctrl.ctl := by
  unfold State.startCreate
  (repeat' split) <;> simp
@[simp] theorem State.startCreate_rest (s : State) (c : Nat) : (State.startCreate s c).ctrl.rest = s.ctrl.rest := by
  unfold State.startCreate
  (repeat' split) <;> simp
@[simp] theorem State.createApply_time (s : State) (c : Nat) (h : Heat) (bitmap : List Nat) : (State.createApply s c h bitmap).ctrl.time = s.ctrl.time := by
  unfold State.createApply
  dsimp only
  (repeat' (first | rfl | intro _ _ | rw [State.foldl_time] | split | simp)) <;> simp [State.time_ctrl, State.ctl_ctrl, State.power_ctrl, State.boot_ctrl, State.prov_ctrl, State.pending_ctrl, ctrl_ite]
@[simp] theorem State.createApply_ctl (s : State) (c : Nat) (h : Heat) (bitmap : List Nat) : (State.createApply s c h bitmap).ctrl.ctl = s.ctrl.ctl := by
  unfold State.createApply
  dsimp only
  (repeat' (first | rfl | intro _ _ | rw [State.foldl_ctl] | split | simp)) <;> simp [State.time_ctrl, State.ctl_ctrl, State.power_ctrl, State.boot_ctrl, State.prov_ctrl, State.pending_ctrl, ctrl_ite]
@[simp] theorem State.createApply_rest (s : State) (c : Nat) (h : Heat) (bitmap : List Nat) : (State.createApply s c h bitmap).ctrl.rest = s.ctrl.rest := by
  unfold State.createApply
  dsimp only
  (repeat' (first | rfl | intro _ _ | rw [State.foldl_rest] | split | simp)) <;> simp [State.time_ctrl, State.ctl_ctrl, State.power_ctrl, State.boot_ctrl, State.prov_ctrl, State.pending_ctrl, ctrl_ite]
@[simp] theorem State.startKeySet_time (s : State) (c : Nat) : (State.startKeySet s c).ctrl.time = s.ctrl.time := by
  unfold State.startKeySet
  (repeat' split) <;> simp [State.time_ctrl, State.ctl_ctrl, State.power_ctrl, State.boot_ctrl, State.prov_ctrl, State.pending_ctrl]
@[simp] theorem State.startKeySet_ctl (s : State) (c : Nat) : (State.startKeySet s c).ctrl.ctl = s.ctrl.ctl := by
  unfold State.startKeySet
  (repeat' split) <;> simp [State.time_ctrl, State.ctl_ctrl, State.power_ctrl, State.boot_ctrl, State.prov_ctrl, State.pending_ctrl]
@[simp] theorem State.startKeySet_rest (s : State) (c : Nat) : (State.startKeySet s c).ctrl.rest = s.ctrl.rest := by
  unfold State.startKeySet
  (repeat' split) <;> simp [State.time_ctrl, State.ctl_ctrl, State.power_ctrl, State.boot_ctrl, State.prov_ctrl, State.pending_ctrl]
@[simp] theorem State.startQuota_time (s : State) (c : Nat) : (State.startQuota s c).ctrl.time = s.ctrl.time := by
  unfold State.startQuota
  dsimp only
  (repeat' split) <;> simp [State.time_ctrl, State.ctl_ctrl, State.power_ctrl, State.boot_ctrl, State.prov_ctrl, State.pending_ctrl, ctrl_ite]
@[simp] theorem State.startQuota_ctl (s : State) (c : Nat) : (State.startQuota s c).ctrl.ctl = s.ctrl.ctl := by
  unfold State.startQuota
  dsimp only
  (repeat' split) <;> simp [State.time_ctrl, State.ctl_ctrl, State.power_ctrl, State.boot_ctrl, State.prov_ctrl, State.pending_ctrl, ctrl_ite]
@[simp] theorem State.startQuota_rest (s : State) (c : Nat) : (State.startQuota s c).ctrl.rest = s.ctrl.rest := by
  unfold State.startQuota
  dsimp only
  (repeat' split) <;> simp [State.time_ctrl, State.ctl_ctrl, State.power_ctrl, State.boot_ctrl, State.prov_ctrl, State.pending_ctrl, ctrl_ite]
@[simp] theorem State.barCheckAll_ctrl (s : State) (p : Nat) : (State.barCheckAll s p).ctrl = s.ctrl := by
  unfold State.barCheckAll
  dsimp only
  split
  · rfl
  · simp only [State.ctrl_mk, State.time_ctrl, State.ctl_ctrl, State.power_ctrl, State.boot_ctrl, State.prov_ctrl, State.pending_ctrl]
    rw [State.foldl_ctrl _ (fun s a => by simp)]
@[simp] theorem State.clearTables_ctrl (s : State) (p : Nat) (key : BitVec 12) : (State.clearTables s p key).ctrl = s.ctrl := by simp [State.clearTables]
@[simp] theorem State.clearPart_ctrl (s : State) (p : Nat) (x : Part) : (State.clearPart s p x).ctrl = s.ctrl := by simp [State.clearPart, State.time_ctrl, State.ctl_ctrl, State.power_ctrl, State.boot_ctrl, State.prov_ctrl, State.pending_ctrl]
@[simp] theorem State.freePart_ctrl (s : State) (p : Nat) (x : Part) : (State.freePart s p x).ctrl = s.ctrl := by
  unfold State.freePart
  dsimp only
  (repeat' (first | rfl | intro _ _ | rw [State.foldl_ctrl] | split | simp [State.time_ctrl, State.ctl_ctrl, State.power_ctrl, State.boot_ctrl, State.prov_ctrl, State.pending_ctrl, ctrl_ite])) <;> simp_all [State.time_ctrl, State.ctl_ctrl, State.power_ctrl, State.boot_ctrl, State.prov_ctrl, State.pending_ctrl, ctrl_ite]
@[simp] theorem State.renewPart_ctrl (s : State) (p : Nat) (x : Part) : (State.renewPart s p x).ctrl = s.ctrl := by
  unfold State.renewPart
  (repeat' (first | rfl | intro _ _ | simp | rw [State.foldl_ctrl] | split)) <;> simp [State.time_ctrl, State.ctl_ctrl, State.power_ctrl, State.boot_ctrl, State.prov_ctrl, State.pending_ctrl, ctrl_ite]
@[simp] theorem State.resetFinish_time (s : State) (c : Nat) (p : Nat) (release : Bool) : (State.resetFinish s c p release).ctrl.time = s.ctrl.time := by
  unfold State.resetFinish
  (repeat' split) <;> simp
@[simp] theorem State.resetFinish_ctl (s : State) (c : Nat) (p : Nat) (release : Bool) : (State.resetFinish s c p release).ctrl.ctl = s.ctrl.ctl := by
  unfold State.resetFinish
  (repeat' split) <;> simp
@[simp] theorem State.resetFinish_rest (s : State) (c : Nat) (p : Nat) (release : Bool) : (State.resetFinish s c p release).ctrl.rest = s.ctrl.rest := by
  unfold State.resetFinish
  (repeat' split) <;> simp
@[simp] theorem State.resetGo_time (s : State) (p : Nat) : (State.resetGo s p).ctrl.time = s.ctrl.time := by
  unfold State.resetGo
  dsimp only
  (repeat' split) <;> simp [State.time_ctrl, State.ctl_ctrl, State.power_ctrl, State.boot_ctrl, State.prov_ctrl, State.pending_ctrl, ctrl_ite]
@[simp] theorem State.resetGo_ctl (s : State) (p : Nat) : (State.resetGo s p).ctrl.ctl = s.ctrl.ctl := by
  unfold State.resetGo
  dsimp only
  (repeat' split) <;> simp [State.time_ctrl, State.ctl_ctrl, State.power_ctrl, State.boot_ctrl, State.prov_ctrl, State.pending_ctrl, ctrl_ite]
@[simp] theorem State.resetGo_rest (s : State) (p : Nat) : (State.resetGo s p).ctrl.rest = s.ctrl.rest := by
  unfold State.resetGo
  dsimp only
  (repeat' split) <;> simp [State.time_ctrl, State.ctl_ctrl, State.power_ctrl, State.boot_ctrl, State.prov_ctrl, State.pending_ctrl, ctrl_ite]
@[simp] theorem State.captureExpiry_ctrl (s : State) (c : Nat) (h : Heat) : (State.captureExpiry s c h).ctrl = s.ctrl := by
  simp [State.captureExpiry]
theorem State.resetBegin_keeps (s : State) (c : Nat) (p : Nat) (release : Bool) : (State.resetBegin s c p release).ctrl.time = s.ctrl.time ∧
    (State.resetBegin s c p release).ctrl.ctl = s.ctrl.ctl ∧ (State.resetBegin s c p release).ctrl.rest = s.ctrl.rest := by
  unfold State.resetBegin
  extract_lets s1 s2 s3 s4 s5 s6 s7
  have h1 : s1.ctrl = s.ctrl := by unfold s1; split <;> simp
  have h4 : s4.ctrl = s.ctrl := by
    exact (State.modHeat_ctrl ..).trans ((State.foldl_keeps State.ctrl _ (fun s q => State.haltQueue_ctrl s q) _ _).trans ((State.modPart_ctrl ..).trans h1))
  clear_value s4
  have h5 : s5.ctrl = s.ctrl := by
    unfold s5
    (repeat' split) <;> simp [h4, State.recordEnd]
    split <;> simp [h4]
  clear_value s5
  have h6 : s6.ctrl = s.ctrl := (State.capture_ctrl ..).trans h5
  clear_value s6
  have ha : s7.ctrl.time = s.ctrl.time :=
    (State.foldl_keeps (·.ctrl.time) _ (fun s k => by split <;> simp) _ _).trans (congrArg _ h6)
  have hb : s7.ctrl.ctl = s.ctrl.ctl :=
    (State.foldl_keeps (·.ctrl.ctl) _ (fun s k => by split <;> simp) _ _).trans (congrArg _ h6)
  have hc : s7.ctrl.rest = s.ctrl.rest :=
    (State.foldl_keeps (·.ctrl.rest) _ (fun s k => by split <;> simp) _ _).trans (congrArg _ h6)
  clear_value s7
  simp [ha, hb, hc]
@[simp] theorem State.resetBegin_time (s : State) (c : Nat) (p : Nat) (release : Bool) : (State.resetBegin s c p release).ctrl.time = s.ctrl.time := (State.resetBegin_keeps s c p release).1
@[simp] theorem State.resetBegin_ctl (s : State) (c : Nat) (p : Nat) (release : Bool) : (State.resetBegin s c p release).ctrl.ctl = s.ctrl.ctl := (State.resetBegin_keeps s c p release).2.1
@[simp] theorem State.resetBegin_rest (s : State) (c : Nat) (p : Nat) (release : Bool) : (State.resetBegin s c p release).ctrl.rest = s.ctrl.rest := (State.resetBegin_keeps s c p release).2.2
@[simp] theorem State.startReset_time (s : State) (c : Nat) : (State.startReset s c).ctrl.time = s.ctrl.time := by
  unfold State.startReset
  dsimp only
  (repeat' split) <;> simp [State.time_ctrl, State.ctl_ctrl, State.power_ctrl, State.boot_ctrl, State.prov_ctrl, State.pending_ctrl, ctrl_ite]
@[simp] theorem State.startReset_ctl (s : State) (c : Nat) : (State.startReset s c).ctrl.ctl = s.ctrl.ctl := by
  unfold State.startReset
  dsimp only
  (repeat' split) <;> simp [State.time_ctrl, State.ctl_ctrl, State.power_ctrl, State.boot_ctrl, State.prov_ctrl, State.pending_ctrl, ctrl_ite]
@[simp] theorem State.startReset_rest (s : State) (c : Nat) : (State.startReset s c).ctrl.rest = s.ctrl.rest := by
  unfold State.startReset
  dsimp only
  (repeat' split) <;> simp [State.time_ctrl, State.ctl_ctrl, State.power_ctrl, State.boot_ctrl, State.prov_ctrl, State.pending_ctrl, ctrl_ite]
@[simp] theorem State.unloadStep_time (s : State) (c : Nat) : (State.unloadStep s c).ctrl.time = s.ctrl.time := by
  unfold State.unloadStep
  (repeat' split) <;> simp
@[simp] theorem State.unloadStep_ctl (s : State) (c : Nat) : (State.unloadStep s c).ctrl.ctl = s.ctrl.ctl := by
  unfold State.unloadStep
  (repeat' split) <;> simp
@[simp] theorem State.unloadStep_rest (s : State) (c : Nat) : (State.unloadStep s c).ctrl.rest = s.ctrl.rest := by
  unfold State.unloadStep
  (repeat' split) <;> simp
@[simp] theorem State.unloadLeft_ctrl (s : State) (c : Nat) : (State.unloadLeft s c).ctrl = s.ctrl := by
  unfold State.unloadLeft
  (repeat' split) <;> simp
@[simp] theorem State.revokeOne_time (s : State) (k : Nat) : (State.revokeOne s k).ctrl.time = s.ctrl.time := by
  unfold State.revokeOne
  (repeat' split) <;> simp
@[simp] theorem State.revokeOne_ctl (s : State) (k : Nat) : (State.revokeOne s k).ctrl.ctl = s.ctrl.ctl := by
  unfold State.revokeOne
  (repeat' split) <;> simp
@[simp] theorem State.revokeOne_rest (s : State) (k : Nat) : (State.revokeOne s k).ctrl.rest = s.ctrl.rest := by
  unfold State.revokeOne
  (repeat' split) <;> simp
@[simp] theorem State.startRevoke_time (s : State) (c : Nat) : (State.startRevoke s c).ctrl.time = s.ctrl.time := by
  unfold State.startRevoke
  dsimp only
  (repeat' split) <;> simp [State.time_ctrl, State.ctl_ctrl, State.power_ctrl, State.boot_ctrl, State.prov_ctrl, State.pending_ctrl, ctrl_ite]
@[simp] theorem State.startRevoke_ctl (s : State) (c : Nat) : (State.startRevoke s c).ctrl.ctl = s.ctrl.ctl := by
  unfold State.startRevoke
  dsimp only
  (repeat' split) <;> simp [State.time_ctrl, State.ctl_ctrl, State.power_ctrl, State.boot_ctrl, State.prov_ctrl, State.pending_ctrl, ctrl_ite]
@[simp] theorem State.startRevoke_rest (s : State) (c : Nat) : (State.startRevoke s c).ctrl.rest = s.ctrl.rest := by
  unfold State.startRevoke
  dsimp only
  (repeat' split) <;> simp [State.time_ctrl, State.ctl_ctrl, State.power_ctrl, State.boot_ctrl, State.prov_ctrl, State.pending_ctrl, ctrl_ite]
@[simp] theorem State.perturbAll_ctrl (s : State) : (State.perturbAll s).ctrl = s.ctrl := by
  unfold State.perturbAll
  (repeat' (first | rfl | intro _ _ | rw [State.foldl_ctrl] | split)) <;> simp [State.time_ctrl, State.ctl_ctrl, State.power_ctrl, State.boot_ctrl, State.prov_ctrl, State.pending_ctrl, ctrl_ite]
@[simp] theorem State.reclock_time (s : State) : (State.reclock s).ctrl.time = s.ctrl.time := by
  unfold State.reclock
  dsimp only
  (repeat' split) <;> simp [State.time_ctrl, State.ctl_ctrl, State.power_ctrl, State.boot_ctrl, State.prov_ctrl, State.pending_ctrl, ctrl_ite]
@[simp] theorem State.reclock_power (s : State) : (State.reclock s).ctrl.power = s.ctrl.power := by
  unfold State.reclock
  dsimp only
  (repeat' split) <;> simp [State.time_ctrl, State.ctl_ctrl, State.power_ctrl, State.boot_ctrl, State.prov_ctrl, State.pending_ctrl, ctrl_ite]
@[simp] theorem State.reclock_rest (s : State) : (State.reclock s).ctrl.rest = s.ctrl.rest := by
  unfold State.reclock
  dsimp only
  (repeat' split) <;> simp [State.time_ctrl, State.ctl_ctrl, State.power_ctrl, State.boot_ctrl, State.prov_ctrl, State.pending_ctrl, ctrl_ite]
@[simp] theorem State.switch_time (s : State) : (State.switch s).ctrl.time = s.ctrl.time := by simp [State.switch, State.time_ctrl, State.ctl_ctrl, State.power_ctrl, State.boot_ctrl, State.prov_ctrl, State.pending_ctrl]
@[simp] theorem State.switch_power (s : State) : (State.switch s).ctrl.power = s.ctrl.power := by simp [State.switch, State.time_ctrl, State.ctl_ctrl, State.power_ctrl, State.boot_ctrl, State.prov_ctrl, State.pending_ctrl]
@[simp] theorem State.switch_prov (s : State) : (State.switch s).ctrl.rest.2.1 = s.ctrl.rest.2.1 := by simp [State.switch, State.time_ctrl, State.ctl_ctrl, State.power_ctrl, State.boot_ctrl, State.prov_ctrl, State.pending_ctrl]
@[simp] theorem State.switch_pending (s : State) : (State.switch s).ctrl.rest.2.2 = s.ctrl.rest.2.2 := by simp [State.switch, State.time_ctrl, State.ctl_ctrl, State.power_ctrl, State.boot_ctrl, State.prov_ctrl, State.pending_ctrl]
@[simp] theorem State.endHoldSeq_time (s : State) (st : Status) : (State.endHoldSeq s st).ctrl.time = s.ctrl.time := by
  unfold State.endHoldSeq
  (repeat' split) <;> simp [State.time_ctrl, State.ctl_ctrl, State.power_ctrl, State.boot_ctrl, State.prov_ctrl, State.pending_ctrl]
@[simp] theorem State.endHoldSeq_ctl (s : State) (st : Status) : (State.endHoldSeq s st).ctrl.ctl = s.ctrl.ctl := by
  unfold State.endHoldSeq
  (repeat' split) <;> simp [State.time_ctrl, State.ctl_ctrl, State.power_ctrl, State.boot_ctrl, State.prov_ctrl, State.pending_ctrl]
@[simp] theorem State.endHoldSeq_rest (s : State) (st : Status) : (State.endHoldSeq s st).ctrl.rest = s.ctrl.rest := by
  unfold State.endHoldSeq
  (repeat' split) <;> simp [State.time_ctrl, State.ctl_ctrl, State.power_ctrl, State.boot_ctrl, State.prov_ctrl, State.pending_ctrl]
@[simp] theorem State.startStage_ctrl (s : State) (c : Nat) : (State.startStage s c).ctrl = s.ctrl := rfl
@[simp] theorem State.stageApply_time (s : State) (c : Nat) (b : List Byte) : (State.stageApply s c b).ctrl.time = s.ctrl.time := by
  unfold State.stageApply
  (repeat' split) <;> simp [State.time_ctrl, State.ctl_ctrl, State.power_ctrl, State.boot_ctrl, State.prov_ctrl, State.pending_ctrl]
@[simp] theorem State.stageApply_ctl (s : State) (c : Nat) (b : List Byte) : (State.stageApply s c b).ctrl.ctl = s.ctrl.ctl := by
  unfold State.stageApply
  (repeat' split) <;> simp [State.time_ctrl, State.ctl_ctrl, State.power_ctrl, State.boot_ctrl, State.prov_ctrl, State.pending_ctrl]
@[simp] theorem State.stageApply_rest (s : State) (c : Nat) (b : List Byte) : (State.stageApply s c b).ctrl.rest = s.ctrl.rest := by
  unfold State.stageApply
  (repeat' split) <;> simp [State.time_ctrl, State.ctl_ctrl, State.power_ctrl, State.boot_ctrl, State.prov_ctrl, State.pending_ctrl]
@[simp] theorem State.startActivate_time (s : State) (c : Nat) : (State.startActivate s c).ctrl.time = s.ctrl.time := by
  unfold State.startActivate
  (repeat' split) <;> simp [State.time_ctrl, State.ctl_ctrl, State.power_ctrl, State.boot_ctrl, State.prov_ctrl, State.pending_ctrl]
@[simp] theorem State.startActivate_ctl (s : State) (c : Nat) : (State.startActivate s c).ctrl.ctl = s.ctrl.ctl := by
  unfold State.startActivate
  (repeat' split) <;> simp [State.time_ctrl, State.ctl_ctrl, State.power_ctrl, State.boot_ctrl, State.prov_ctrl, State.pending_ctrl]
@[simp] theorem State.startActivate_rest (s : State) (c : Nat) : (State.startActivate s c).ctrl.rest = s.ctrl.rest := by
  unfold State.startActivate
  (repeat' split) <;> simp [State.time_ctrl, State.ctl_ctrl, State.power_ctrl, State.boot_ctrl, State.prov_ctrl, State.pending_ctrl]
@[simp] theorem State.loadDone_time (s : State) (ok : Bool) : (State.loadDone s ok).ctrl.time = s.ctrl.time := by
  unfold State.loadDone
  (repeat' split) <;> simp [State.time_ctrl, State.ctl_ctrl, State.power_ctrl, State.boot_ctrl, State.prov_ctrl, State.pending_ctrl]
@[simp] theorem State.loadDone_ctl (s : State) (ok : Bool) : (State.loadDone s ok).ctrl.ctl = s.ctrl.ctl := by
  unfold State.loadDone
  (repeat' split) <;> simp [State.time_ctrl, State.ctl_ctrl, State.power_ctrl, State.boot_ctrl, State.prov_ctrl, State.pending_ctrl]
@[simp] theorem State.loadDone_rest (s : State) (ok : Bool) : (State.loadDone s ok).ctrl.rest = s.ctrl.rest := by
  unfold State.loadDone
  (repeat' split) <;> simp [State.time_ctrl, State.ctl_ctrl, State.power_ctrl, State.boot_ctrl, State.prov_ctrl, State.pending_ctrl]
@[simp] theorem State.forget_ctrl (s : State) (c : Nat) : (State.forget s c).ctrl = s.ctrl := rfl
@[simp] theorem State.seqAbort_time (s : State) (c : Nat) : (State.seqAbort s c).ctrl.time = s.ctrl.time := by
  unfold State.seqAbort
  (repeat' split) <;> simp
@[simp] theorem State.seqAbort_ctl (s : State) (c : Nat) : (State.seqAbort s c).ctrl.ctl = s.ctrl.ctl := by
  unfold State.seqAbort
  (repeat' split) <;> simp
@[simp] theorem State.seqAbort_rest (s : State) (c : Nat) : (State.seqAbort s c).ctrl.rest = s.ctrl.rest := by
  unfold State.seqAbort
  (repeat' split) <;> simp
@[simp] theorem State.seqFaulted_time (s : State) : (State.seqFaulted s).ctrl.time = s.ctrl.time := by
  unfold State.seqFaulted
  dsimp only
  (repeat' split) <;> simp [State.time_ctrl, State.ctl_ctrl, State.power_ctrl, State.boot_ctrl, State.prov_ctrl, State.pending_ctrl, ctrl_ite]
@[simp] theorem State.seqFaulted_prov (s : State) : (State.seqFaulted s).ctrl.rest.2.1 = s.ctrl.rest.2.1 := by
  unfold State.seqFaulted
  dsimp only
  (repeat' split) <;> simp [State.time_ctrl, State.ctl_ctrl, State.power_ctrl, State.boot_ctrl, State.prov_ctrl, State.pending_ctrl, ctrl_ite]
@[simp] theorem State.seqFaulted_pending (s : State) : (State.seqFaulted s).ctrl.rest.2.2 = s.ctrl.rest.2.2 := by
  unfold State.seqFaulted
  dsimp only
  (repeat' split) <;> simp [State.time_ctrl, State.ctl_ctrl, State.power_ctrl, State.boot_ctrl, State.prov_ctrl, State.pending_ctrl, ctrl_ite]
@[simp] theorem State.wake_time (s : State) (i : Island) : (State.wake s i).ctrl.time = s.ctrl.time := rfl
@[simp] theorem State.wake_ctl (s : State) (i : Island) : (State.wake s i).ctrl.ctl = s.ctrl.ctl := rfl
@[simp] theorem State.wake_rest (s : State) (i : Island) : (State.wake s i).ctrl.rest = s.ctrl.rest := rfl
@[simp] theorem State.newRound_ctrl (s : State) : (State.newRound s).ctrl = s.ctrl := by
  simp only [State.newRound]
  (repeat' split) <;> simp [State.time_ctrl, State.ctl_ctrl, State.power_ctrl, State.boot_ctrl, State.prov_ctrl, State.pending_ctrl, ctrl_ite]
@[simp] theorem State.newPass_ctrl (s : State) : (State.newPass s).ctrl = s.ctrl := rfl
theorem State.grant_ctrl (s : State) (el : List Nat) (x2 : Nat) : ∀ r, State.grant s el x2 = some r → r.2.ctrl = s.ctrl := by
  induction x2 generalizing s with
  | zero => simp [State.grant]
  | succ n ih =>
    intro r h
    unfold State.grant at h
    (repeat' split at h) <;> first | (simp at h; subst h; rfl) | (have := ih _ _ h; simpa using this)
theorem State.nextGrant_ctrl (s : State) : ∀ r, State.nextGrant s = some r → r.2.ctrl = s.ctrl := by
  intro r h
  unfold State.nextGrant at h
  repeat' split at h
  · cases h; rfl
  · cases h
  · exact State.grant_ctrl _ _ _ _ h
@[simp] theorem State.granted_ctrl (s : State) (q : Nat) (n : Nat) : (State.granted s q n).ctrl = s.ctrl := by
  unfold State.granted
  (repeat' split) <;> simp [State.time_ctrl, State.ctl_ctrl, State.power_ctrl, State.boot_ctrl, State.prov_ctrl, State.pending_ctrl]
@[simp] theorem State.idleRounds_ctrl (s : State) : (State.idleRounds s).ctrl = s.ctrl := by
  simp only [State.idleRounds]
  (repeat' split) <;> simp [State.time_ctrl, State.ctl_ctrl, State.power_ctrl, State.boot_ctrl, State.prov_ctrl, State.pending_ctrl, ctrl_ite]
@[simp] theorem State.rearm_ctrl (s : State) (c : Nat) : (State.rearm s c).ctrl = s.ctrl := rfl
@[simp] theorem State.settleHeat_time (s : State) (c : Nat) : (State.settleHeat s c).ctrl.time = s.ctrl.time := by
  unfold State.settleHeat
  dsimp only
  (repeat' split) <;> simp [State.time_ctrl, State.ctl_ctrl, State.power_ctrl, State.boot_ctrl, State.prov_ctrl, State.pending_ctrl, ctrl_ite]
@[simp] theorem State.settleHeat_ctl (s : State) (c : Nat) : (State.settleHeat s c).ctrl.ctl = s.ctrl.ctl := by
  unfold State.settleHeat
  dsimp only
  (repeat' split) <;> simp [State.time_ctrl, State.ctl_ctrl, State.power_ctrl, State.boot_ctrl, State.prov_ctrl, State.pending_ctrl, ctrl_ite]
@[simp] theorem State.settleHeat_rest (s : State) (c : Nat) : (State.settleHeat s c).ctrl.rest = s.ctrl.rest := by
  unfold State.settleHeat
  dsimp only
  (repeat' split) <;> simp [State.time_ctrl, State.ctl_ctrl, State.power_ctrl, State.boot_ctrl, State.prov_ctrl, State.pending_ctrl, ctrl_ite]
theorem State.applyItem_time (s : State) (c : Nat) (f : Nat) (it : Item) (held : Bool) : ∀ r, State.applyItem s c f it held = some r → r.ctrl.time = s.ctrl.time := by
  intro r h
  simp only [State.applyItem] at h
  (repeat' split at h) <;> (try cases h) <;> simp_all
theorem State.applyItem_ctl (s : State) (c : Nat) (f : Nat) (it : Item) (held : Bool) : ∀ r, State.applyItem s c f it held = some r → r.ctrl.ctl = s.ctrl.ctl := by
  intro r h
  simp only [State.applyItem] at h
  (repeat' split at h) <;> (try cases h) <;> simp_all
theorem State.applyItem_rest (s : State) (c : Nat) (f : Nat) (it : Item) (held : Bool) : ∀ r, State.applyItem s c f it held = some r → r.ctrl.rest = s.ctrl.rest := by
  intro r h
  simp only [State.applyItem] at h
  (repeat' split at h) <;> (try cases h) <;> simp_all
theorem State.heldDue_keeps (s : State) (c : Nat) : ∀ r, State.heldDue s c = some r →
    r.ctrl.time = s.ctrl.time ∧ r.ctrl.ctl = s.ctrl.ctl ∧ r.ctrl.rest = s.ctrl.rest := by
  intro r h
  unfold State.heldDue at h
  split at h
  · cases h
  · split at h
    · cases h
    · obtain ⟨f, -, hf⟩ := List.exists_of_findSome?_eq_some h
      (repeat' split at hf) <;> first | cases hf; done |
        exact ⟨State.applyItem_time _ _ _ _ _ _ hf, State.applyItem_ctl _ _ _ _ _ _ hf, State.applyItem_rest _ _ _ _ _ _ hf⟩
theorem State.heldDue_time (s : State) (c : Nat) : ∀ r, State.heldDue s c = some r → r.ctrl.time = s.ctrl.time := fun r h => (State.heldDue_keeps s c r h).1
theorem State.heldDue_ctl (s : State) (c : Nat) : ∀ r, State.heldDue s c = some r → r.ctrl.ctl = s.ctrl.ctl := fun r h => (State.heldDue_keeps s c r h).2.1
theorem State.heldDue_rest (s : State) (c : Nat) : ∀ r, State.heldDue s c = some r → r.ctrl.rest = s.ctrl.rest := fun r h => (State.heldDue_keeps s c r h).2.2
theorem State.heldLoop_keeps (s : State) (c n : Nat) : (State.heldLoop s c n).ctrl.time = s.ctrl.time ∧
    (State.heldLoop s c n).ctrl.ctl = s.ctrl.ctl ∧ (State.heldLoop s c n).ctrl.rest = s.ctrl.rest := by
  induction n generalizing s with
  | zero => simp [State.heldLoop]
  | succ n ih =>
    unfold State.heldLoop
    dsimp only
    split
    · rename_i h
      have k := State.heldDue_keeps _ _ _ h
      exact ⟨(ih _).1.trans (k.1.trans (by simp)), (ih _).2.1.trans (k.2.1.trans (by simp)), (ih _).2.2.trans (k.2.2.trans (by simp))⟩
    · simp
@[simp] theorem State.heldLoop_time (s : State) (c : Nat) (x2 : Nat) : (State.heldLoop s c x2).ctrl.time = s.ctrl.time := (State.heldLoop_keeps s c x2).1
@[simp] theorem State.heldLoop_ctl (s : State) (c : Nat) (x2 : Nat) : (State.heldLoop s c x2).ctrl.ctl = s.ctrl.ctl := (State.heldLoop_keeps s c x2).2.1
@[simp] theorem State.heldLoop_rest (s : State) (c : Nat) (x2 : Nat) : (State.heldLoop s c x2).ctrl.rest = s.ctrl.rest := (State.heldLoop_keeps s c x2).2.2
@[simp] theorem State.kindStep_time (s : State) (c : Nat) (k : Kind) : (State.kindStep s c k).ctrl.time = s.ctrl.time := by
  unfold State.kindStep
  (repeat' split) <;> simp
@[simp] theorem State.kindStep_ctl (s : State) (c : Nat) (k : Kind) : (State.kindStep s c k).ctrl.ctl = s.ctrl.ctl := by
  unfold State.kindStep
  (repeat' split) <;> simp
@[simp] theorem State.kindStep_rest (s : State) (c : Nat) (k : Kind) : (State.kindStep s c k).ctrl.rest = s.ctrl.rest := by
  unfold State.kindStep
  (repeat' split) <;> simp
@[simp] theorem State.runStreams_ctrl (s : State) (c : Nat) : (State.runStreams s c).ctrl = s.ctrl := by
  unfold State.runStreams
  (repeat' (first | rfl | intro _ _ | rw [State.foldl_ctrl] | split)) <;> simp [State.time_ctrl, State.ctl_ctrl, State.power_ctrl, State.boot_ctrl, State.prov_ctrl, State.pending_ctrl, ctrl_ite]
@[simp] theorem State.pumpRun_time (s : State) (c : Nat) (h0 : Heat) : (State.pumpRun s c h0).ctrl.time = s.ctrl.time := by
  unfold State.pumpRun
  dsimp only
  (repeat' split) <;> simp [State.time_ctrl, State.ctl_ctrl, State.power_ctrl, State.boot_ctrl, State.prov_ctrl, State.pending_ctrl, ctrl_ite]
@[simp] theorem State.pumpRun_ctl (s : State) (c : Nat) (h0 : Heat) : (State.pumpRun s c h0).ctrl.ctl = s.ctrl.ctl := by
  unfold State.pumpRun
  dsimp only
  (repeat' split) <;> simp [State.time_ctrl, State.ctl_ctrl, State.power_ctrl, State.boot_ctrl, State.prov_ctrl, State.pending_ctrl, ctrl_ite]
@[simp] theorem State.pumpRun_rest (s : State) (c : Nat) (h0 : Heat) : (State.pumpRun s c h0).ctrl.rest = s.ctrl.rest := by
  unfold State.pumpRun
  dsimp only
  (repeat' split) <;> simp [State.time_ctrl, State.ctl_ctrl, State.power_ctrl, State.boot_ctrl, State.prov_ctrl, State.pending_ctrl, ctrl_ite]
@[simp] theorem State.pump_time (s : State) (c : Nat) : (State.pump s c).ctrl.time = s.ctrl.time := by
  unfold State.pump
  dsimp only
  (repeat' split) <;> simp [State.time_ctrl, State.ctl_ctrl, State.power_ctrl, State.boot_ctrl, State.prov_ctrl, State.pending_ctrl, ctrl_ite]
@[simp] theorem State.pump_ctl (s : State) (c : Nat) : (State.pump s c).ctrl.ctl = s.ctrl.ctl := by
  unfold State.pump
  dsimp only
  (repeat' split) <;> simp [State.time_ctrl, State.ctl_ctrl, State.power_ctrl, State.boot_ctrl, State.prov_ctrl, State.pending_ctrl, ctrl_ite]
@[simp] theorem State.pump_rest (s : State) (c : Nat) : (State.pump s c).ctrl.rest = s.ctrl.rest := by
  unfold State.pump
  dsimp only
  (repeat' split) <;> simp [State.time_ctrl, State.ctl_ctrl, State.power_ctrl, State.boot_ctrl, State.prov_ctrl, State.pending_ctrl, ctrl_ite]
@[simp] theorem State.askBadAll_ctrl (s : State) : (State.askBadAll s).ctrl = s.ctrl := by simp [State.askBadAll]
@[simp] theorem State.pumpAll_time (s : State) : (State.pumpAll s).ctrl.time = s.ctrl.time := by simp [State.pumpAll]
@[simp] theorem State.pumpAll_ctl (s : State) : (State.pumpAll s).ctrl.ctl = s.ctrl.ctl := by simp [State.pumpAll]
@[simp] theorem State.pumpAll_rest (s : State) : (State.pumpAll s).ctrl.rest = s.ctrl.rest := by simp [State.pumpAll]
@[simp] theorem State.wakeAnvil_time (s : State) : (State.wakeAnvil s).ctrl.time = s.ctrl.time := by
  unfold State.wakeAnvil
  (repeat' split) <;> simp
@[simp] theorem State.wakeAnvil_ctl (s : State) : (State.wakeAnvil s).ctrl.ctl = s.ctrl.ctl := by
  unfold State.wakeAnvil
  (repeat' split) <;> simp
@[simp] theorem State.wakeAnvil_rest (s : State) : (State.wakeAnvil s).ctrl.rest = s.ctrl.rest := by
  unfold State.wakeAnvil
  (repeat' split) <;> simp
@[simp] theorem State.dropLanes_ctrl (s : State) (i : Island) : (State.dropLanes s i).ctrl = s.ctrl := by
  unfold State.dropLanes
  (repeat' split) <;> simp [State.time_ctrl, State.ctl_ctrl, State.power_ctrl, State.boot_ctrl, State.prov_ctrl, State.pending_ctrl]
@[simp] theorem State.loseContents_ctrl (s : State) (i : Island) : (State.loseContents s i).ctrl = s.ctrl := by
  unfold State.loseContents
  dsimp only
  (repeat' (first | rfl | intro _ _ | rw [State.foldl_ctrl] | split | simp)) <;> simp [State.time_ctrl, State.ctl_ctrl, State.power_ctrl, State.boot_ctrl, State.prov_ctrl, State.pending_ctrl, ctrl_ite]
@[simp] theorem State.gate_time (s : State) (i : Island) : (State.gate s i).ctrl.time = s.ctrl.time := by simp [State.gate, State.time_ctrl, State.ctl_ctrl, State.power_ctrl, State.boot_ctrl, State.prov_ctrl, State.pending_ctrl]
@[simp] theorem State.gate_ctl (s : State) (i : Island) : (State.gate s i).ctrl.ctl = s.ctrl.ctl := by simp [State.gate, State.time_ctrl, State.ctl_ctrl, State.power_ctrl, State.boot_ctrl, State.prov_ctrl, State.pending_ctrl]
@[simp] theorem State.gate_rest (s : State) (i : Island) : (State.gate s i).ctrl.rest = s.ctrl.rest := by simp [State.gate, State.time_ctrl, State.ctl_ctrl, State.power_ctrl, State.boot_ctrl, State.prov_ctrl, State.pending_ctrl]
@[simp] theorem State.ramped_time (s : State) (i : Island) : (State.ramped s i).ctrl.time = s.ctrl.time := by
  unfold State.ramped
  dsimp only
  (repeat' split) <;> simp [State.time_ctrl, State.ctl_ctrl, State.power_ctrl, State.boot_ctrl, State.prov_ctrl, State.pending_ctrl, ctrl_ite]
@[simp] theorem State.ramped_ctl (s : State) (i : Island) : (State.ramped s i).ctrl.ctl = s.ctrl.ctl := by
  unfold State.ramped
  dsimp only
  (repeat' split) <;> simp [State.time_ctrl, State.ctl_ctrl, State.power_ctrl, State.boot_ctrl, State.prov_ctrl, State.pending_ctrl, ctrl_ite]
@[simp] theorem State.ramped_rest (s : State) (i : Island) : (State.ramped s i).ctrl.rest = s.ctrl.rest := by
  unfold State.ramped
  dsimp only
  (repeat' split) <;> simp [State.time_ctrl, State.ctl_ctrl, State.power_ctrl, State.boot_ctrl, State.prov_ctrl, State.pending_ctrl, ctrl_ite]
@[simp] theorem State.enterLevel_time (s : State) (n : BitVec 2) : (State.enterLevel s n).ctrl.time = s.ctrl.time := by
  unfold State.enterLevel
  (repeat' split) <;> simp [State.time_ctrl, State.ctl_ctrl, State.power_ctrl, State.boot_ctrl, State.prov_ctrl, State.pending_ctrl]
@[simp] theorem State.enterLevel_ctl (s : State) (n : BitVec 2) : (State.enterLevel s n).ctrl.ctl = s.ctrl.ctl := by
  unfold State.enterLevel
  (repeat' split) <;> simp [State.time_ctrl, State.ctl_ctrl, State.power_ctrl, State.boot_ctrl, State.prov_ctrl, State.pending_ctrl]
@[simp] theorem State.enterLevel_rest (s : State) (n : BitVec 2) : (State.enterLevel s n).ctrl.rest = s.ctrl.rest := by
  unfold State.enterLevel
  (repeat' split) <;> simp [State.time_ctrl, State.ctl_ctrl, State.power_ctrl, State.boot_ctrl, State.prov_ctrl, State.pending_ctrl]
@[simp] theorem State.noteCool_time (s : State) : (State.noteCool s).ctrl.time = s.ctrl.time := rfl
@[simp] theorem State.noteCool_ctl (s : State) : (State.noteCool s).ctrl.ctl = s.ctrl.ctl := rfl
@[simp] theorem State.noteCool_rest (s : State) : (State.noteCool s).ctrl.rest = s.ctrl.rest := rfl
@[simp] theorem State.sample_time (s : State) (temps : List Byte) : (State.sample s temps).ctrl.time = s.ctrl.time := by
  unfold State.sample
  dsimp only
  (repeat' split) <;> simp [State.time_ctrl, State.ctl_ctrl, State.power_ctrl, State.boot_ctrl, State.prov_ctrl, State.pending_ctrl, ctrl_ite]
@[simp] theorem State.sample_ctl (s : State) (temps : List Byte) : (State.sample s temps).ctrl.ctl = s.ctrl.ctl := by
  unfold State.sample
  dsimp only
  (repeat' split) <;> simp [State.time_ctrl, State.ctl_ctrl, State.power_ctrl, State.boot_ctrl, State.prov_ctrl, State.pending_ctrl, ctrl_ite]
@[simp] theorem State.sample_rest (s : State) (temps : List Byte) : (State.sample s temps).ctrl.rest = s.ctrl.rest := by
  unfold State.sample
  dsimp only
  (repeat' split) <;> simp [State.time_ctrl, State.ctl_ctrl, State.power_ctrl, State.boot_ctrl, State.prov_ctrl, State.pending_ctrl, ctrl_ite]
@[simp] theorem State.cooled_ctl (s : State) : (State.cooled s).ctrl.ctl = s.ctrl.ctl := by
  unfold State.cooled
  dsimp only
  (repeat' split) <;> simp [State.time_ctrl, State.ctl_ctrl, State.power_ctrl, State.boot_ctrl, State.prov_ctrl, State.pending_ctrl, ctrl_ite]
@[simp] theorem State.cooled_rest (s : State) : (State.cooled s).ctrl.rest = s.ctrl.rest := by
  unfold State.cooled
  dsimp only
  (repeat' split) <;> simp [State.time_ctrl, State.ctl_ctrl, State.power_ctrl, State.boot_ctrl, State.prov_ctrl, State.pending_ctrl, ctrl_ite]
@[simp] theorem State.modReg_ctrl (s : State) (p : Nat) (f : PortReg → PortReg) : (State.modReg s p f).ctrl = s.ctrl := rfl
@[simp] theorem State.modTr_ctrl (s : State) (p : Nat) (f : PortTrain → PortTrain) : (State.modTr s p f).ctrl = s.ctrl := rfl
@[simp] theorem State.portState_ctrl (s : State) (p : Nat) (st : PState) : (State.portState s p st).ctrl = s.ctrl := rfl
@[simp] theorem State.attempt_ctrl (s : State) (p : Nat) (single : Bool) : (State.attempt s p single).ctrl = s.ctrl := rfl
@[simp] theorem State.series_ctrl (s : State) (p : Nat) : (State.series s p).ctrl = s.ctrl := by simp [State.series]
@[simp] theorem State.attemptFails_ctrl (s : State) (p : Nat) : (State.attemptFails s p).ctrl = s.ctrl := rfl
@[simp] theorem State.phase_ctrl (s : State) (p : Nat) (st : PState) : (State.phase s p st).ctrl = s.ctrl := rfl
@[simp] theorem State.detectStep_ctrl (s : State) (p : Nat) : (State.detectStep s p).ctrl = s.ctrl := by
  unfold State.detectStep
  dsimp only
  (repeat' split) <;> simp [State.time_ctrl, State.ctl_ctrl, State.power_ctrl, State.boot_ctrl, State.prov_ctrl, State.pending_ctrl, ctrl_ite]
@[simp] theorem State.enterService_ctrl (s : State) (p : Nat) : (State.enterService s p).ctrl = s.ctrl := rfl
@[simp] theorem State.loseCircuits_ctrl (s : State) (p : Nat) : (State.loseCircuits s p).ctrl = s.ctrl := by
  unfold State.loseCircuits
  dsimp only
  (repeat' (first | rfl | intro _ _ | rw [State.foldl_ctrl] | split | simp)) <;> simp [State.time_ctrl, State.ctl_ctrl, State.power_ctrl, State.boot_ctrl, State.prov_ctrl, State.pending_ctrl, ctrl_ite]
@[simp] theorem State.loseHeats_time (s : State) (p : Nat) : (State.loseHeats s p).ctrl.time = s.ctrl.time := by simp [State.loseHeats]
@[simp] theorem State.loseHeats_ctl (s : State) (p : Nat) : (State.loseHeats s p).ctrl.ctl = s.ctrl.ctl := by simp [State.loseHeats]
@[simp] theorem State.loseHeats_rest (s : State) (p : Nat) : (State.loseHeats s p).ctrl.rest = s.ctrl.rest := by simp [State.loseHeats]
@[simp] theorem State.portLoss_time (s : State) (p : Nat) : (State.portLoss s p).ctrl.time = s.ctrl.time := by
  unfold State.portLoss
  (repeat' split) <;> simp [State.time_ctrl, State.ctl_ctrl, State.power_ctrl, State.boot_ctrl, State.prov_ctrl, State.pending_ctrl]
@[simp] theorem State.portLoss_ctl (s : State) (p : Nat) : (State.portLoss s p).ctrl.ctl = s.ctrl.ctl := by
  unfold State.portLoss
  (repeat' split) <;> simp [State.time_ctrl, State.ctl_ctrl, State.power_ctrl, State.boot_ctrl, State.prov_ctrl, State.pending_ctrl]
@[simp] theorem State.portLoss_rest (s : State) (p : Nat) : (State.portLoss s p).ctrl.rest = s.ctrl.rest := by
  unfold State.portLoss
  (repeat' split) <;> simp [State.time_ctrl, State.ctl_ctrl, State.power_ctrl, State.boot_ctrl, State.prov_ctrl, State.pending_ctrl]
@[simp] theorem State.perturbVia_ctrl (s : State) (p : Nat) : (State.perturbVia s p).ctrl = s.ctrl := by
  unfold State.perturbVia
  (repeat' (first | rfl | intro _ _ | rw [State.foldl_ctrl] | split)) <;> simp [State.time_ctrl, State.ctl_ctrl, State.power_ctrl, State.boot_ctrl, State.prov_ctrl, State.pending_ctrl, ctrl_ite]
@[simp] theorem State.retrain_ctrl (s : State) (p : Nat) (restore : Bool) : (State.retrain s p restore).ctrl = s.ctrl := by simp [State.retrain]
@[simp] theorem State.laneFails_time (s : State) (p : Nat) : (State.laneFails s p).ctrl.time = s.ctrl.time := by
  unfold State.laneFails
  dsimp only
  (repeat' split) <;> simp [State.time_ctrl, State.ctl_ctrl, State.power_ctrl, State.boot_ctrl, State.prov_ctrl, State.pending_ctrl, ctrl_ite]
@[simp] theorem State.laneFails_ctl (s : State) (p : Nat) : (State.laneFails s p).ctrl.ctl = s.ctrl.ctl := by
  unfold State.laneFails
  dsimp only
  (repeat' split) <;> simp [State.time_ctrl, State.ctl_ctrl, State.power_ctrl, State.boot_ctrl, State.prov_ctrl, State.pending_ctrl, ctrl_ite]
@[simp] theorem State.laneFails_rest (s : State) (p : Nat) : (State.laneFails s p).ctrl.rest = s.ctrl.rest := by
  unfold State.laneFails
  dsimp only
  (repeat' split) <;> simp [State.time_ctrl, State.ctl_ctrl, State.power_ctrl, State.boot_ctrl, State.prov_ctrl, State.pending_ctrl, ctrl_ite]
@[simp] theorem State.sibRetrain_ctrl (s : State) (p : Nat) (agreed : Bool) : (State.sibRetrain s p agreed).ctrl = s.ctrl := by simp [State.sibRetrain]
@[simp] theorem State.resumeFrames_ctrl (s : State) (p : Nat) : (State.resumeFrames s p).ctrl = s.ctrl := by
  unfold State.resumeFrames
  dsimp only
  (repeat' split) <;> simp [State.time_ctrl, State.ctl_ctrl, State.power_ctrl, State.boot_ctrl, State.prov_ctrl, State.pending_ctrl, ctrl_ite]
@[simp] theorem State.quarantine_ctrl (s : State) (p : Nat) (reason : Nat) (other : Nat) : (State.quarantine s p reason other).ctrl = s.ctrl := by
  unfold State.quarantine
  dsimp only
  (repeat' split) <;> simp [State.time_ctrl, State.ctl_ctrl, State.power_ctrl, State.boot_ctrl, State.prov_ctrl, State.pending_ctrl, ctrl_ite]
@[simp] theorem State.identWord_ctrl (s : State) (p : Nat) (w : TWord) : (State.identWord s p w).ctrl = s.ctrl := by
  unfold State.identWord
  dsimp only
  (repeat' split) <;> simp [State.time_ctrl, State.ctl_ctrl, State.power_ctrl, State.boot_ctrl, State.prov_ctrl, State.pending_ctrl, ctrl_ite]
@[simp] theorem State.creditWord_ctrl (s : State) (p : Nat) (w : TWord) : (State.creditWord s p w).ctrl = s.ctrl := by
  unfold State.creditWord
  (repeat' split) <;> simp
@[simp] theorem State.alignWord_ctrl (s : State) (p : Nat) (w : TWord) : (State.alignWord s p w).ctrl = s.ctrl := by
  unfold State.alignWord
  dsimp only
  (repeat' split) <;> simp [State.time_ctrl, State.ctl_ctrl, State.power_ctrl, State.boot_ctrl, State.prov_ctrl, State.pending_ctrl, ctrl_ite]
@[simp] theorem State.retrainWord_time (s : State) (p : Nat) (w : TWord) : (State.retrainWord s p w).ctrl.time = s.ctrl.time := by
  unfold State.retrainWord
  dsimp only
  (repeat' split) <;> simp [State.time_ctrl, State.ctl_ctrl, State.power_ctrl, State.boot_ctrl, State.prov_ctrl, State.pending_ctrl, ctrl_ite]
@[simp] theorem State.retrainWord_ctl (s : State) (p : Nat) (w : TWord) : (State.retrainWord s p w).ctrl.ctl = s.ctrl.ctl := by
  unfold State.retrainWord
  dsimp only
  (repeat' split) <;> simp [State.time_ctrl, State.ctl_ctrl, State.power_ctrl, State.boot_ctrl, State.prov_ctrl, State.pending_ctrl, ctrl_ite]
@[simp] theorem State.retrainWord_rest (s : State) (p : Nat) (w : TWord) : (State.retrainWord s p w).ctrl.rest = s.ctrl.rest := by
  unfold State.retrainWord
  dsimp only
  (repeat' split) <;> simp [State.time_ctrl, State.ctl_ctrl, State.power_ctrl, State.boot_ctrl, State.prov_ctrl, State.pending_ctrl, ctrl_ite]
@[simp] theorem State.trainWord_time (s : State) (p : Nat) (w : TWord) : (State.trainWord s p w).ctrl.time = s.ctrl.time := by
  unfold State.trainWord
  dsimp only
  (repeat' split) <;> simp [State.time_ctrl, State.ctl_ctrl, State.power_ctrl, State.boot_ctrl, State.prov_ctrl, State.pending_ctrl, ctrl_ite]
@[simp] theorem State.trainWord_ctl (s : State) (p : Nat) (w : TWord) : (State.trainWord s p w).ctrl.ctl = s.ctrl.ctl := by
  unfold State.trainWord
  dsimp only
  (repeat' split) <;> simp [State.time_ctrl, State.ctl_ctrl, State.power_ctrl, State.boot_ctrl, State.prov_ctrl, State.pending_ctrl, ctrl_ite]
@[simp] theorem State.trainWord_rest (s : State) (p : Nat) (w : TWord) : (State.trainWord s p w).ctrl.rest = s.ctrl.rest := by
  unfold State.trainWord
  dsimp only
  (repeat' split) <;> simp [State.time_ctrl, State.ctl_ctrl, State.power_ctrl, State.boot_ctrl, State.prov_ctrl, State.pending_ctrl, ctrl_ite]
@[simp] theorem State.lostSignal_ctrl (s : State) (p : Nat) : (State.lostSignal s p).ctrl = s.ctrl := by
  unfold State.lostSignal
  dsimp only
  (repeat' split) <;> simp [State.time_ctrl, State.ctl_ctrl, State.power_ctrl, State.boot_ctrl, State.prov_ctrl, State.pending_ctrl, ctrl_ite]
@[simp] theorem State.laneSignal_time (s : State) (p : Nat) (phy : Nat) (ok : Bool) : (State.laneSignal s p phy ok).ctrl.time = s.ctrl.time := by
  unfold State.laneSignal
  dsimp only
  (repeat' split) <;> simp [State.time_ctrl, State.ctl_ctrl, State.power_ctrl, State.boot_ctrl, State.prov_ctrl, State.pending_ctrl, ctrl_ite]
@[simp] theorem State.laneSignal_ctl (s : State) (p : Nat) (phy : Nat) (ok : Bool) : (State.laneSignal s p phy ok).ctrl.ctl = s.ctrl.ctl := by
  unfold State.laneSignal
  dsimp only
  (repeat' split) <;> simp [State.time_ctrl, State.ctl_ctrl, State.power_ctrl, State.boot_ctrl, State.prov_ctrl, State.pending_ctrl, ctrl_ite]
@[simp] theorem State.laneSignal_rest (s : State) (p : Nat) (phy : Nat) (ok : Bool) : (State.laneSignal s p phy ok).ctrl.rest = s.ctrl.rest := by
  unfold State.laneSignal
  dsimp only
  (repeat' split) <;> simp [State.time_ctrl, State.ctl_ctrl, State.power_ctrl, State.boot_ctrl, State.prov_ctrl, State.pending_ctrl, ctrl_ite]
@[simp] theorem State.boundary_time (s : State) (p : Nat) (ms : List Marker) : (State.boundary s p ms).ctrl.time = s.ctrl.time := by
  unfold State.boundary
  dsimp only
  (repeat' split) <;> simp [State.time_ctrl, State.ctl_ctrl, State.power_ctrl, State.boot_ctrl, State.prov_ctrl, State.pending_ctrl, ctrl_ite]
@[simp] theorem State.boundary_ctl (s : State) (p : Nat) (ms : List Marker) : (State.boundary s p ms).ctrl.ctl = s.ctrl.ctl := by
  unfold State.boundary
  dsimp only
  (repeat' split) <;> simp [State.time_ctrl, State.ctl_ctrl, State.power_ctrl, State.boot_ctrl, State.prov_ctrl, State.pending_ctrl, ctrl_ite]
@[simp] theorem State.boundary_rest (s : State) (p : Nat) (ms : List Marker) : (State.boundary s p ms).ctrl.rest = s.ctrl.rest := by
  unfold State.boundary
  dsimp only
  (repeat' split) <;> simp [State.time_ctrl, State.ctl_ctrl, State.power_ctrl, State.boot_ctrl, State.prov_ctrl, State.pending_ctrl, ctrl_ite]
@[simp] theorem State.period_time (s : State) (p : Nat) (x2 : PeriodIn) : (State.period s p x2).ctrl.time = s.ctrl.time := by
  unfold State.period
  (repeat' split) <;> simp
@[simp] theorem State.period_ctl (s : State) (p : Nat) (x2 : PeriodIn) : (State.period s p x2).ctrl.ctl = s.ctrl.ctl := by
  unfold State.period
  (repeat' split) <;> simp
@[simp] theorem State.period_rest (s : State) (p : Nat) (x2 : PeriodIn) : (State.period s p x2).ctrl.rest = s.ctrl.rest := by
  unfold State.period
  (repeat' split) <;> simp
@[simp] theorem State.disablePort_time (s : State) (p : Nat) : (State.disablePort s p).ctrl.time = s.ctrl.time := by
  unfold State.disablePort
  dsimp only
  (repeat' split) <;> simp [State.time_ctrl, State.ctl_ctrl, State.power_ctrl, State.boot_ctrl, State.prov_ctrl, State.pending_ctrl, ctrl_ite]
@[simp] theorem State.disablePort_ctl (s : State) (p : Nat) : (State.disablePort s p).ctrl.ctl = s.ctrl.ctl := by
  unfold State.disablePort
  dsimp only
  (repeat' split) <;> simp [State.time_ctrl, State.ctl_ctrl, State.power_ctrl, State.boot_ctrl, State.prov_ctrl, State.pending_ctrl, ctrl_ite]
@[simp] theorem State.disablePort_rest (s : State) (p : Nat) : (State.disablePort s p).ctrl.rest = s.ctrl.rest := by
  unfold State.disablePort
  dsimp only
  (repeat' split) <;> simp [State.time_ctrl, State.ctl_ctrl, State.power_ctrl, State.boot_ctrl, State.prov_ctrl, State.pending_ctrl, ctrl_ite]
@[simp] theorem State.portOn_time (s : State) (p : Nat) (v : W32) : (State.portOn s p v).ctrl.time = s.ctrl.time := by
  unfold State.portOn
  dsimp only
  (repeat' split) <;> simp [State.time_ctrl, State.ctl_ctrl, State.power_ctrl, State.boot_ctrl, State.prov_ctrl, State.pending_ctrl, ctrl_ite]
@[simp] theorem State.portOn_rest (s : State) (p : Nat) (v : W32) : (State.portOn s p v).ctrl.rest = s.ctrl.rest := by
  unfold State.portOn
  dsimp only
  (repeat' split) <;> simp [State.time_ctrl, State.ctl_ctrl, State.power_ctrl, State.boot_ctrl, State.prov_ctrl, State.pending_ctrl, ctrl_ite]
@[simp] theorem State.lnkCtl_time (s : State) (p : Nat) (v : W32) : (State.lnkCtl s p v).ctrl.time = s.ctrl.time := by
  unfold State.lnkCtl
  dsimp only
  (repeat' split) <;> simp [State.time_ctrl, State.ctl_ctrl, State.power_ctrl, State.boot_ctrl, State.prov_ctrl, State.pending_ctrl, ctrl_ite]
@[simp] theorem State.lnkCtl_rest (s : State) (p : Nat) (v : W32) : (State.lnkCtl s p v).ctrl.rest = s.ctrl.rest := by
  unfold State.lnkCtl
  dsimp only
  (repeat' split) <;> simp [State.time_ctrl, State.ctl_ctrl, State.power_ctrl, State.boot_ctrl, State.prov_ctrl, State.pending_ctrl, ctrl_ite]
@[simp] theorem State.sentFrame_ctrl (s : State) (p : Nat) (pos : List Billet) : (State.sentFrame s p pos).ctrl = s.ctrl := by
  unfold State.sentFrame
  dsimp only
  (repeat' (first | rfl | intro _ _ | rw [State.foldl_ctrl] | split | simp)) <;> simp [State.time_ctrl, State.ctl_ctrl, State.power_ctrl, State.boot_ctrl, State.prov_ctrl, State.pending_ctrl, ctrl_ite]
@[simp] theorem State.stamped_ctl (s : State) (bs : List Billet) : (State.stamped s bs).ctrl.ctl = s.ctrl.ctl := rfl
@[simp] theorem State.stamped_power (s : State) (bs : List Billet) : (State.stamped s bs).ctrl.power = s.ctrl.power := rfl
@[simp] theorem State.stamped_rest (s : State) (bs : List Billet) : (State.stamped s bs).ctrl.rest = s.ctrl.rest := rfl
@[simp] theorem State.sendNew_ctl (s : State) (p : Nat) (x : Port) : (State.sendNew s p x).ctrl.ctl = s.ctrl.ctl := by
  unfold State.sendNew
  dsimp only
  (repeat' split) <;> simp [State.time_ctrl, State.ctl_ctrl, State.power_ctrl, State.boot_ctrl, State.prov_ctrl, State.pending_ctrl, ctrl_ite]
@[simp] theorem State.sendNew_power (s : State) (p : Nat) (x : Port) : (State.sendNew s p x).ctrl.power = s.ctrl.power := by
  unfold State.sendNew
  dsimp only
  (repeat' split) <;> simp [State.time_ctrl, State.ctl_ctrl, State.power_ctrl, State.boot_ctrl, State.prov_ctrl, State.pending_ctrl, ctrl_ite]
@[simp] theorem State.sendNew_rest (s : State) (p : Nat) (x : Port) : (State.sendNew s p x).ctrl.rest = s.ctrl.rest := by
  unfold State.sendNew
  dsimp only
  (repeat' split) <;> simp [State.time_ctrl, State.ctl_ctrl, State.power_ctrl, State.boot_ctrl, State.prov_ctrl, State.pending_ctrl, ctrl_ite]
@[simp] theorem State.sendFrame_ctl (s : State) (p : Nat) : (State.sendFrame s p).ctrl.ctl = s.ctrl.ctl := by
  unfold State.sendFrame
  dsimp only
  (repeat' split) <;> simp [State.time_ctrl, State.ctl_ctrl, State.power_ctrl, State.boot_ctrl, State.prov_ctrl, State.pending_ctrl, ctrl_ite]
@[simp] theorem State.sendFrame_power (s : State) (p : Nat) : (State.sendFrame s p).ctrl.power = s.ctrl.power := by
  unfold State.sendFrame
  dsimp only
  (repeat' split) <;> simp [State.time_ctrl, State.ctl_ctrl, State.power_ctrl, State.boot_ctrl, State.prov_ctrl, State.pending_ctrl, ctrl_ite]
@[simp] theorem State.sendFrame_rest (s : State) (p : Nat) : (State.sendFrame s p).ctrl.rest = s.ctrl.rest := by
  unfold State.sendFrame
  dsimp only
  (repeat' split) <;> simp [State.time_ctrl, State.ctl_ctrl, State.power_ctrl, State.boot_ctrl, State.prov_ctrl, State.pending_ctrl, ctrl_ite]
@[simp] theorem State.receive_ctl (s : State) (p : Nat) (b : Billet) : (State.receive s p b).ctrl.ctl = s.ctrl.ctl := by
  unfold State.receive
  dsimp only
  (repeat' split) <;> simp [State.time_ctrl, State.ctl_ctrl, State.power_ctrl, State.boot_ctrl, State.prov_ctrl, State.pending_ctrl, ctrl_ite]
@[simp] theorem State.receive_power (s : State) (p : Nat) (b : Billet) : (State.receive s p b).ctrl.power = s.ctrl.power := by
  unfold State.receive
  dsimp only
  (repeat' split) <;> simp [State.time_ctrl, State.ctl_ctrl, State.power_ctrl, State.boot_ctrl, State.prov_ctrl, State.pending_ctrl, ctrl_ite]
@[simp] theorem State.receive_rest (s : State) (p : Nat) (b : Billet) : (State.receive s p b).ctrl.rest = s.ctrl.rest := by
  unfold State.receive
  dsimp only
  (repeat' split) <;> simp [State.time_ctrl, State.ctl_ctrl, State.power_ctrl, State.boot_ctrl, State.prov_ctrl, State.pending_ctrl, ctrl_ite]
@[simp] theorem State.takeFrame_ctl (s : State) (p : Nat) (f : Frame) : (State.takeFrame s p f).ctrl.ctl = s.ctrl.ctl := by
  unfold State.takeFrame
  dsimp only
  (repeat' split) <;> simp [State.time_ctrl, State.ctl_ctrl, State.power_ctrl, State.boot_ctrl, State.prov_ctrl, State.pending_ctrl, ctrl_ite]
@[simp] theorem State.takeFrame_rest (s : State) (p : Nat) (f : Frame) : (State.takeFrame s p f).ctrl.rest = s.ctrl.rest := by
  unfold State.takeFrame
  dsimp only
  (repeat' split) <;> simp [State.time_ctrl, State.ctl_ctrl, State.power_ctrl, State.boot_ctrl, State.prov_ctrl, State.pending_ctrl, ctrl_ite]
@[simp] theorem State.frameIn_ctl (s : State) (p : Nat) (f : Option Frame) : (State.frameIn s p f).ctrl.ctl = s.ctrl.ctl := by
  unfold State.frameIn
  (repeat' split) <;> simp
@[simp] theorem State.frameIn_rest (s : State) (p : Nat) (f : Option Frame) : (State.frameIn s p f).ctrl.rest = s.ctrl.rest := by
  unfold State.frameIn
  (repeat' split) <;> simp
@[simp] theorem State.replay_ctl (s : State) (p : Nat) : (State.replay s p).ctrl.ctl = s.ctrl.ctl := by
  unfold State.replay
  dsimp only
  (repeat' split) <;> simp [State.time_ctrl, State.ctl_ctrl, State.power_ctrl, State.boot_ctrl, State.prov_ctrl, State.pending_ctrl, ctrl_ite]
@[simp] theorem State.replay_rest (s : State) (p : Nat) : (State.replay s p).ctrl.rest = s.ctrl.rest := by
  unfold State.replay
  dsimp only
  (repeat' split) <;> simp [State.time_ctrl, State.ctl_ctrl, State.power_ctrl, State.boot_ctrl, State.prov_ctrl, State.pending_ctrl, ctrl_ite]
@[simp] theorem State.phaseTimeout_ctl (s : State) (p : Nat) : (State.phaseTimeout s p).ctrl.ctl = s.ctrl.ctl := by
  unfold State.phaseTimeout
  dsimp only
  (repeat' split) <;> simp [State.time_ctrl, State.ctl_ctrl, State.power_ctrl, State.boot_ctrl, State.prov_ctrl, State.pending_ctrl, ctrl_ite]
@[simp] theorem State.phaseTimeout_power (s : State) (p : Nat) : (State.phaseTimeout s p).ctrl.power = s.ctrl.power := by
  unfold State.phaseTimeout
  dsimp only
  (repeat' split) <;> simp [State.time_ctrl, State.ctl_ctrl, State.power_ctrl, State.boot_ctrl, State.prov_ctrl, State.pending_ctrl, ctrl_ite]
@[simp] theorem State.phaseTimeout_rest (s : State) (p : Nat) : (State.phaseTimeout s p).ctrl.rest = s.ctrl.rest := by
  unfold State.phaseTimeout
  dsimp only
  (repeat' split) <;> simp [State.time_ctrl, State.ctl_ctrl, State.power_ctrl, State.boot_ctrl, State.prov_ctrl, State.pending_ctrl, ctrl_ite]
@[simp] theorem State.gapEnd_ctl (s : State) (p : Nat) : (State.gapEnd s p).ctrl.ctl = s.ctrl.ctl := by
  unfold State.gapEnd
  dsimp only
  (repeat' split) <;> simp [State.time_ctrl, State.ctl_ctrl, State.power_ctrl, State.boot_ctrl, State.prov_ctrl, State.pending_ctrl, ctrl_ite]
@[simp] theorem State.gapEnd_power (s : State) (p : Nat) : (State.gapEnd s p).ctrl.power = s.ctrl.power := by
  unfold State.gapEnd
  dsimp only
  (repeat' split) <;> simp [State.time_ctrl, State.ctl_ctrl, State.power_ctrl, State.boot_ctrl, State.prov_ctrl, State.pending_ctrl, ctrl_ite]
@[simp] theorem State.gapEnd_rest (s : State) (p : Nat) : (State.gapEnd s p).ctrl.rest = s.ctrl.rest := by
  unfold State.gapEnd
  dsimp only
  (repeat' split) <;> simp [State.time_ctrl, State.ctl_ctrl, State.power_ctrl, State.boot_ctrl, State.prov_ctrl, State.pending_ctrl, ctrl_ite]
@[simp] theorem State.sibWidth_ctrl (s : State) (p : Nat) (x32 : Bool) : (State.sibWidth s p x32).ctrl = s.ctrl := by
  unfold State.sibWidth
  (repeat' split) <;> simp
@[simp] theorem State.fdi_time (s : State) (p : Nat) (st : FdiState) : (State.fdi s p st).ctrl.time = s.ctrl.time := by
  unfold State.fdi
  dsimp only
  (repeat' split) <;> simp [State.time_ctrl, State.ctl_ctrl, State.power_ctrl, State.boot_ctrl, State.prov_ctrl, State.pending_ctrl, ctrl_ite]
@[simp] theorem State.fdi_ctl (s : State) (p : Nat) (st : FdiState) : (State.fdi s p st).ctrl.ctl = s.ctrl.ctl := by
  unfold State.fdi
  dsimp only
  (repeat' split) <;> simp [State.time_ctrl, State.ctl_ctrl, State.power_ctrl, State.boot_ctrl, State.prov_ctrl, State.pending_ctrl, ctrl_ite]
@[simp] theorem State.fdi_rest (s : State) (p : Nat) (st : FdiState) : (State.fdi s p st).ctrl.rest = s.ctrl.rest := by
  unfold State.fdi
  dsimp only
  (repeat' split) <;> simp [State.time_ctrl, State.ctl_ctrl, State.power_ctrl, State.boot_ctrl, State.prov_ctrl, State.pending_ctrl, ctrl_ite]
@[simp] theorem State.unbuffer_ctrl (s : State) (p : Nat) (b : Billet) : (State.unbuffer s p b).ctrl = s.ctrl := by
  unfold State.unbuffer
  dsimp only
  (repeat' split) <;> simp [State.time_ctrl, State.ctl_ctrl, State.power_ctrl, State.boot_ctrl, State.prov_ctrl, State.pending_ctrl, ctrl_ite]
@[simp] theorem State.entered_ctrl (s : State) (p : Nat) : (State.entered s p).ctrl = s.ctrl := rfl
@[simp] theorem State.passOn_ctrl (s : State) (p : Nat) (q : Nat) (b : Billet) : (State.passOn s p q b).ctrl = s.ctrl := by simp [State.passOn]
@[simp] theorem State.deliver_ctrl (s : State) (p : Nat) (b : Billet) : (State.deliver s p b).ctrl = s.ctrl := rfl
@[simp] theorem State.undeliver_ctrl (s : State) (p : Nat) (b : Billet) : (State.undeliver s p b).ctrl = s.ctrl := by
  unfold State.undeliver
  split <;> simp
@[simp] theorem State.sendOn_ctrl (s : State) (p : Nat) (q : Nat) (b : Billet) (b' : Billet) : (State.sendOn s p q b b').ctrl = s.ctrl := by simp [State.sendOn]
@[simp] theorem State.keyIngress_ctrl (s : State) (p : Nat) (b : Billet) : (State.keyIngress s p b).1.ctrl = s.ctrl := by
  unfold State.keyIngress
  (repeat' split) <;> simp
@[simp] theorem State.arrive_ctrl (s : State) (p : Nat) (b : Billet) : (State.arrive s p b).ctrl = s.ctrl := by
  unfold State.arrive
  (repeat' split) <;> simp
@[simp] theorem State.route1_ctrl (s : State) (p : Nat) (b : Billet) : (State.route1 s p b).ctrl = s.ctrl := by
  unfold State.route1
  (repeat' split) <;> simp
@[simp] theorem State.circuitBillet_ctrl (s : State) (p : Nat) (b : Billet) : (State.circuitBillet s p b).ctrl = s.ctrl := by
  unfold State.circuitBillet
  (repeat' split) <;> simp
@[simp] theorem State.ingressWay_ctrl (s : State) (p : Nat) (b : Billet) (circuit : Bool) : (State.ingressWay s p b circuit).ctrl = s.ctrl := by
  unfold State.ingressWay
  dsimp only
  (repeat' split) <;> simp [State.time_ctrl, State.ctl_ctrl, State.power_ctrl, State.boot_ctrl, State.prov_ctrl, State.pending_ctrl, ctrl_ite]
@[simp] theorem State.ingress_ctrl (s : State) (p : Nat) (b : Billet) (circuit : Bool) : (State.ingress s p b circuit).ctrl = s.ctrl := by
  unfold State.ingress
  dsimp only
  (repeat' split) <;> simp [State.time_ctrl, State.ctl_ctrl, State.power_ctrl, State.boot_ctrl, State.prov_ctrl, State.pending_ctrl, ctrl_ite]
@[simp] theorem State.circuitReply_ctrl (s : State) (m : CircMsg) (b : Billet) (sub : BitVec 13) (reason : Nat) : (State.circuitReply s m b sub reason).ctrl = s.ctrl := by simp [State.circuitReply]
@[simp] theorem State.setupHop_ctrl (s : State) (p : PortId) (b : Billet) : (State.setupHop s p b).ctrl = s.ctrl := by
  unfold State.setupHop
  dsimp only
  (repeat' split) <;> first | (simp; done) | (simp; exact State.reserve_here (by assumption)) | (simp; exact State.reserve_onward (by assumption))
@[simp] theorem State.releaseHop_ctrl (s : State) (p : PortId) (b : Billet) : (State.releaseHop s p b).ctrl = s.ctrl := by
  have hf (o : Option Nat) (u : State) : ((o.map u.freeCirc).getD u).ctrl = u.ctrl := by cases o <;> simp
  unfold State.releaseHop
  dsimp only
  (repeat' split) <;> simp [hf]
@[simp] theorem State.confirmed_time (s : State) (b : Billet) : (State.confirmed s b).ctrl.time = s.ctrl.time := by
  unfold State.confirmed
  (repeat' split) <;> simp
@[simp] theorem State.confirmed_ctl (s : State) (b : Billet) : (State.confirmed s b).ctrl.ctl = s.ctrl.ctl := by
  unfold State.confirmed
  (repeat' split) <;> simp
@[simp] theorem State.confirmed_rest (s : State) (b : Billet) : (State.confirmed s b).ctrl.rest = s.ctrl.rest := by
  unfold State.confirmed
  (repeat' split) <;> simp
@[simp] theorem State.refusedHere_time (s : State) (b : Billet) : (State.refusedHere s b).ctrl.time = s.ctrl.time := by
  unfold State.refusedHere
  (repeat' split) <;> simp
@[simp] theorem State.refusedHere_ctl (s : State) (b : Billet) : (State.refusedHere s b).ctrl.ctl = s.ctrl.ctl := by
  unfold State.refusedHere
  (repeat' split) <;> simp
@[simp] theorem State.refusedHere_rest (s : State) (b : Billet) : (State.refusedHere s b).ctrl.rest = s.ctrl.rest := by
  unfold State.refusedHere
  (repeat' split) <;> simp
@[simp] theorem State.releaseHold_time (s : State) : (State.releaseHold s).ctrl.time = s.ctrl.time := by
  unfold State.releaseHold
  (repeat' split) <;> simp
@[simp] theorem State.releaseHold_ctl (s : State) : (State.releaseHold s).ctrl.ctl = s.ctrl.ctl := by
  unfold State.releaseHold
  (repeat' split) <;> simp
@[simp] theorem State.releaseHold_rest (s : State) : (State.releaseHold s).ctrl.rest = s.ctrl.rest := by
  unfold State.releaseHold
  (repeat' split) <;> simp
@[simp] theorem State.startDrain_time (s : State) (c : Nat) : (State.startDrain s c).ctrl.time = s.ctrl.time := by
  unfold State.startDrain
  dsimp only
  (repeat' split) <;> simp [State.time_ctrl, State.ctl_ctrl, State.power_ctrl, State.boot_ctrl, State.prov_ctrl, State.pending_ctrl, ctrl_ite]
@[simp] theorem State.startDrain_ctl (s : State) (c : Nat) : (State.startDrain s c).ctrl.ctl = s.ctrl.ctl := by
  unfold State.startDrain
  dsimp only
  (repeat' split) <;> simp [State.time_ctrl, State.ctl_ctrl, State.power_ctrl, State.boot_ctrl, State.prov_ctrl, State.pending_ctrl, ctrl_ite]
@[simp] theorem State.startDrain_rest (s : State) (c : Nat) : (State.startDrain s c).ctrl.rest = s.ctrl.rest := by
  unfold State.startDrain
  dsimp only
  (repeat' split) <;> simp [State.time_ctrl, State.ctl_ctrl, State.power_ctrl, State.boot_ctrl, State.prov_ctrl, State.pending_ctrl, ctrl_ite]
@[simp] theorem State.drainQuiet_ctl (s : State) : (State.drainQuiet s).ctrl.ctl = s.ctrl.ctl := by
  unfold State.drainQuiet
  dsimp only
  (repeat' split) <;> simp [State.time_ctrl, State.ctl_ctrl, State.power_ctrl, State.boot_ctrl, State.prov_ctrl, State.pending_ctrl, ctrl_ite]
@[simp] theorem State.drainQuiet_rest (s : State) : (State.drainQuiet s).ctrl.rest = s.ctrl.rest := by
  unfold State.drainQuiet
  dsimp only
  (repeat' split) <;> simp [State.time_ctrl, State.ctl_ctrl, State.power_ctrl, State.boot_ctrl, State.prov_ctrl, State.pending_ctrl, ctrl_ite]
@[simp] theorem State.drainTimeout_ctl (s : State) : (State.drainTimeout s).ctrl.ctl = s.ctrl.ctl := by
  unfold State.drainTimeout
  (repeat' split) <;> simp
@[simp] theorem State.drainTimeout_rest (s : State) : (State.drainTimeout s).ctrl.rest = s.ctrl.rest := by
  unfold State.drainTimeout
  (repeat' split) <;> simp
@[simp] theorem State.startSwap_time (s : State) (c : Nat) : (State.startSwap s c).ctrl.time = s.ctrl.time := by
  unfold State.startSwap
  dsimp only
  (repeat' split) <;> simp [State.time_ctrl, State.ctl_ctrl, State.power_ctrl, State.boot_ctrl, State.prov_ctrl, State.pending_ctrl, ctrl_ite]
@[simp] theorem State.startSwap_ctl (s : State) (c : Nat) : (State.startSwap s c).ctrl.ctl = s.ctrl.ctl := by
  unfold State.startSwap
  dsimp only
  (repeat' split) <;> simp [State.time_ctrl, State.ctl_ctrl, State.power_ctrl, State.boot_ctrl, State.prov_ctrl, State.pending_ctrl, ctrl_ite]
@[simp] theorem State.startSwap_rest (s : State) (c : Nat) : (State.startSwap s c).ctrl.rest = s.ctrl.rest := by
  unfold State.startSwap
  dsimp only
  (repeat' split) <;> simp [State.time_ctrl, State.ctl_ctrl, State.power_ctrl, State.boot_ctrl, State.prov_ctrl, State.pending_ctrl, ctrl_ite]
@[simp] theorem State.discardAt_ctrl (s : State) (p : Nat) : (State.discardAt s p).ctrl = s.ctrl := by
  unfold State.discardAt
  dsimp only
  (repeat' (first | rfl | intro _ _ | rw [State.foldl_ctrl] | split | simp [State.time_ctrl, State.ctl_ctrl, State.power_ctrl, State.boot_ctrl, State.prov_ctrl, State.pending_ctrl, ctrl_ite])) <;> simp_all [State.time_ctrl, State.ctl_ctrl, State.power_ctrl, State.boot_ctrl, State.prov_ctrl, State.pending_ctrl, ctrl_ite]
theorem State.swapNow_keeps (s : State) : (State.swapNow s).ctrl.ctl = s.ctrl.ctl ∧ (State.swapNow s).ctrl.rest = s.ctrl.rest := by
  unfold State.swapNow
  generalize List.range 40 = l
  split
  · exact ⟨rfl, rfl⟩
  · extract_lets s1 r1 s2 s3 r2 s4 s5 s6
    have h2 : s2.ctrl.ctl = s.ctrl.ctl ∧ s2.ctrl.rest = s.ctrl.rest := ⟨rfl, rfl⟩
    clear_value s2
    have h3 : s3.ctrl = s2.ctrl := by
      unfold s3; split
      · exact State.foldl_keeps State.ctrl _ (fun s p => State.discardAt_ctrl s p) _ _
      · rfl
    clear_value s3
    have h4 : s4.ctrl = s3.ctrl := by unfold s4; split <;> rfl
    clear_value s4
    have h6 : s6.ctrl = s5.ctrl := State.foldl_keeps State.ctrl _ (fun s p => State.modTr_ctrl s p _) _ _
    clear_value s6
    simp [h6, s5, h4, h3, h2]
@[simp] theorem State.swapNow_ctl (s : State) : (State.swapNow s).ctrl.ctl = s.ctrl.ctl := (State.swapNow_keeps s).1
@[simp] theorem State.swapNow_rest (s : State) : (State.swapNow s).ctrl.rest = s.ctrl.rest := (State.swapNow_keeps s).2
@[simp] theorem State.adopt_ctrl (s : State) (p : Nat) (e : W32) : (State.adopt s p e).ctrl = s.ctrl := by simp [State.adopt]
@[simp] theorem State.startAdopt_time (s : State) (c : Nat) : (State.startAdopt s c).ctrl.time = s.ctrl.time := by
  unfold State.startAdopt
  dsimp only
  (repeat' split) <;> simp [State.time_ctrl, State.ctl_ctrl, State.power_ctrl, State.boot_ctrl, State.prov_ctrl, State.pending_ctrl, ctrl_ite]
@[simp] theorem State.startAdopt_ctl (s : State) (c : Nat) : (State.startAdopt s c).ctrl.ctl = s.ctrl.ctl := by
  unfold State.startAdopt
  dsimp only
  (repeat' split) <;> simp [State.time_ctrl, State.ctl_ctrl, State.power_ctrl, State.boot_ctrl, State.prov_ctrl, State.pending_ctrl, ctrl_ite]
@[simp] theorem State.startAdopt_rest (s : State) (c : Nat) : (State.startAdopt s c).ctrl.rest = s.ctrl.rest := by
  unfold State.startAdopt
  dsimp only
  (repeat' split) <;> simp [State.time_ctrl, State.ctl_ctrl, State.power_ctrl, State.boot_ctrl, State.prov_ctrl, State.pending_ctrl, ctrl_ite]
@[simp] theorem State.drainIsland_time (s : State) (i : Island) : (State.drainIsland s i).ctrl.time = s.ctrl.time := by
  unfold State.drainIsland
  dsimp only
  (repeat' split) <;> simp [State.time_ctrl, State.ctl_ctrl, State.power_ctrl, State.boot_ctrl, State.prov_ctrl, State.pending_ctrl, ctrl_ite]
@[simp] theorem State.drainIsland_ctl (s : State) (i : Island) : (State.drainIsland s i).ctrl.ctl = s.ctrl.ctl := by
  unfold State.drainIsland
  dsimp only
  (repeat' split) <;> simp [State.time_ctrl, State.ctl_ctrl, State.power_ctrl, State.boot_ctrl, State.prov_ctrl, State.pending_ctrl, ctrl_ite]
@[simp] theorem State.drainIsland_rest (s : State) (i : Island) : (State.drainIsland s i).ctrl.rest = s.ctrl.rest := by
  unfold State.drainIsland
  dsimp only
  (repeat' split) <;> simp [State.time_ctrl, State.ctl_ctrl, State.power_ctrl, State.boot_ctrl, State.prov_ctrl, State.pending_ctrl, ctrl_ite]
@[simp] theorem State.beginIsland_time (s : State) (i : Island) : (State.beginIsland s i).ctrl.time = s.ctrl.time := by simp [State.beginIsland, State.time_ctrl, State.ctl_ctrl, State.power_ctrl, State.boot_ctrl, State.prov_ctrl, State.pending_ctrl]
@[simp] theorem State.beginIsland_rest (s : State) (i : Island) : (State.beginIsland s i).ctrl.rest = s.ctrl.rest := by simp [State.beginIsland, State.time_ctrl, State.ctl_ctrl, State.power_ctrl, State.boot_ctrl, State.prov_ctrl, State.pending_ctrl]
@[simp] theorem State.islandWrite_time (s : State) (v : W32) : (State.islandWrite s v).ctrl.time = s.ctrl.time := by
  unfold State.islandWrite
  dsimp only
  (repeat' split) <;> simp [State.time_ctrl, State.ctl_ctrl, State.power_ctrl, State.boot_ctrl, State.prov_ctrl, State.pending_ctrl, ctrl_ite]
@[simp] theorem State.islandWrite_rest (s : State) (v : W32) : (State.islandWrite s v).ctrl.rest = s.ctrl.rest := by
  unfold State.islandWrite
  dsimp only
  (repeat' split) <;> simp [State.time_ctrl, State.ctl_ctrl, State.power_ctrl, State.boot_ctrl, State.prov_ctrl, State.pending_ctrl, ctrl_ite]
@[simp] theorem State.realign_time (s : State) (i : Island) : (State.realign s i).ctrl.time = s.ctrl.time := rfl
@[simp] theorem State.realign_ctl (s : State) (i : Island) : (State.realign s i).ctrl.ctl = s.ctrl.ctl := rfl
@[simp] theorem State.realign_rest (s : State) (i : Island) : (State.realign s i).ctrl.rest = s.ctrl.rest := rfl
@[simp] theorem State.resetIsland_time (s : State) (i : Island) : (State.resetIsland s i).ctrl.time = s.ctrl.time := by
  unfold State.resetIsland
  dsimp only
  (repeat' split) <;> simp [State.time_ctrl, State.ctl_ctrl, State.power_ctrl, State.boot_ctrl, State.prov_ctrl, State.pending_ctrl, ctrl_ite]
@[simp] theorem State.resetIsland_ctl (s : State) (i : Island) : (State.resetIsland s i).ctrl.ctl = s.ctrl.ctl := by
  unfold State.resetIsland
  dsimp only
  (repeat' split) <;> simp [State.time_ctrl, State.ctl_ctrl, State.power_ctrl, State.boot_ctrl, State.prov_ctrl, State.pending_ctrl, ctrl_ite]
@[simp] theorem State.resetIsland_rest (s : State) (i : Island) : (State.resetIsland s i).ctrl.rest = s.ctrl.rest := by
  unfold State.resetIsland
  dsimp only
  (repeat' split) <;> simp [State.time_ctrl, State.ctl_ctrl, State.power_ctrl, State.boot_ctrl, State.prov_ctrl, State.pending_ctrl, ctrl_ite]
@[simp] theorem State.startIsland_time (s : State) : (State.startIsland s).ctrl.time = s.ctrl.time := by
  unfold State.startIsland
  (repeat' split) <;> simp [State.time_ctrl, State.ctl_ctrl, State.power_ctrl, State.boot_ctrl, State.prov_ctrl, State.pending_ctrl]
@[simp] theorem State.startIsland_rest (s : State) : (State.startIsland s).ctrl.rest = s.ctrl.rest := by
  unfold State.startIsland
  (repeat' split) <;> simp [State.time_ctrl, State.ctl_ctrl, State.power_ctrl, State.boot_ctrl, State.prov_ctrl, State.pending_ctrl]
@[simp] theorem State.faultHeats_time (s : State) (i : Island) (unit : Nat) (hs : List (Nat × Heat)) : (State.faultHeats s i unit hs).ctrl.time = s.ctrl.time := by simp [State.faultHeats]
@[simp] theorem State.faultHeats_ctl (s : State) (i : Island) (unit : Nat) (hs : List (Nat × Heat)) : (State.faultHeats s i unit hs).ctrl.ctl = s.ctrl.ctl := by simp [State.faultHeats]
@[simp] theorem State.faultHeats_rest (s : State) (i : Island) (unit : Nat) (hs : List (Nat × Heat)) : (State.faultHeats s i unit hs).ctrl.rest = s.ctrl.rest := by simp [State.faultHeats]
@[simp] theorem State.poisonAll_ctrl (s : State) (but : List (Nat × Nat)) : (State.poisonAll s but).ctrl = s.ctrl := rfl
@[simp] theorem State.stateEcc_time (s : State) (i : Island) (touched : List Nat) : (State.stateEcc s i touched).ctrl.time = s.ctrl.time := by
  unfold State.stateEcc
  (repeat' split) <;> simp
@[simp] theorem State.stateEcc_ctl (s : State) (i : Island) (touched : List Nat) : (State.stateEcc s i touched).ctrl.ctl = s.ctrl.ctl := by
  unfold State.stateEcc
  (repeat' split) <;> simp
@[simp] theorem State.stateEcc_rest (s : State) (i : Island) (touched : List Nat) : (State.stateEcc s i touched).ctrl.rest = s.ctrl.rest := by
  unfold State.stateEcc
  (repeat' split) <;> simp
@[simp] theorem State.faultReset_time (s : State) (i : Island) : (State.faultReset s i).ctrl.time = s.ctrl.time := by
  unfold State.faultReset
  dsimp only
  (repeat' split) <;> simp [State.time_ctrl, State.ctl_ctrl, State.power_ctrl, State.boot_ctrl, State.prov_ctrl, State.pending_ctrl, ctrl_ite]
@[simp] theorem State.faultReset_rest (s : State) (i : Island) : (State.faultReset s i).ctrl.rest = s.ctrl.rest := by
  unfold State.faultReset
  dsimp only
  (repeat' split) <;> simp [State.time_ctrl, State.ctl_ctrl, State.power_ctrl, State.boot_ctrl, State.prov_ctrl, State.pending_ctrl, ctrl_ite]
@[simp] theorem State.islandDone_time (s : State) : (State.islandDone s).ctrl.time = s.ctrl.time := by
  unfold State.islandDone
  dsimp only
  (repeat' split) <;> simp [State.time_ctrl, State.ctl_ctrl, State.power_ctrl, State.boot_ctrl, State.prov_ctrl, State.pending_ctrl, ctrl_ite]
@[simp] theorem State.islandDone_rest (s : State) : (State.islandDone s).ctrl.rest = s.ctrl.rest := by
  unfold State.islandDone
  dsimp only
  (repeat' split) <;> simp [State.time_ctrl, State.ctl_ctrl, State.power_ctrl, State.boot_ctrl, State.prov_ctrl, State.pending_ctrl, ctrl_ite]
@[simp] theorem State.islandFaults_time (s : State) (i : Island) (unit : Nat) (touched : List Nat) : (State.islandFaults s i unit touched).ctrl.time = s.ctrl.time := by
  unfold State.islandFaults
  (repeat' split) <;> simp [State.time_ctrl, State.ctl_ctrl, State.power_ctrl, State.boot_ctrl, State.prov_ctrl, State.pending_ctrl]
@[simp] theorem State.islandFaults_rest (s : State) (i : Island) (unit : Nat) (touched : List Nat) : (State.islandFaults s i unit touched).ctrl.rest = s.ctrl.rest := by
  unfold State.islandFaults
  (repeat' split) <;> simp [State.time_ctrl, State.ctl_ctrl, State.power_ctrl, State.boot_ctrl, State.prov_ctrl, State.pending_ctrl]
@[simp] theorem State.setAligned_time (s : State) (i : Island) : (State.setAligned s i).ctrl.time = s.ctrl.time := by
  unfold State.setAligned
  (repeat' split) <;> simp [State.time_ctrl, State.ctl_ctrl, State.power_ctrl, State.boot_ctrl, State.prov_ctrl, State.pending_ctrl]
@[simp] theorem State.setAligned_ctl (s : State) (i : Island) : (State.setAligned s i).ctrl.ctl = s.ctrl.ctl := by
  unfold State.setAligned
  (repeat' split) <;> simp [State.time_ctrl, State.ctl_ctrl, State.power_ctrl, State.boot_ctrl, State.prov_ctrl, State.pending_ctrl]
@[simp] theorem State.setAligned_rest (s : State) (i : Island) : (State.setAligned s i).ctrl.rest = s.ctrl.rest := by
  unfold State.setAligned
  (repeat' split) <;> simp [State.time_ctrl, State.ctl_ctrl, State.power_ctrl, State.boot_ctrl, State.prov_ctrl, State.pending_ctrl]
@[simp] theorem State.alignedNow_time (s : State) (i : Island) : (State.alignedNow s i).ctrl.time = s.ctrl.time := by
  unfold State.alignedNow
  (repeat' (first | rfl | intro _ _ | rw [State.foldl_time] | split)) <;> simp [State.time_ctrl, State.ctl_ctrl, State.power_ctrl, State.boot_ctrl, State.prov_ctrl, State.pending_ctrl, ctrl_ite]
@[simp] theorem State.alignedNow_rest (s : State) (i : Island) : (State.alignedNow s i).ctrl.rest = s.ctrl.rest := by
  unfold State.alignedNow
  (repeat' (first | rfl | intro _ _ | simp | rw [State.foldl_rest] | split)) <;> simp [State.time_ctrl, State.ctl_ctrl, State.power_ctrl, State.boot_ctrl, State.prov_ctrl, State.pending_ctrl, ctrl_ite]
@[simp] theorem State.alignCheck_rest (s : State) (i : Island) (ok : Bool) : (State.alignCheck s i ok).ctrl.rest = s.ctrl.rest := by
  simp only [State.alignCheck]
  (repeat' split) <;> simp_all [State.time_ctrl, State.ctl_ctrl, State.power_ctrl, State.boot_ctrl, State.prov_ctrl, State.pending_ctrl, ctrl_ite]
@[simp] theorem State.pageWrite_ctrl (s : State) (rid : BitVec 16) (q : Nat) (doorbell : Bool) (f : State → State) (hf : ∀ t, (f t).ctrl = t.ctrl) : (State.pageWrite s rid q doorbell f).ctrl = s.ctrl := by
  unfold State.pageWrite
  (repeat' split) <;> simp_all
@[simp] theorem State.foundToo_ctrl (s : State) (q : Nat) (reason : BitVec 4) : (State.foundToo s q reason).ctrl = s.ctrl := by
  unfold State.foundToo
  split <;> simp
@[simp] theorem State.ring_ctrl (s : State) (q : Nat) (v : W32) : (State.ring s q v).ctrl = s.ctrl := by
  simp only [State.ring]
  (repeat' split) <;> simp_all [State.time_ctrl, State.ctl_ctrl, State.power_ctrl, State.boot_ctrl, State.prov_ctrl, State.pending_ctrl, ctrl_ite]
@[simp] theorem State.invalidate_ctrl (s : State) (q : Nat) : (State.invalidate s q).ctrl = s.ctrl := rfl
@[simp] theorem State.applyTail_ctrl (s : State) (q : Nat) : (State.applyTail s q).ctrl = s.ctrl := by
  unfold State.applyTail
  dsimp only
  (repeat' split) <;> simp [State.time_ctrl, State.ctl_ctrl, State.power_ctrl, State.boot_ctrl, State.prov_ctrl, State.pending_ctrl, ctrl_ite]
@[simp] theorem State.control_ctrl (s : State) (q : Nat) (v : W32) : (State.control s q v).ctrl = s.ctrl := by
  unfold State.control
  dsimp only
  (repeat' split) <;> simp [State.time_ctrl, State.ctl_ctrl, State.power_ctrl, State.boot_ctrl, State.prov_ctrl, State.pending_ctrl, ctrl_ite]
@[simp] theorem State.ringWrite_ctrl (s : State) (q : Nat) (x2 : RingReg) (v : W32) : (State.ringWrite s q x2 v).ctrl = s.ctrl := by
  unfold State.ringWrite
  (repeat' split) <;> simp
@[simp] theorem State.fetch_ctrl (s : State) (q n : Nat) : (State.fetch s q n).ctrl = s.ctrl := by
  induction n generalizing s with
  | zero => rfl
  | succ n ih =>
    unfold State.fetch
    dsimp only
    (repeat' split) <;> first | rfl | exact State.askXlate_ctrl _ _ _ (by assumption) | (rw [ih, State.modQueue_ctrl, State.issueMem_ctrl _ _ _ (by assumption)]; simp)
@[simp] theorem State.fetched_ctrl (s : State) (q : Nat) (idx : Nat) (d : Payload) : (State.fetched s q idx d).ctrl = s.ctrl := rfl
@[simp] theorem State.fetchFails_ctrl (s : State) (q : Nat) (idx : Nat) : (State.fetchFails s q idx).ctrl = s.ctrl := by
  unfold State.fetchFails
  (repeat' split) <;> simp
@[simp] theorem State.validated_ctrl (s : State) (q : Nat) (pa : Nat) (size : Nat) (d : Desc) (w : Words) : (State.validated s q pa size d w).ctrl = s.ctrl := rfl
@[simp] theorem State.checkChain_ctrl (s : State) (q : Nat) : (State.checkChain s q).ctrl = s.ctrl := by
  unfold State.checkChain
  dsimp only
  (repeat' split) <;> first | (simp [State.time_ctrl, State.ctl_ctrl, State.power_ctrl, State.boot_ctrl, State.prov_ctrl, State.pending_ctrl, ctrl_ite]; done) | (simp [State.time_ctrl, State.ctl_ctrl, State.power_ctrl, State.boot_ctrl, State.prov_ctrl, State.pending_ctrl, ctrl_ite, State.askXlate_ctrl _ _ _  (by assumption)]; done)
@[simp] theorem State.consume_ctrl (s : State) (q : Nat) (x2 : Nat) : (State.consume s q x2).ctrl = s.ctrl := by
  induction x2 generalizing s with
  | zero => rfl
  | succ n ih =>
    unfold State.consume
    dsimp only
    (repeat' split) <;> simp [ih]
@[simp] theorem State.wakeAnvilFor_time (s : State) : (State.wakeAnvilFor s).ctrl.time = s.ctrl.time := by
  unfold State.wakeAnvilFor
  simp only [State.time_ctrl, State.ctl_ctrl, State.power_ctrl, State.boot_ctrl, State.prov_ctrl, State.pending_ctrl, ctrl_ite]
  (repeat' split) <;> simp_all [State.time_ctrl, State.ctl_ctrl, State.power_ctrl, State.boot_ctrl, State.prov_ctrl, State.pending_ctrl, ctrl_ite]
@[simp] theorem State.wakeAnvilFor_ctl (s : State) : (State.wakeAnvilFor s).ctrl.ctl = s.ctrl.ctl := by
  unfold State.wakeAnvilFor
  (repeat' split) <;> simp
@[simp] theorem State.wakeAnvilFor_rest (s : State) : (State.wakeAnvilFor s).ctrl.rest = s.ctrl.rest := by
  unfold State.wakeAnvilFor
  (repeat' split) <;> simp
theorem State.hearths_time (l : List Island) (s : State) : (l.foldl State.wake s).ctrl.time = s.ctrl.time ∧
    (l.foldl State.wake s).ctrl.ctl = s.ctrl.ctl ∧ (l.foldl State.wake s).ctrl.rest = s.ctrl.rest :=
  ⟨State.foldl_keeps (·.ctrl.time) State.wake (fun _ _ => rfl) l s, State.foldl_keeps (·.ctrl.ctl) State.wake (fun _ _ => rfl) l s,
    State.foldl_keeps (·.ctrl.rest) State.wake (fun _ _ => rfl) l s⟩
theorem State.wakeFor_keeps (s : State) (k : Kind) : (State.wakeFor s k).ctrl.time = s.ctrl.time ∧
    (State.wakeFor s k).ctrl.ctl = s.ctrl.ctl ∧ (State.wakeFor s k).ctrl.rest = s.ctrl.rest := by
  unfold State.wakeFor
  generalize hearths = l
  dsimp only
  (repeat' split) <;> simp [State.hearths_time]
@[simp] theorem State.wakeFor_time (s : State) (k : Kind) : (State.wakeFor s k).ctrl.time = s.ctrl.time := (State.wakeFor_keeps s k).1
@[simp] theorem State.wakeFor_ctl (s : State) (k : Kind) : (State.wakeFor s k).ctrl.ctl = s.ctrl.ctl := (State.wakeFor_keeps s k).2.1
@[simp] theorem State.wakeFor_rest (s : State) (k : Kind) : (State.wakeFor s k).ctrl.rest = s.ctrl.rest := (State.wakeFor_keeps s k).2.2
@[simp] theorem State.beginGroup_time (s : State) (c : Nat) (part : Option Nat) (d : Desc) (w : Words) : (State.beginGroup s c part d w).ctrl.time = s.ctrl.time := by
  unfold State.beginGroup
  (repeat' split) <;> simp
@[simp] theorem State.beginGroup_ctl (s : State) (c : Nat) (part : Option Nat) (d : Desc) (w : Words) : (State.beginGroup s c part d w).ctrl.ctl = s.ctrl.ctl := by
  unfold State.beginGroup
  (repeat' split) <;> simp
@[simp] theorem State.beginGroup_rest (s : State) (c : Nat) (part : Option Nat) (d : Desc) (w : Words) : (State.beginGroup s c part d w).ctrl.rest = s.ctrl.rest := by
  unfold State.beginGroup
  (repeat' split) <;> simp
@[simp] theorem State.withStreams_ctrl (s : State) (c : Nat) (pin : Bool) (sts : List Stream) (ph : Phase) : (State.withStreams s c pin sts ph).ctrl = s.ctrl := rfl
@[simp] theorem State.startLoad_time (s : State) (c : Nat) (part : Nat) (d : Desc) (w : Words) : (State.startLoad s c part d w).ctrl.time = s.ctrl.time := by
  unfold State.startLoad
  (repeat' split) <;> simp
@[simp] theorem State.startLoad_ctl (s : State) (c : Nat) (part : Nat) (d : Desc) (w : Words) : (State.startLoad s c part d w).ctrl.ctl = s.ctrl.ctl := by
  unfold State.startLoad
  (repeat' split) <;> simp
@[simp] theorem State.startLoad_rest (s : State) (c : Nat) (part : Nat) (d : Desc) (w : Words) : (State.startLoad s c part d w).ctrl.rest = s.ctrl.rest := by
  unfold State.startLoad
  (repeat' split) <;> simp
@[simp] theorem State.startUnload_time (s : State) (c : Nat) (part : Nat) (d : Desc) : (State.startUnload s c part d).ctrl.time = s.ctrl.time := by
  unfold State.startUnload
  (repeat' split) <;> simp
@[simp] theorem State.startUnload_ctl (s : State) (c : Nat) (part : Nat) (d : Desc) : (State.startUnload s c part d).ctrl.ctl = s.ctrl.ctl := by
  unfold State.startUnload
  (repeat' split) <;> simp
@[simp] theorem State.startUnload_rest (s : State) (c : Nat) (part : Nat) (d : Desc) : (State.startUnload s c part d).ctrl.rest = s.ctrl.rest := by
  unfold State.startUnload
  (repeat' split) <;> simp
@[simp] theorem State.startPreload_ctrl (s : State) (c : Nat) (d : Desc) (w : Words) : (State.startPreload s c d w).ctrl = s.ctrl := rfl
@[simp] theorem State.startDrainSlot_ctrl (s : State) (c : Nat) : (State.startDrainSlot s c).ctrl = s.ctrl := rfl
@[simp] theorem State.startSteward_time (s : State) (c : Nat) (k : Kind) : (State.startSteward s c k).ctrl.time = s.ctrl.time := by
  unfold State.startSteward
  (repeat' split) <;> simp
@[simp] theorem State.startSteward_ctl (s : State) (c : Nat) (k : Kind) : (State.startSteward s c k).ctrl.ctl = s.ctrl.ctl := by
  unfold State.startSteward
  (repeat' split) <;> simp
@[simp] theorem State.startSteward_rest (s : State) (c : Nat) (k : Kind) : (State.startSteward s c k).ctrl.rest = s.ctrl.rest := by
  unfold State.startSteward
  (repeat' split) <;> simp
@[simp] theorem State.start_time (s : State) (c : Nat) (part : Option Nat) (d : Desc) (w : Words) : (State.start s c part d w).ctrl.time = s.ctrl.time := by
  unfold State.start
  (repeat' split) <;> simp
@[simp] theorem State.start_ctl (s : State) (c : Nat) (part : Option Nat) (d : Desc) (w : Words) : (State.start s c part d w).ctrl.ctl = s.ctrl.ctl := by
  unfold State.start
  (repeat' split) <;> simp
@[simp] theorem State.start_rest (s : State) (c : Nat) (part : Option Nat) (d : Desc) (w : Words) : (State.start s c part d w).ctrl.rest = s.ctrl.rest := by
  unfold State.start
  (repeat' split) <;> simp
@[simp] theorem State.enter_ctrl (s : State) (q : Nat) (c : Nat) (d : Desc) (w : Words) (n : Nat) : (State.enter s q c d w n).ctrl = s.ctrl := by simp [State.enter, State.time_ctrl, State.ctl_ctrl, State.power_ctrl, State.boot_ctrl, State.prov_ctrl, State.pending_ctrl]
@[simp] theorem State.launch_time (s : State) (q : Nat) (c : Nat) (d : Desc) (w : Words) (n : Nat) : (State.launch s q c d w n).ctrl.time = s.ctrl.time := by
  unfold State.launch
  dsimp only
  (repeat' split) <;> simp [State.time_ctrl, State.ctl_ctrl, State.power_ctrl, State.boot_ctrl, State.prov_ctrl, State.pending_ctrl, ctrl_ite]
@[simp] theorem State.launch_ctl (s : State) (q : Nat) (c : Nat) (d : Desc) (w : Words) (n : Nat) : (State.launch s q c d w n).ctrl.ctl = s.ctrl.ctl := by
  unfold State.launch
  dsimp only
  (repeat' split) <;> simp [State.time_ctrl, State.ctl_ctrl, State.power_ctrl, State.boot_ctrl, State.prov_ctrl, State.pending_ctrl, ctrl_ite]
@[simp] theorem State.launch_rest (s : State) (q : Nat) (c : Nat) (d : Desc) (w : Words) (n : Nat) : (State.launch s q c d w n).ctrl.rest = s.ctrl.rest := by
  unfold State.launch
  dsimp only
  (repeat' split) <;> simp [State.time_ctrl, State.ctl_ctrl, State.power_ctrl, State.boot_ctrl, State.prov_ctrl, State.pending_ctrl, ctrl_ite]
@[simp] theorem State.dispatch_time (s : State) (q : Nat) (k : Kind) (sel : Words → Bool) : (State.dispatch s q k sel).ctrl.time = s.ctrl.time := by
  unfold State.dispatch
  (repeat' split) <;> first | (simp [State.time_ctrl, State.ctl_ctrl, State.power_ctrl, State.boot_ctrl, State.prov_ctrl, State.pending_ctrl, ctrl_ite]; done) | (simp [State.time_ctrl, State.ctl_ctrl, State.power_ctrl, State.boot_ctrl, State.prov_ctrl, State.pending_ctrl, ctrl_ite, State.nextGrant_ctrl _ _  (by assumption)]; done)
@[simp] theorem State.dispatch_ctl (s : State) (q : Nat) (k : Kind) (sel : Words → Bool) : (State.dispatch s q k sel).ctrl.ctl = s.ctrl.ctl := by
  unfold State.dispatch
  (repeat' split) <;> first | (simp [State.time_ctrl, State.ctl_ctrl, State.power_ctrl, State.boot_ctrl, State.prov_ctrl, State.pending_ctrl, ctrl_ite]; done) | (simp [State.time_ctrl, State.ctl_ctrl, State.power_ctrl, State.boot_ctrl, State.prov_ctrl, State.pending_ctrl, ctrl_ite, State.nextGrant_ctrl _ _  (by assumption)]; done)
@[simp] theorem State.dispatch_rest (s : State) (q : Nat) (k : Kind) (sel : Words → Bool) : (State.dispatch s q k sel).ctrl.rest = s.ctrl.rest := by
  unfold State.dispatch
  (repeat' split) <;> first | (simp [State.time_ctrl, State.ctl_ctrl, State.power_ctrl, State.boot_ctrl, State.prov_ctrl, State.pending_ctrl, ctrl_ite]; done) | (simp [State.time_ctrl, State.ctl_ctrl, State.power_ctrl, State.boot_ctrl, State.prov_ctrl, State.pending_ctrl, ctrl_ite, State.nextGrant_ctrl _ _  (by assumption)]; done)
@[simp] theorem State.stopForWake_ctrl (s : State) (c : Nat) : (State.stopForWake s c).ctrl = s.ctrl := by
  unfold State.stopForWake
  (repeat' split) <;> simp
theorem State.runWake_keeps (s : State) (c : Nat) : (State.runWake s c).ctrl.time = s.ctrl.time ∧
    (State.runWake s c).ctrl.ctl = s.ctrl.ctl ∧ (State.runWake s c).ctrl.rest = s.ctrl.rest := by
  unfold State.runWake
  (repeat' split) <;> simp
@[simp] theorem State.runWake_time (s : State) (c : Nat) : (State.runWake s c).ctrl.time = s.ctrl.time := (State.runWake_keeps s c).1
@[simp] theorem State.runWake_ctl (s : State) (c : Nat) : (State.runWake s c).ctrl.ctl = s.ctrl.ctl := (State.runWake_keeps s c).2.1
@[simp] theorem State.runWake_rest (s : State) (c : Nat) : (State.runWake s c).ctrl.rest = s.ctrl.rest := (State.runWake_keeps s c).2.2
theorem State.waitWake_keeps (s : State) (c : Nat) : (State.waitWake s c).ctrl.time = s.ctrl.time ∧
    (State.waitWake s c).ctrl.ctl = s.ctrl.ctl ∧ (State.waitWake s c).ctrl.rest = s.ctrl.rest := by
  unfold State.waitWake
  generalize hearths = l
  extract_lets s1 s2
  have h1 : s1.ctrl.time = s.ctrl.time ∧ s1.ctrl.ctl = s.ctrl.ctl ∧ s1.ctrl.rest = s.ctrl.rest := by unfold s1; split <;> simp
  clear_value s1
  have h2 : s2.ctrl.time = s.ctrl.time ∧ s2.ctrl.ctl = s.ctrl.ctl ∧ s2.ctrl.rest = s.ctrl.rest := by
    unfold s2; split
    · exact h1
    · simpa [State.hearths_time] using h1
  clear_value s2
  simpa using h2
@[simp] theorem State.waitWake_time (s : State) (c : Nat) : (State.waitWake s c).ctrl.time = s.ctrl.time := (State.waitWake_keeps s c).1
@[simp] theorem State.waitWake_ctl (s : State) (c : Nat) : (State.waitWake s c).ctrl.ctl = s.ctrl.ctl := (State.waitWake_keeps s c).2.1
@[simp] theorem State.waitWake_rest (s : State) (c : Nat) : (State.waitWake s c).ctrl.rest = s.ctrl.rest := (State.waitWake_keeps s c).2.2
@[simp] theorem State.wakeOver_ctrl (s : State) : (State.wakeOver s).ctrl = s.ctrl := by
  unfold State.wakeOver
  (repeat' (first | rfl | intro _ _ | rw [State.foldl_ctrl] | split)) <;> simp [State.time_ctrl, State.ctl_ctrl, State.power_ctrl, State.boot_ctrl, State.prov_ctrl, State.pending_ctrl, ctrl_ite]
/-- What an outcome of a request for a slot leaves of the control state, if it is a next state. -/
def Obtain.keeps (o : Obtain) (s : State) : Prop := match o with
  | .ok t => t.ctrl.time = s.ctrl.time ∧ t.ctrl.ctl = s.ctrl.ctl ∧ t.ctrl.rest = s.ctrl.rest
  | _ => True
theorem Obtain.keeps_map (s : State) (f : State → State) (hf : ∀ u, (f u).ctrl.time = u.ctrl.time ∧ (f u).ctrl.ctl = u.ctrl.ctl ∧
    (f u).ctrl.rest = u.ctrl.rest) (o : Obtain) :
    o.keeps s → Obtain.keeps (match o with
      | .ok u => .ok (f u)
      | o => o) s := by
  intro h
  cases o <;> first | trivial | exact ⟨(hf _).1.trans h.1, (hf _).2.1.trans h.2.1, (hf _).2.2.trans h.2.2⟩
theorem State.allocSlot_keeps (s : State) (p k : Nat) (kind : SlotKind) (width e sets : Nat) (old : Option Slot) (bn : Nat) :
    (s.allocSlot p k kind width e sets old bn).keeps s := by
  unfold State.allocSlot
  extract_lets u q per n kept is
  clear_value u q per n kept is
  split
  · trivial
  · split
    · trivial
    · simp [Obtain.keeps]
theorem State.reallocSlot_keeps (s : State) (c p k : Nat) (sl : Slot) (kind : SlotKind) (width e sets : Nat) (keep : Bool)
    (bn : Nat) (f : State → State) (hf : ∀ u, (f u).ctrl.time = u.ctrl.time ∧ (f u).ctrl.ctl = u.ctrl.ctl ∧
    (f u).ctrl.rest = u.ctrl.rest) : (s.reallocSlot c p k sl kind width e sets keep bn f).keeps s := by
  unfold State.reallocSlot
  extract_lets r
  have hr : r.ctrl = s.ctrl := by unfold r; split <;> simp
  clear_value r
  have ha := State.allocSlot_keeps r p k kind width e sets (if keep then some sl else none) bn
  split
  · rename_i t h
    rw [h] at ha
    simpa [Obtain.keeps, hf, hr] using ha
  · simp [Obtain.keeps]
  · simp only [Obtain.keeps]; split <;> simp [hr]
theorem State.obtainAdding_keeps (s : State) (c p : Nat) (h : Heat) : (s.obtainAdding c p h).keeps s := by
  have ht (u : State) : (u.takeSet c p h).ctrl.time = u.ctrl.time ∧ (u.takeSet c p h).ctrl.ctl = u.ctrl.ctl ∧
    (u.takeSet c p h).ctrl.rest = u.ctrl.rest := by simp
  unfold State.obtainAdding
  extract_lets d k kind width e sets finish
  have f (o : Obtain) (k : o.keeps s) : (finish o).keeps s := Obtain.keeps_map s (State.takeSet · c p h) ht o k
  clear_value finish
  (repeat' split) <;> first
    | trivial
    | exact f _ (State.allocSlot_keeps ..)
    | exact State.reallocSlot_keeps (hf := ht) ..
    | (apply f; simp [Obtain.keeps])
theorem State.obtainPreload_keeps (s : State) (c p : Nat) (h : Heat) : (s.obtainPreload c p h).keeps s := by
  unfold State.obtainPreload
  extract_lets d w k kind sets isBias bn hold finish
  have hh (u : State) : (hold u).ctrl = u.ctrl := State.modHeat_ctrl ..
  have ht (u : State) : (hold u).ctrl.time = u.ctrl.time ∧ (hold u).ctrl.ctl = u.ctrl.ctl ∧ (hold u).ctrl.rest = u.ctrl.rest := by
    simp [hh]
  have f (o : Obtain) (k : o.keeps s) : (finish o).keeps s := Obtain.keeps_map s hold ht o k
  clear_value hold finish
  clear_value sets kind bn
  split
  · exact f _ (State.allocSlot_keeps ..)
  · split
    all_goals
      extract_lets sb
      clear_value sb
      (repeat' split) <;> first
        | trivial
        | exact State.reallocSlot_keeps (hf := ht) ..
        | (simp [Obtain.keeps, hh]; done)
        | (simp [Obtain.keeps, hh]; exact ⟨rfl, rfl, rfl⟩)
theorem State.obtainDrain_keeps (s : State) (c p : Nat) (h : Heat) : (s.obtainDrain c p h).keeps s := by
  unfold State.obtainDrain
  dsimp only
  (repeat' split) <;> first | trivial | simp [Obtain.keeps]
theorem State.obtain_keeps (s : State) (c : Nat) : (s.obtain c).keeps s := by
  unfold State.obtain
  (repeat' split) <;> first | trivial | exact State.obtainPreload_keeps .. | exact State.obtainDrain_keeps .. | exact State.obtainAdding_keeps ..
theorem State.slotObtain_keeps (s : State) (c : Nat) : (State.slotObtain s c).ctrl.time = s.ctrl.time ∧
    (State.slotObtain s c).ctrl.ctl = s.ctrl.ctl ∧ (State.slotObtain s c).ctrl.rest = s.ctrl.rest := by
  have k := State.obtain_keeps s.wakeOver c
  unfold State.slotObtain
  split
  · simp
  · split
    · simp
    · split
      · simp
      · dsimp only
        split
        · simp
        · simp
        · rename_i h
          rw [h] at k
          simpa [Obtain.keeps] using k
@[simp] theorem State.slotObtain_time (s : State) (c : Nat) : (State.slotObtain s c).ctrl.time = s.ctrl.time := (State.slotObtain_keeps s c).1
@[simp] theorem State.slotObtain_ctl (s : State) (c : Nat) : (State.slotObtain s c).ctrl.ctl = s.ctrl.ctl := (State.slotObtain_keeps s c).2.1
@[simp] theorem State.slotObtain_rest (s : State) (c : Nat) : (State.slotObtain s c).ctrl.rest = s.ctrl.rest := (State.slotObtain_keeps s c).2.2
@[simp] theorem State.startQueued_time (s : State) (p : Nat) : (State.startQueued s p).ctrl.time = s.ctrl.time := by
  unfold State.startQueued
  dsimp only
  (repeat' split) <;> simp [State.time_ctrl, State.ctl_ctrl, State.power_ctrl, State.boot_ctrl, State.prov_ctrl, State.pending_ctrl, ctrl_ite]
@[simp] theorem State.startQueued_ctl (s : State) (p : Nat) : (State.startQueued s p).ctrl.ctl = s.ctrl.ctl := by
  unfold State.startQueued
  dsimp only
  (repeat' split) <;> simp [State.time_ctrl, State.ctl_ctrl, State.power_ctrl, State.boot_ctrl, State.prov_ctrl, State.pending_ctrl, ctrl_ite]
@[simp] theorem State.startQueued_rest (s : State) (p : Nat) : (State.startQueued s p).ctrl.rest = s.ctrl.rest := by
  unfold State.startQueued
  dsimp only
  (repeat' split) <;> simp [State.time_ctrl, State.ctl_ctrl, State.power_ctrl, State.boot_ctrl, State.prov_ctrl, State.pending_ctrl, ctrl_ite]
@[simp] theorem State.finish_time (s : State) (c : Nat) : (State.finish s c).ctrl.time = s.ctrl.time := by
  unfold State.finish
  (repeat' split) <;> simp
@[simp] theorem State.finish_ctl (s : State) (c : Nat) : (State.finish s c).ctrl.ctl = s.ctrl.ctl := by
  unfold State.finish
  (repeat' split) <;> simp
@[simp] theorem State.finish_rest (s : State) (c : Nat) : (State.finish s c).ctrl.rest = s.ctrl.rest := by
  unfold State.finish
  (repeat' split) <;> simp
@[simp] theorem State.sendEvent_ctrl (s : State) : (State.sendEvent s).ctrl = s.ctrl := by
  unfold State.sendEvent
  (repeat' split) <;> simp [State.time_ctrl, State.ctl_ctrl, State.power_ctrl, State.boot_ctrl, State.prov_ctrl, State.pending_ctrl]
@[simp] theorem State.goOnAt_time (s : State) (o : ReqFor) : (State.goOnAt s o).ctrl.time = s.ctrl.time := by
  unfold State.goOnAt
  dsimp only
  (repeat' split) <;> simp
@[simp] theorem State.goOnAt_ctl (s : State) (o : ReqFor) : (State.goOnAt s o).ctrl.ctl = s.ctrl.ctl := by
  unfold State.goOnAt
  dsimp only
  (repeat' split) <;> simp
@[simp] theorem State.goOnAt_rest (s : State) (o : ReqFor) : (State.goOnAt s o).ctrl.rest = s.ctrl.rest := by
  unfold State.goOnAt
  dsimp only
  (repeat' split) <;> simp
@[simp] theorem State.serve_time (s : State) (t : Nat) : (State.serve s t).ctrl.time = s.ctrl.time := by simp [State.serve]
@[simp] theorem State.serve_ctl (s : State) (t : Nat) : (State.serve s t).ctrl.ctl = s.ctrl.ctl := by simp [State.serve]
@[simp] theorem State.serve_rest (s : State) (t : Nat) : (State.serve s t).ctrl.rest = s.ctrl.rest := by simp [State.serve]
@[simp] theorem State.servePick_time (s : State) : (State.servePick s).ctrl.time = s.ctrl.time := State.serve_time ..
@[simp] theorem State.servePick_ctl (s : State) : (State.servePick s).ctrl.ctl = s.ctrl.ctl := State.serve_ctl ..
@[simp] theorem State.servePick_rest (s : State) : (State.servePick s).ctrl.rest = s.ctrl.rest := State.serve_rest ..
@[simp] theorem State.serveXl_time (s : State) : (State.serveXl s).ctrl.time = s.ctrl.time := State.serve_time ..
@[simp] theorem State.serveXl_ctl (s : State) : (State.serveXl s).ctrl.ctl = s.ctrl.ctl := State.serve_ctl ..
@[simp] theorem State.serveXl_rest (s : State) : (State.serveXl s).ctrl.rest = s.ctrl.rest := State.serve_rest ..
@[simp] theorem State.serveTags_time (s : State) : (State.serveTags s).ctrl.time = s.ctrl.time := State.serve_time ..
@[simp] theorem State.serveTags_ctl (s : State) : (State.serveTags s).ctrl.ctl = s.ctrl.ctl := State.serve_ctl ..
@[simp] theorem State.serveTags_rest (s : State) : (State.serveTags s).ctrl.rest = s.ctrl.rest := State.serve_rest ..
@[simp] theorem State.pickAnswered_time (s : State) (err : Bool) : (State.pickAnswered s err).ctrl.time = s.ctrl.time := by
  unfold State.pickAnswered
  (repeat' split) <;> try simp [State.time_ctrl, State.ctl_ctrl, State.power_ctrl, State.boot_ctrl, State.prov_ctrl, State.pending_ctrl] <;> split <;> simp
@[simp] theorem State.pickAnswered_ctl (s : State) (err : Bool) : (State.pickAnswered s err).ctrl.ctl = s.ctrl.ctl := by
  unfold State.pickAnswered
  (repeat' split) <;> try simp [State.time_ctrl, State.ctl_ctrl, State.power_ctrl, State.boot_ctrl, State.prov_ctrl, State.pending_ctrl] <;> split <;> simp
@[simp] theorem State.pickAnswered_rest (s : State) (err : Bool) : (State.pickAnswered s err).ctrl.rest = s.ctrl.rest := by
  unfold State.pickAnswered
  (repeat' split) <;> try simp [State.time_ctrl, State.ctl_ctrl, State.power_ctrl, State.boot_ctrl, State.prov_ctrl, State.pending_ctrl] <;> split <;> simp
@[simp] theorem State.perturbReached_ctrl (s : State) (b : Billet) : (State.perturbReached s b).ctrl = s.ctrl := by
  unfold State.perturbReached
  split <;> simp
@[simp] theorem State.dropSrc_ctrl (s : State) (c : Nat) : (State.dropSrc s c).ctrl = s.ctrl := rfl
@[simp] theorem State.goBack_ctrl (s : State) (c f n : Nat) : (State.goBack s c f n).ctrl = s.ctrl := by
  unfold State.goBack
  dsimp only
  (repeat' split) <;> simp [State.time_ctrl, State.ctl_ctrl, State.power_ctrl, State.boot_ctrl, State.prov_ctrl, State.pending_ctrl, ctrl_ite]
@[simp] theorem State.cameBy_ctrl (s : State) (p : PortId) (b : Billet) : (State.cameBy s p b).ctrl = s.ctrl := by
  unfold State.cameBy
  (repeat' split) <;> simp
@[simp] theorem State.receipt_ctrl (s : State) (p : PortId) (b : Billet) (kind : BitVec 4) (f : State → State) (hf : ∀ t, (f t).ctrl = t.ctrl) : (State.receipt s p b kind f).ctrl = s.ctrl := by
  simp only [State.receipt]
  (repeat' split) <;> simp_all [State.time_ctrl, State.ctl_ctrl, State.power_ctrl, State.boot_ctrl, State.prov_ctrl, State.pending_ctrl, ctrl_ite]
@[simp] theorem State.meets_ctrl (s : State) (c : Nat) (x2 : Nat) (d : Payload) : (State.meets s c x2 d).ctrl = s.ctrl := rfl
@[simp] theorem State.takeReady_time (s : State) (b : Billet) : (State.takeReady s b).ctrl.time = s.ctrl.time := by
  unfold State.takeReady
  (repeat' split) <;> simp
@[simp] theorem State.takeReady_ctl (s : State) (b : Billet) : (State.takeReady s b).ctrl.ctl = s.ctrl.ctl := by
  unfold State.takeReady
  (repeat' split) <;> simp
@[simp] theorem State.takeReady_rest (s : State) (b : Billet) : (State.takeReady s b).ctrl.rest = s.ctrl.rest := by
  unfold State.takeReady
  (repeat' split) <;> simp
@[simp] theorem State.takeReply_time (s : State) (b : Billet) : (State.takeReply s b).ctrl.time = s.ctrl.time := by
  unfold State.takeReply
  dsimp only
  (repeat' split) <;> simp [State.time_ctrl, State.ctl_ctrl, State.power_ctrl, State.boot_ctrl, State.prov_ctrl, State.pending_ctrl, ctrl_ite]
@[simp] theorem State.takeReply_ctl (s : State) (b : Billet) : (State.takeReply s b).ctrl.ctl = s.ctrl.ctl := by
  unfold State.takeReply
  dsimp only
  (repeat' split) <;> simp [State.time_ctrl, State.ctl_ctrl, State.power_ctrl, State.boot_ctrl, State.prov_ctrl, State.pending_ctrl, ctrl_ite]
@[simp] theorem State.takeReply_rest (s : State) (b : Billet) : (State.takeReply s b).ctrl.rest = s.ctrl.rest := by
  unfold State.takeReply
  dsimp only
  (repeat' split) <;> simp [State.time_ctrl, State.ctl_ctrl, State.power_ctrl, State.boot_ctrl, State.prov_ctrl, State.pending_ctrl, ctrl_ite]
theorem State.takeItem_keeps (s : State) (b : Billet) (mask waits : Bool) : ∀ r, State.takeItem s b mask waits = some r →
    r.ctrl.time = s.ctrl.time ∧ r.ctrl.ctl = s.ctrl.ctl ∧ r.ctrl.rest = s.ctrl.rest := by
  intro r h
  unfold State.takeItem at h
  split at h
  · cases h; simp
  · split at h
    · cases h; simp
    · split at h
      · cases h
      · split at h
        · cases h; simp
        · extract_lets now it early s1 at h
          have h1 : s1.ctrl = s.ctrl := by simp [s1]
          clear_value s1 early
          split at h
          · rename_i heq
            split at heq
            · cases heq
            · have a := State.applyItem_time _ _ _ _ _ _ heq
              have b := State.applyItem_ctl _ _ _ _ _ _ heq
              have d := State.applyItem_rest _ _ _ _ _ _ heq
              cases h
              simp [a, b, d, h1]
          · split at h
            · cases h
            · (repeat' split at h) <;>
                (rw [Option.some.injEq] at h; rw [← h]; first | (simp [h1]; done) | (rw [State.flowReply_ctrl]; exact ⟨congrArg _ h1, congrArg _ h1, congrArg _ h1⟩))
theorem State.takeItem_time (s : State) (b : Billet) (mask : Bool) (waits : Bool) : ∀ r, State.takeItem s b mask waits = some r → r.ctrl.time = s.ctrl.time := fun r h => (State.takeItem_keeps s b mask waits r h).1
theorem State.takeItem_ctl (s : State) (b : Billet) (mask : Bool) (waits : Bool) : ∀ r, State.takeItem s b mask waits = some r → r.ctrl.ctl = s.ctrl.ctl := fun r h => (State.takeItem_keeps s b mask waits r h).2.1
theorem State.takeItem_rest (s : State) (b : Billet) (mask : Bool) (waits : Bool) : ∀ r, State.takeItem s b mask waits = some r → r.ctrl.rest = s.ctrl.rest := fun r h => (State.takeItem_keeps s b mask waits r h).2.2
theorem State.receipt_keeps {β : Type} (g : Ctrl → β) (s : State) (p : PortId) (b : Billet) (kind : BitVec 4) (f : State → State)
    (hf : ∀ t, g (f t).ctrl = g t.ctrl) : g (State.receipt s p b kind f).ctrl = g s.ctrl := by
  unfold State.receipt
  dsimp only
  split
  · rfl
  · split
    · simp
    · rw [hf]; simp
theorem State.item_keeps {β : Type} (g : Ctrl → β) (hg : ∀ (u : State) b mask w r, State.takeItem u b mask w = some r → g r.ctrl = g u.ctrl)
    (s : State) (p : PortId) (b : Billet) (mask : Bool) : g (State.item s p b mask).ctrl = g s.ctrl := by
  unfold State.item State.receipt
  dsimp only
  generalize (if mask = true then kMask else kData) = kk
  split
  · rfl
  · split
    · simp
    · have hc : ((s.undeliver p b).cameBy p b).ctrl = s.ctrl := by simp
      generalize (s.undeliver p b).cameBy p b = u at hc ⊢
      have k (w : Bool) : g ((u.takeItem b mask w).getD s).ctrl = g s.ctrl := by
        cases ht : u.takeItem b mask w with
        | none => rfl
        | some r => simp only [Option.getD_some]; rw [hg u b mask w r ht, hc]
      exact k _
@[simp] theorem State.item_time (s : State) (p : PortId) (b : Billet) (mask : Bool) : (State.item s p b mask).ctrl.time = s.ctrl.time := State.item_keeps (·.time) (fun u b m w r h => State.takeItem_time u b m w r h) s p b mask
@[simp] theorem State.item_ctl (s : State) (p : PortId) (b : Billet) (mask : Bool) : (State.item s p b mask).ctrl.ctl = s.ctrl.ctl := State.item_keeps (·.ctl) (fun u b m w r h => State.takeItem_ctl u b m w r h) s p b mask
@[simp] theorem State.item_rest (s : State) (p : PortId) (b : Billet) (mask : Bool) : (State.item s p b mask).ctrl.rest = s.ctrl.rest := State.item_keeps (·.rest) (fun u b m w r h => State.takeItem_rest u b m w r h) s p b mask
@[simp] theorem State.takeCommit_time (s : State) (b : Billet) : (State.takeCommit s b).ctrl.time = s.ctrl.time := by
  unfold State.takeCommit
  dsimp only
  (repeat' split) <;> simp [State.time_ctrl, State.ctl_ctrl, State.power_ctrl, State.boot_ctrl, State.prov_ctrl, State.pending_ctrl, ctrl_ite]
@[simp] theorem State.takeCommit_ctl (s : State) (b : Billet) : (State.takeCommit s b).ctrl.ctl = s.ctrl.ctl := by
  unfold State.takeCommit
  dsimp only
  (repeat' split) <;> simp [State.time_ctrl, State.ctl_ctrl, State.power_ctrl, State.boot_ctrl, State.prov_ctrl, State.pending_ctrl, ctrl_ite]
@[simp] theorem State.takeCommit_rest (s : State) (b : Billet) : (State.takeCommit s b).ctrl.rest = s.ctrl.rest := by
  unfold State.takeCommit
  dsimp only
  (repeat' split) <;> simp [State.time_ctrl, State.ctl_ctrl, State.power_ctrl, State.boot_ctrl, State.prov_ctrl, State.pending_ctrl, ctrl_ite]
@[simp] theorem State.takeHold_time (s : State) (b : Billet) : (State.takeHold s b).ctrl.time = s.ctrl.time := by
  unfold State.takeHold
  (repeat' split) <;> simp
@[simp] theorem State.takeHold_ctl (s : State) (b : Billet) : (State.takeHold s b).ctrl.ctl = s.ctrl.ctl := by
  unfold State.takeHold
  (repeat' split) <;> simp
@[simp] theorem State.takeHold_rest (s : State) (b : Billet) : (State.takeHold s b).ctrl.rest = s.ctrl.rest := by
  unfold State.takeHold
  (repeat' split) <;> simp
@[simp] theorem State.takeResume_time (s : State) (b : Billet) : (State.takeResume s b).ctrl.time = s.ctrl.time := by
  unfold State.takeResume
  dsimp only
  (repeat' split) <;> simp [State.time_ctrl, State.ctl_ctrl, State.power_ctrl, State.boot_ctrl, State.prov_ctrl, State.pending_ctrl, ctrl_ite]
@[simp] theorem State.takeResume_ctl (s : State) (b : Billet) : (State.takeResume s b).ctrl.ctl = s.ctrl.ctl := by
  unfold State.takeResume
  dsimp only
  (repeat' split) <;> simp [State.time_ctrl, State.ctl_ctrl, State.power_ctrl, State.boot_ctrl, State.prov_ctrl, State.pending_ctrl, ctrl_ite]
@[simp] theorem State.takeResume_rest (s : State) (b : Billet) : (State.takeResume s b).ctrl.rest = s.ctrl.rest := by
  unfold State.takeResume
  dsimp only
  (repeat' split) <;> simp [State.time_ctrl, State.ctl_ctrl, State.power_ctrl, State.boot_ctrl, State.prov_ctrl, State.pending_ctrl, ctrl_ite]
@[simp] theorem State.takeBeacon_time (s : State) (b : Billet) : (State.takeBeacon s b).ctrl.time = s.ctrl.time := by
  unfold State.takeBeacon
  dsimp only
  (repeat' split) <;> simp [State.time_ctrl, State.ctl_ctrl, State.power_ctrl, State.boot_ctrl, State.prov_ctrl, State.pending_ctrl, ctrl_ite]
@[simp] theorem State.takeBeacon_ctl (s : State) (b : Billet) : (State.takeBeacon s b).ctrl.ctl = s.ctrl.ctl := by
  unfold State.takeBeacon
  dsimp only
  (repeat' split) <;> simp [State.time_ctrl, State.ctl_ctrl, State.power_ctrl, State.boot_ctrl, State.prov_ctrl, State.pending_ctrl, ctrl_ite]
@[simp] theorem State.takeBeacon_rest (s : State) (b : Billet) : (State.takeBeacon s b).ctrl.rest = s.ctrl.rest := by
  unfold State.takeBeacon
  dsimp only
  (repeat' split) <;> simp [State.time_ctrl, State.ctl_ctrl, State.power_ctrl, State.boot_ctrl, State.prov_ctrl, State.pending_ctrl, ctrl_ite]
@[simp] theorem State.takeArrive_time (s : State) (b : Billet) : (State.takeArrive s b).ctrl.time = s.ctrl.time := by
  unfold State.takeArrive
  (repeat' split) <;> simp
@[simp] theorem State.takeArrive_ctl (s : State) (b : Billet) : (State.takeArrive s b).ctrl.ctl = s.ctrl.ctl := by
  unfold State.takeArrive
  (repeat' split) <;> simp
@[simp] theorem State.takeArrive_rest (s : State) (b : Billet) : (State.takeArrive s b).ctrl.rest = s.ctrl.rest := by
  unfold State.takeArrive
  (repeat' split) <;> simp
@[simp] theorem State.takeRelease_time (s : State) (b : Billet) : (State.takeRelease s b).ctrl.time = s.ctrl.time := by
  unfold State.takeRelease
  (repeat' split) <;> simp
@[simp] theorem State.takeRelease_ctl (s : State) (b : Billet) : (State.takeRelease s b).ctrl.ctl = s.ctrl.ctl := by
  unfold State.takeRelease
  (repeat' split) <;> simp
@[simp] theorem State.takeRelease_rest (s : State) (b : Billet) : (State.takeRelease s b).ctrl.rest = s.ctrl.rest := by
  unfold State.takeRelease
  (repeat' split) <;> simp
@[simp] theorem State.takeCounts_time (s : State) (b : Billet) : (State.takeCounts s b).ctrl.time = s.ctrl.time := by
  unfold State.takeCounts
  (repeat' split) <;> simp
@[simp] theorem State.takeCounts_ctl (s : State) (b : Billet) : (State.takeCounts s b).ctrl.ctl = s.ctrl.ctl := by
  unfold State.takeCounts
  (repeat' split) <;> simp
@[simp] theorem State.takeCounts_rest (s : State) (b : Billet) : (State.takeCounts s b).ctrl.rest = s.ctrl.rest := by
  unfold State.takeCounts
  (repeat' split) <;> simp
@[simp] theorem State.barRearm_ctrl (s : State) (b : Nat) : (State.barRearm s b).ctrl = s.ctrl := by
  unfold State.barRearm
  (repeat' split) <;> simp
@[simp] theorem State.hostArrive_ctrl (s : State) (b : Nat) : (State.hostArrive s b).ctrl = s.ctrl := by simp [State.hostArrive]
@[simp] theorem State.hostArm_ctrl (s : State) (b : Nat) (n : BitVec 16) : (State.hostArm s b n).ctrl = s.ctrl := by
  unfold State.hostArm
  dsimp only
  (repeat' split) <;> simp [State.time_ctrl, State.ctl_ctrl, State.power_ctrl, State.boot_ctrl, State.prov_ctrl, State.pending_ctrl, ctrl_ite]
@[simp] theorem State.barBad_ctrl (s : State) : (State.barBad s).ctrl = s.ctrl := rfl
@[simp] theorem State.barWrite0_ctrl (s : State) (rid : BitVec 16) (b : Nat) (v : W32) : (State.barWrite0 s rid b v).ctrl = s.ctrl := by
  unfold State.barWrite0
  (repeat' split) <;> simp
@[simp] theorem State.barWrite4_ctrl (s : State) (rid : BitVec 16) (b : Nat) (v : W32) : (State.barWrite4 s rid b v).ctrl = s.ctrl := by
  unfold State.barWrite4
  (repeat' split) <;> simp
@[simp] theorem State.barrierWakes_ctl (s : State) (c : Nat) : (State.barrierWakes s c).ctrl.ctl = s.ctrl.ctl := by
  unfold State.barrierWakes
  (repeat' split) <;> simp
@[simp] theorem State.barrierWakes_rest (s : State) (c : Nat) : (State.barrierWakes s c).ctrl.rest = s.ctrl.rest := by
  unfold State.barrierWakes
  (repeat' split) <;> simp
@[simp] theorem State.instepReleases_ctl (s : State) (c : Nat) : (State.instepReleases s c).ctrl.ctl = s.ctrl.ctl := by
  unfold State.instepReleases
  (repeat' split) <;> simp
@[simp] theorem State.instepReleases_rest (s : State) (c : Nat) : (State.instepReleases s c).ctrl.rest = s.ctrl.rest := by
  unfold State.instepReleases
  (repeat' split) <;> simp
@[simp] theorem State.toEdge_ctl (s : State) : (State.toEdge s).ctrl.ctl = s.ctrl.ctl := by
  unfold State.toEdge
  (repeat' split) <;> simp
@[simp] theorem State.toEdge_power (s : State) : (State.toEdge s).ctrl.power = s.ctrl.power := by
  unfold State.toEdge
  (repeat' split) <;> simp
@[simp] theorem State.toEdge_rest (s : State) : (State.toEdge s).ctrl.rest = s.ctrl.rest := by
  unfold State.toEdge
  (repeat' split) <;> simp
@[simp] theorem State.pulse_ctl (s : State) : (State.pulse s).ctrl.ctl = s.ctrl.ctl := by
  unfold State.pulse
  dsimp only
  (repeat' split) <;> simp [State.time_ctrl, State.ctl_ctrl, State.power_ctrl, State.boot_ctrl, State.prov_ctrl, State.pending_ctrl, ctrl_ite]
@[simp] theorem State.pulse_power (s : State) : (State.pulse s).ctrl.power = s.ctrl.power := by
  unfold State.pulse
  dsimp only
  (repeat' split) <;> simp [State.time_ctrl, State.ctl_ctrl, State.power_ctrl, State.boot_ctrl, State.prov_ctrl, State.pending_ctrl, ctrl_ite]
@[simp] theorem State.pulse_rest (s : State) : (State.pulse s).ctrl.rest = s.ctrl.rest := by
  unfold State.pulse
  dsimp only
  (repeat' split) <;> simp [State.time_ctrl, State.ctl_ctrl, State.power_ctrl, State.boot_ctrl, State.prov_ctrl, State.pending_ctrl, ctrl_ite]
@[simp] theorem State.sendTimed_ctl (s : State) (b : Billet) : (State.sendTimed s b).ctrl.ctl = s.ctrl.ctl := by simp [State.sendTimed, State.time_ctrl, State.ctl_ctrl, State.power_ctrl, State.boot_ctrl, State.prov_ctrl, State.pending_ctrl]
@[simp] theorem State.sendTimed_power (s : State) (b : Billet) : (State.sendTimed s b).ctrl.power = s.ctrl.power := by simp [State.sendTimed, State.time_ctrl, State.ctl_ctrl, State.power_ctrl, State.boot_ctrl, State.prov_ctrl, State.pending_ctrl]
@[simp] theorem State.sendTimed_rest (s : State) (b : Billet) : (State.sendTimed s b).ctrl.rest = s.ctrl.rest := by simp [State.sendTimed, State.time_ctrl, State.ctl_ctrl, State.power_ctrl, State.boot_ctrl, State.prov_ctrl, State.pending_ctrl]
theorem State.receivedAt_keeps (s : State) (b : Billet) : (State.receivedAt s b).2.ctrl.ctl = s.ctrl.ctl ∧
    (State.receivedAt s b).2.ctrl.power = s.ctrl.power ∧ (State.receivedAt s b).2.ctrl.rest = s.ctrl.rest := by
  unfold State.receivedAt
  split <;> exact ⟨rfl, rfl, rfl⟩
theorem State.timeReqIn_keeps (s : State) (b : Billet) : (State.timeReqIn s b).ctrl.ctl = s.ctrl.ctl ∧
    (State.timeReqIn s b).ctrl.power = s.ctrl.power ∧ (State.timeReqIn s b).ctrl.rest = s.ctrl.rest := by
  unfold State.timeReqIn
  simp [State.receivedAt_keeps]
theorem State.timeRespIn_keeps (s : State) (b : Billet) : (State.timeRespIn s b).ctrl.ctl = s.ctrl.ctl ∧
    (State.timeRespIn s b).ctrl.power = s.ctrl.power ∧ (State.timeRespIn s b).ctrl.rest = s.ctrl.rest := by
  unfold State.timeRespIn
  extract_lets w r t4 s1
  have h : s1.ctrl.ctl = s.ctrl.ctl ∧ s1.ctrl.power = s.ctrl.power ∧ s1.ctrl.rest = s.ctrl.rest := State.receivedAt_keeps s b
  clear_value s1
  split <;> exact h
@[simp] theorem State.timeReqIn_ctl (s : State) (b : Billet) : (State.timeReqIn s b).ctrl.ctl = s.ctrl.ctl := (State.timeReqIn_keeps s b).1
@[simp] theorem State.timeReqIn_power (s : State) (b : Billet) : (State.timeReqIn s b).ctrl.power = s.ctrl.power := (State.timeReqIn_keeps s b).2.1
@[simp] theorem State.timeReqIn_rest (s : State) (b : Billet) : (State.timeReqIn s b).ctrl.rest = s.ctrl.rest := (State.timeReqIn_keeps s b).2.2
@[simp] theorem State.timeRespIn_ctl (s : State) (b : Billet) : (State.timeRespIn s b).ctrl.ctl = s.ctrl.ctl := (State.timeRespIn_keeps s b).1
@[simp] theorem State.timeRespIn_power (s : State) (b : Billet) : (State.timeRespIn s b).ctrl.power = s.ctrl.power := (State.timeRespIn_keeps s b).2.1
@[simp] theorem State.timeRespIn_rest (s : State) (b : Billet) : (State.timeRespIn s b).ctrl.rest = s.ctrl.rest := (State.timeRespIn_keeps s b).2.2
@[simp] theorem State.timeQueryIn_ctrl (s : State) (b : Billet) : (State.timeQueryIn s b).ctrl = s.ctrl := by
  unfold State.timeQueryIn
  (repeat' split) <;> simp
@[simp] theorem State.timeStateIn_ctl (s : State) (b : Billet) : (State.timeStateIn s b).ctrl.ctl = s.ctrl.ctl := by
  unfold State.timeStateIn
  (repeat' split) <;> simp [State.time_ctrl, State.ctl_ctrl, State.power_ctrl, State.boot_ctrl, State.prov_ctrl, State.pending_ctrl]
@[simp] theorem State.timeStateIn_power (s : State) (b : Billet) : (State.timeStateIn s b).ctrl.power = s.ctrl.power := by
  unfold State.timeStateIn
  (repeat' split) <;> simp [State.time_ctrl, State.ctl_ctrl, State.power_ctrl, State.boot_ctrl, State.prov_ctrl, State.pending_ctrl]
@[simp] theorem State.timeStateIn_rest (s : State) (b : Billet) : (State.timeStateIn s b).ctrl.rest = s.ctrl.rest := by
  unfold State.timeStateIn
  (repeat' split) <;> simp [State.time_ctrl, State.ctl_ctrl, State.power_ctrl, State.boot_ctrl, State.prov_ctrl, State.pending_ctrl]
@[simp] theorem State.exchange_ctl (s : State) : (State.exchange s).ctrl.ctl = s.ctrl.ctl := by
  unfold State.exchange
  (repeat' split) <;> simp [State.time_ctrl, State.ctl_ctrl, State.power_ctrl, State.boot_ctrl, State.prov_ctrl, State.pending_ctrl]
@[simp] theorem State.exchange_power (s : State) : (State.exchange s).ctrl.power = s.ctrl.power := by
  unfold State.exchange
  (repeat' split) <;> simp [State.time_ctrl, State.ctl_ctrl, State.power_ctrl, State.boot_ctrl, State.prov_ctrl, State.pending_ctrl]
@[simp] theorem State.exchange_rest (s : State) : (State.exchange s).ctrl.rest = s.ctrl.rest := by
  unfold State.exchange
  (repeat' split) <;> simp [State.time_ctrl, State.ctl_ctrl, State.power_ctrl, State.boot_ctrl, State.prov_ctrl, State.pending_ctrl]
@[simp] theorem State.exchangeLost_ctl (s : State) : (State.exchangeLost s).ctrl.ctl = s.ctrl.ctl := by
  unfold State.exchangeLost
  (repeat' split) <;> simp [State.time_ctrl, State.ctl_ctrl, State.power_ctrl, State.boot_ctrl, State.prov_ctrl, State.pending_ctrl]
@[simp] theorem State.exchangeLost_power (s : State) : (State.exchangeLost s).ctrl.power = s.ctrl.power := by
  unfold State.exchangeLost
  (repeat' split) <;> simp [State.time_ctrl, State.ctl_ctrl, State.power_ctrl, State.boot_ctrl, State.prov_ctrl, State.pending_ctrl]
@[simp] theorem State.exchangeLost_rest (s : State) : (State.exchangeLost s).ctrl.rest = s.ctrl.rest := by
  unfold State.exchangeLost
  (repeat' split) <;> simp [State.time_ctrl, State.ctl_ctrl, State.power_ctrl, State.boot_ctrl, State.prov_ctrl, State.pending_ctrl]
@[simp] theorem State.memberAsks_ctl (s : State) : (State.memberAsks s).ctrl.ctl = s.ctrl.ctl := by
  unfold State.memberAsks
  (repeat' split) <;> simp [State.time_ctrl, State.ctl_ctrl, State.power_ctrl, State.boot_ctrl, State.prov_ctrl, State.pending_ctrl]
@[simp] theorem State.memberAsks_power (s : State) : (State.memberAsks s).ctrl.power = s.ctrl.power := by
  unfold State.memberAsks
  (repeat' split) <;> simp [State.time_ctrl, State.ctl_ctrl, State.power_ctrl, State.boot_ctrl, State.prov_ctrl, State.pending_ctrl]
@[simp] theorem State.memberAsks_rest (s : State) : (State.memberAsks s).ctrl.rest = s.ctrl.rest := by
  unfold State.memberAsks
  (repeat' split) <;> simp [State.time_ctrl, State.ctl_ctrl, State.power_ctrl, State.boot_ctrl, State.prov_ctrl, State.pending_ctrl]
@[simp] theorem State.timeIn_ctrl (s : State) (p : PortId) (b : Billet) (sub : Nat) (f : State → State) (hf : ∀ t, (f t).ctrl = t.ctrl) : (State.timeIn s p b sub f).ctrl = s.ctrl := by
  unfold State.timeIn
  (repeat' split) <;> simp_all
@[simp] theorem State.grantNext_ctrl (s : State) (c : Nat) : (State.grantNext s c).ctrl = s.ctrl := by
  unfold State.grantNext
  dsimp only
  (repeat' split) <;> simp [State.time_ctrl, State.ctl_ctrl, State.power_ctrl, State.boot_ctrl, State.prov_ctrl, State.pending_ctrl, ctrl_ite]
@[simp] theorem State.beatIn_time (s : State) (port : BitVec 5) (tag : BitVec 16) (data : BitVec 1024) (mask : W32) (last : Bool) : (State.beatIn s port tag data mask last).ctrl.time = s.ctrl.time := by
  unfold State.beatIn
  dsimp only
  (repeat' split) <;> simp [State.time_ctrl, State.ctl_ctrl, State.power_ctrl, State.boot_ctrl, State.prov_ctrl, State.pending_ctrl, ctrl_ite]
@[simp] theorem State.beatIn_ctl (s : State) (port : BitVec 5) (tag : BitVec 16) (data : BitVec 1024) (mask : W32) (last : Bool) : (State.beatIn s port tag data mask last).ctrl.ctl = s.ctrl.ctl := by
  unfold State.beatIn
  dsimp only
  (repeat' split) <;> simp [State.time_ctrl, State.ctl_ctrl, State.power_ctrl, State.boot_ctrl, State.prov_ctrl, State.pending_ctrl, ctrl_ite]
@[simp] theorem State.beatIn_rest (s : State) (port : BitVec 5) (tag : BitVec 16) (data : BitVec 1024) (mask : W32) (last : Bool) : (State.beatIn s port tag data mask last).ctrl.rest = s.ctrl.rest := by
  unfold State.beatIn
  dsimp only
  (repeat' split) <;> simp [State.time_ctrl, State.ctl_ctrl, State.power_ctrl, State.boot_ctrl, State.prov_ctrl, State.pending_ctrl, ctrl_ite]
@[simp] theorem State.beatOut_time (s : State) (port : BitVec 5) : (State.beatOut s port).ctrl.time = s.ctrl.time := by
  unfold State.beatOut
  dsimp only
  (repeat' split) <;> simp [State.time_ctrl, State.ctl_ctrl, State.power_ctrl, State.boot_ctrl, State.prov_ctrl, State.pending_ctrl, ctrl_ite]
@[simp] theorem State.beatOut_ctl (s : State) (port : BitVec 5) : (State.beatOut s port).ctrl.ctl = s.ctrl.ctl := by
  unfold State.beatOut
  dsimp only
  (repeat' split) <;> simp [State.time_ctrl, State.ctl_ctrl, State.power_ctrl, State.boot_ctrl, State.prov_ctrl, State.pending_ctrl, ctrl_ite]
@[simp] theorem State.beatOut_rest (s : State) (port : BitVec 5) : (State.beatOut s port).ctrl.rest = s.ctrl.rest := by
  unfold State.beatOut
  dsimp only
  (repeat' split) <;> simp [State.time_ctrl, State.ctl_ctrl, State.power_ctrl, State.boot_ctrl, State.prov_ctrl, State.pending_ctrl, ctrl_ite]
theorem State.askPage_ctrl (s : State) (x : XReq) : ∀ r, State.askPage s x = some r → r.2.ctrl = s.ctrl := by
  intro r h
  simp only [State.askPage, Option.map_eq_some_iff] at h
  obtain ⟨a, ha, rfl⟩ := h
  simpa [State.time_ctrl, State.ctl_ctrl, State.power_ctrl, State.boot_ctrl, State.prov_ctrl, State.pending_ctrl] using State.askXlate_ctrl _ _ _ ha
@[simp] theorem State.pauseBeacon_ctrl (s : State) (c : Nat) : (State.pauseBeacon s c).ctrl = s.ctrl := by
  unfold State.pauseBeacon
  (repeat' split) <;> simp
@[simp] theorem State.dropReads_ctrl (s : State) (c : Nat) : (State.dropReads s c).ctrl = s.ctrl := rfl
theorem State.pauseHeat_keeps (s : State) (c : Nat) (i : Nat) (x : XReq) : (State.pauseHeat s c i x).ctrl.time = s.ctrl.time ∧
    (State.pauseHeat s c i x).ctrl.ctl = s.ctrl.ctl ∧ (State.pauseHeat s c i x).ctrl.rest = s.ctrl.rest := by
  unfold State.pauseHeat
  split
  · simp
  · extract_lets s1 w1 s2 raised now spent s3 pw s4 s5
    have h3 : s3.ctrl = s.ctrl := rfl
    clear_value s3
    have h4 : s4.ctrl.time = s.ctrl.time ∧ s4.ctrl.ctl = s.ctrl.ctl ∧ s4.ctrl.rest = s.ctrl.rest := by
      unfold s4
      split <;> simp [State.time_ctrl, State.ctl_ctrl, State.boot_ctrl, State.prov_ctrl, State.pending_ctrl, h3]
    clear_value s4
    have h5 : s5.ctrl = s4.ctrl := by
      unfold s5
      split
      · exact (State.modStream_ctrl ..).trans (State.askPage_ctrl _ _ _ (by assumption))
      · rfl
    clear_value s5
    split <;> simp [h5, h4]
@[simp] theorem State.pauseHeat_time (s : State) (c : Nat) (i : Nat) (x : XReq) : (State.pauseHeat s c i x).ctrl.time = s.ctrl.time := (State.pauseHeat_keeps s c i x).1
@[simp] theorem State.pauseHeat_ctl (s : State) (c : Nat) (i : Nat) (x : XReq) : (State.pauseHeat s c i x).ctrl.ctl = s.ctrl.ctl := (State.pauseHeat_keeps s c i x).2.1
@[simp] theorem State.pauseHeat_rest (s : State) (c : Nat) (i : Nat) (x : XReq) : (State.pauseHeat s c i x).ctrl.rest = s.ctrl.rest := (State.pauseHeat_keeps s c i x).2.2
@[simp] theorem State.resumeHeat_time (s : State) (c : Nat) : (State.resumeHeat s c).ctrl.time = s.ctrl.time := by
  unfold State.resumeHeat
  (repeat' split) <;> simp
@[simp] theorem State.resumeHeat_ctl (s : State) (c : Nat) : (State.resumeHeat s c).ctrl.ctl = s.ctrl.ctl := by
  unfold State.resumeHeat
  (repeat' split) <;> simp
@[simp] theorem State.resumeHeat_rest (s : State) (c : Nat) : (State.resumeHeat s c).ctrl.rest = s.ctrl.rest := by
  unfold State.resumeHeat
  (repeat' split) <;> simp
@[simp] theorem State.slagMem_ctrl (s : State) : (State.slagMem s).ctrl = s.ctrl := rfl
@[simp] theorem State.slagXlate_ctrl (s : State) : (State.slagXlate s).ctrl = s.ctrl := rfl
@[simp] theorem State.errData_ctrl (s : State) : (State.errData s).ctrl = s.ctrl := rfl
@[simp] theorem State.errFetch_ctrl (s : State) : (State.errFetch s).ctrl = s.ctrl := rfl
@[simp] theorem State.errOther_ctrl (s : State) : (State.errOther s).ctrl = s.ctrl := rfl
@[simp] theorem State.traceLost_ctrl (s : State) (n : Nat) : (State.traceLost s n).ctrl = s.ctrl := rfl
@[simp] theorem State.streamAnswer_time (s : State) (c : Nat) (st : StreamId) (x3 : MemReq) (ok : Bool) (rdata : Payload) : (State.streamAnswer s c st x3 ok rdata).ctrl.time = s.ctrl.time := by
  unfold State.streamAnswer
  (repeat' split) <;> simp
@[simp] theorem State.streamAnswer_ctl (s : State) (c : Nat) (st : StreamId) (x3 : MemReq) (ok : Bool) (rdata : Payload) : (State.streamAnswer s c st x3 ok rdata).ctrl.ctl = s.ctrl.ctl := by
  unfold State.streamAnswer
  (repeat' split) <;> simp
@[simp] theorem State.streamAnswer_rest (s : State) (c : Nat) (st : StreamId) (x3 : MemReq) (ok : Bool) (rdata : Payload) : (State.streamAnswer s c st x3 ok rdata).ctrl.rest = s.ctrl.rest := by
  unfold State.streamAnswer
  (repeat' split) <;> simp
@[simp] theorem State.memAnswer_time (s : State) (tag : Nat) (ok : Bool) (rdata : Payload) : (State.memAnswer s tag ok rdata).ctrl.time = s.ctrl.time := by
  unfold State.memAnswer
  dsimp only
  (repeat' split) <;> simp [State.time_ctrl, State.ctl_ctrl, State.power_ctrl, State.boot_ctrl, State.prov_ctrl, State.pending_ctrl, ctrl_ite]
@[simp] theorem State.memAnswer_ctl (s : State) (tag : Nat) (ok : Bool) (rdata : Payload) : (State.memAnswer s tag ok rdata).ctrl.ctl = s.ctrl.ctl := by
  unfold State.memAnswer
  dsimp only
  (repeat' split) <;> simp [State.time_ctrl, State.ctl_ctrl, State.power_ctrl, State.boot_ctrl, State.prov_ctrl, State.pending_ctrl, ctrl_ite]
@[simp] theorem State.memAnswer_rest (s : State) (tag : Nat) (ok : Bool) (rdata : Payload) : (State.memAnswer s tag ok rdata).ctrl.rest = s.ctrl.rest := by
  unfold State.memAnswer
  dsimp only
  (repeat' split) <;> simp [State.time_ctrl, State.ctl_ctrl, State.power_ctrl, State.boot_ctrl, State.prov_ctrl, State.pending_ctrl, ctrl_ite]
theorem State.takeXlate_ctrl (s : State) (id : Nat) (page : Bool) : ∀ r, State.takeXlate s id page = some r → r.2.ctrl = s.ctrl := by
  intro r h
  unfold State.takeXlate at h
  dsimp only at h
  (repeat' split at h) <;> (try cases h) <;> simp [State.time_ctrl, State.ctl_ctrl, State.power_ctrl, State.boot_ctrl, State.prov_ctrl, State.pending_ctrl]
@[simp] theorem State.badThere_ctrl (s : State) (q : Nat) (x : XReq) (e : Option XEnt) : (State.badThere s q x e).ctrl = s.ctrl := by
  unfold State.badThere
  dsimp only
  (repeat' split) <;> simp [State.time_ctrl, State.ctl_ctrl, State.power_ctrl, State.boot_ctrl, State.prov_ctrl, State.pending_ctrl, ctrl_ite]
@[simp] theorem State.cmplFails_ctrl (s : State) (q : Nat) : (State.cmplFails s q).ctrl = s.ctrl := by
  unfold State.cmplFails
  split <;> simp
@[simp] theorem State.streamXlate_time (s : State) (id : Nat) (c : Nat) (st : StreamId) (x : XReq) (e : Option XEnt) : (State.streamXlate s id c st x e).ctrl.time = s.ctrl.time := by
  unfold State.streamXlate
  dsimp only
  (repeat' split) <;> simp [State.time_ctrl, State.ctl_ctrl, State.power_ctrl, State.boot_ctrl, State.prov_ctrl, State.pending_ctrl, ctrl_ite]
@[simp] theorem State.streamXlate_ctl (s : State) (id : Nat) (c : Nat) (st : StreamId) (x : XReq) (e : Option XEnt) : (State.streamXlate s id c st x e).ctrl.ctl = s.ctrl.ctl := by
  unfold State.streamXlate
  dsimp only
  (repeat' split) <;> simp [State.time_ctrl, State.ctl_ctrl, State.power_ctrl, State.boot_ctrl, State.prov_ctrl, State.pending_ctrl, ctrl_ite]
@[simp] theorem State.streamXlate_rest (s : State) (id : Nat) (c : Nat) (st : StreamId) (x : XReq) (e : Option XEnt) : (State.streamXlate s id c st x e).ctrl.rest = s.ctrl.rest := by
  unfold State.streamXlate
  dsimp only
  (repeat' split) <;> simp [State.time_ctrl, State.ctl_ctrl, State.power_ctrl, State.boot_ctrl, State.prov_ctrl, State.pending_ctrl, ctrl_ite]
@[simp] theorem State.pinXlate_ctrl (s : State) (c : Nat) (st : StreamId) (x : XReq) (e : Option XEnt) : (State.pinXlate s c st x e).ctrl = s.ctrl := by
  unfold State.pinXlate
  dsimp only
  (repeat' split) <;> first | (simp [State.time_ctrl, State.ctl_ctrl, State.power_ctrl, State.boot_ctrl, State.prov_ctrl, State.pending_ctrl, ctrl_ite]; done) | (simp [State.time_ctrl, State.ctl_ctrl, State.power_ctrl, State.boot_ctrl, State.prov_ctrl, State.pending_ctrl, ctrl_ite, State.askPage_ctrl _ _ _  (by assumption)]; done)
@[simp] theorem State.traceRefused_time (s : State) : (State.traceRefused s).ctrl.time = s.ctrl.time := rfl
@[simp] theorem State.traceRefused_power (s : State) : (State.traceRefused s).ctrl.power = s.ctrl.power := rfl
@[simp] theorem State.traceRefused_rest (s : State) : (State.traceRefused s).ctrl.rest = s.ctrl.rest := rfl
@[simp] theorem State.traceXl_time (s : State) (n : Nat) (replay : Bool) (e : Option XEnt) : (State.traceXl s n replay e).ctrl.time = s.ctrl.time := by
  unfold State.traceXl
  (repeat' split) <;> simp [State.time_ctrl, State.ctl_ctrl, State.power_ctrl, State.boot_ctrl, State.prov_ctrl, State.pending_ctrl]
@[simp] theorem State.traceXl_power (s : State) (n : Nat) (replay : Bool) (e : Option XEnt) : (State.traceXl s n replay e).ctrl.power = s.ctrl.power := by
  unfold State.traceXl
  (repeat' split) <;> simp [State.time_ctrl, State.ctl_ctrl, State.power_ctrl, State.boot_ctrl, State.prov_ctrl, State.pending_ctrl]
@[simp] theorem State.traceXl_rest (s : State) (n : Nat) (replay : Bool) (e : Option XEnt) : (State.traceXl s n replay e).ctrl.rest = s.ctrl.rest := by
  unfold State.traceXl
  (repeat' split) <;> simp [State.time_ctrl, State.ctl_ctrl, State.power_ctrl, State.boot_ctrl, State.prov_ctrl, State.pending_ctrl]
theorem State.xlateAnswer_keeps {β : Type} (g : Ctrl → β) (hx : ∀ (s : State) n r e, g (s.traceXl n r e).ctrl = g s.ctrl)
    (hs : ∀ (s : State) id c st x e, g (s.streamXlate id c st x e).ctrl = g s.ctrl) (s : State) (id : Nat) (ok : Bool) (size : BitVec 2) (paddr : BitVec 40) : g (State.xlateAnswer s id ok size paddr).ctrl = g s.ctrl := by
  unfold State.xlateAnswer
  split
  · rfl
  · rename_i x u heq
    have hu : u.ctrl = s.ctrl := State.takeXlate_ctrl _ _ _ _ heq
    clear heq
    extract_lets e
    clear_value e
    rw [← hu]
    clear hu
    (repeat' (first | split | dsimp only)) <;> first
      | with_reducible rfl
      | (simp only [hx]; done)
      | (simp only [hs]; done)
      | (simp; done)
      | (rw [State.askPage_ctrl _ _ _ (by assumption)]; done)
      | (rw [State.askPage_ctrl _ _ _ (by assumption)]; simp; done)
@[simp] theorem State.xlateAnswer_time (s : State) (id : Nat) (ok : Bool) (size : BitVec 2) (paddr : BitVec 40) : (State.xlateAnswer s id ok size paddr).ctrl.time = s.ctrl.time := State.xlateAnswer_keeps (·.time) (State.traceXl_time · · · ·) (State.streamXlate_time · · · · · ·) s id ok size paddr
@[simp] theorem State.xlateAnswer_rest (s : State) (id : Nat) (ok : Bool) (size : BitVec 2) (paddr : BitVec 40) : (State.xlateAnswer s id ok size paddr).ctrl.rest = s.ctrl.rest := State.xlateAnswer_keeps (·.rest) (State.traceXl_rest · · · ·) (State.streamXlate_rest · · · · · ·) s id ok size paddr
@[simp] theorem State.pageFailed_ctrl (s : State) : (State.pageFailed s).ctrl = s.ctrl := rfl
@[simp] theorem State.pageAnswer_time (s : State) (id : Nat) (done : Bool) : (State.pageAnswer s id done).ctrl.time = s.ctrl.time := by
  unfold State.pageAnswer
  dsimp only
  (repeat' split) <;> first | (simp [State.time_ctrl, State.ctl_ctrl, State.power_ctrl, State.boot_ctrl, State.prov_ctrl, State.pending_ctrl, ctrl_ite]; done) | (simp [State.time_ctrl, State.ctl_ctrl, State.power_ctrl, State.boot_ctrl, State.prov_ctrl, State.pending_ctrl, ctrl_ite, State.takeXlate_ctrl _ _ _ _  (by assumption)]; done)
@[simp] theorem State.pageAnswer_ctl (s : State) (id : Nat) (done : Bool) : (State.pageAnswer s id done).ctrl.ctl = s.ctrl.ctl := by
  unfold State.pageAnswer
  dsimp only
  (repeat' split) <;> first | (simp [State.time_ctrl, State.ctl_ctrl, State.power_ctrl, State.boot_ctrl, State.prov_ctrl, State.pending_ctrl, ctrl_ite]; done) | (simp [State.time_ctrl, State.ctl_ctrl, State.power_ctrl, State.boot_ctrl, State.prov_ctrl, State.pending_ctrl, ctrl_ite, State.takeXlate_ctrl _ _ _ _  (by assumption)]; done)
@[simp] theorem State.pageAnswer_rest (s : State) (id : Nat) (done : Bool) : (State.pageAnswer s id done).ctrl.rest = s.ctrl.rest := by
  unfold State.pageAnswer
  dsimp only
  (repeat' split) <;> first | (simp [State.time_ctrl, State.ctl_ctrl, State.power_ctrl, State.boot_ctrl, State.prov_ctrl, State.pending_ctrl, ctrl_ite]; done) | (simp [State.time_ctrl, State.ctl_ctrl, State.power_ctrl, State.boot_ctrl, State.prov_ctrl, State.pending_ctrl, ctrl_ite, State.takeXlate_ctrl _ _ _ _  (by assumption)]; done)
@[simp] theorem State.invalidateXlate_time (s : State) (scope : BitVec 2) (asid : BitVec 16) (first : BitVec 52) (last : BitVec 52) : (State.invalidateXlate s scope asid first last).ctrl.time = s.ctrl.time := by
  unfold State.invalidateXlate
  (repeat' split) <;> simp [State.time_ctrl, State.ctl_ctrl, State.power_ctrl, State.boot_ctrl, State.prov_ctrl, State.pending_ctrl]
@[simp] theorem State.invalidateXlate_ctl (s : State) (scope : BitVec 2) (asid : BitVec 16) (first : BitVec 52) (last : BitVec 52) : (State.invalidateXlate s scope asid first last).ctrl.ctl = s.ctrl.ctl := by
  unfold State.invalidateXlate
  (repeat' split) <;> simp [State.time_ctrl, State.ctl_ctrl, State.power_ctrl, State.boot_ctrl, State.prov_ctrl, State.pending_ctrl]
@[simp] theorem State.invalidateXlate_rest (s : State) (scope : BitVec 2) (asid : BitVec 16) (first : BitVec 52) (last : BitVec 52) : (State.invalidateXlate s scope asid first last).ctrl.rest = s.ctrl.rest := by
  unfold State.invalidateXlate
  (repeat' split) <;> simp [State.time_ctrl, State.ctl_ctrl, State.power_ctrl, State.boot_ctrl, State.prov_ctrl, State.pending_ctrl]
@[simp] theorem State.commitQuiet_ctl (s : State) (tag : Nat) : (State.commitQuiet s tag).ctrl.ctl = s.ctrl.ctl := by
  unfold State.commitQuiet
  (repeat' split) <;> simp
@[simp] theorem State.commitQuiet_power (s : State) (tag : Nat) : (State.commitQuiet s tag).ctrl.power = s.ctrl.power := by
  unfold State.commitQuiet
  (repeat' split) <;> simp
@[simp] theorem State.commitQuiet_rest (s : State) (tag : Nat) : (State.commitQuiet s tag).ctrl.rest = s.ctrl.rest := by
  unfold State.commitQuiet
  (repeat' split) <;> simp
@[simp] theorem State.beaconAgain_ctl (s : State) (c : Nat) : (State.beaconAgain s c).ctrl.ctl = s.ctrl.ctl := by
  unfold State.beaconAgain
  (repeat' split) <;> simp
@[simp] theorem State.beaconAgain_power (s : State) (c : Nat) : (State.beaconAgain s c).ctrl.power = s.ctrl.power := by
  unfold State.beaconAgain
  (repeat' split) <;> simp
@[simp] theorem State.beaconAgain_rest (s : State) (c : Nat) : (State.beaconAgain s c).ctrl.rest = s.ctrl.rest := by
  unfold State.beaconAgain
  (repeat' split) <;> simp
@[simp] theorem State.forgetCount_ctl (s : State) (c : Nat) (origin : Nat) : (State.forgetCount s c origin).ctrl.ctl = s.ctrl.ctl := by
  unfold State.forgetCount
  (repeat' split) <;> simp
@[simp] theorem State.forgetCount_power (s : State) (c : Nat) (origin : Nat) : (State.forgetCount s c origin).ctrl.power = s.ctrl.power := by
  unfold State.forgetCount
  (repeat' split) <;> simp
@[simp] theorem State.forgetCount_rest (s : State) (c : Nat) (origin : Nat) : (State.forgetCount s c origin).ctrl.rest = s.ctrl.rest := by
  unfold State.forgetCount
  (repeat' split) <;> simp
@[simp] theorem State.capReached_ctl (s : State) (c : Nat) : (State.capReached s c).ctrl.ctl = s.ctrl.ctl := by
  unfold State.capReached
  (repeat' split) <;> simp
@[simp] theorem State.capReached_power (s : State) (c : Nat) : (State.capReached s c).ctrl.power = s.ctrl.power := by
  unfold State.capReached
  (repeat' split) <;> simp
@[simp] theorem State.capReached_rest (s : State) (c : Nat) : (State.capReached s c).ctrl.rest = s.ctrl.rest := by
  unfold State.capReached
  (repeat' split) <;> simp
@[simp] theorem State.wdogExpires_ctl (s : State) (c : Nat) : (State.wdogExpires s c).ctrl.ctl = s.ctrl.ctl := by
  unfold State.wdogExpires
  (repeat' split) <;> simp
@[simp] theorem State.wdogExpires_rest (s : State) (c : Nat) : (State.wdogExpires s c).ctrl.rest = s.ctrl.rest := by
  unfold State.wdogExpires
  (repeat' split) <;> simp
@[simp] theorem State.tagFree_ctl (s : State) (t : Nat) : (State.tagFree s t).ctrl.ctl = s.ctrl.ctl := by
  unfold State.tagFree
  (repeat' split) <;> simp
@[simp] theorem State.tagFree_power (s : State) (t : Nat) : (State.tagFree s t).ctrl.power = s.ctrl.power := by
  unfold State.tagFree
  (repeat' split) <;> simp
@[simp] theorem State.tagFree_rest (s : State) (t : Nat) : (State.tagFree s t).ctrl.rest = s.ctrl.rest := by
  unfold State.tagFree
  (repeat' split) <;> simp
@[simp] theorem State.setupTimeout_ctl (s : State) (c : Nat) : (State.setupTimeout s c).ctrl.ctl = s.ctrl.ctl := by
  unfold State.setupTimeout
  (repeat' split) <;> simp
@[simp] theorem State.setupTimeout_rest (s : State) (c : Nat) : (State.setupTimeout s c).ctrl.rest = s.ctrl.rest := by
  unfold State.setupTimeout
  (repeat' split) <;> simp
@[simp] theorem State.keyWaitEnds_ctl (s : State) (c : Nat) : (State.keyWaitEnds s c).ctrl.ctl = s.ctrl.ctl := by
  unfold State.keyWaitEnds
  (repeat' split) <;> simp
@[simp] theorem State.keyWaitEnds_rest (s : State) (c : Nat) : (State.keyWaitEnds s c).ctrl.rest = s.ctrl.rest := by
  unfold State.keyWaitEnds
  (repeat' split) <;> simp
@[simp] theorem State.spacingEnds_ctl (s : State) (c : Nat) : (State.spacingEnds s c).ctrl.ctl = s.ctrl.ctl := by
  unfold State.spacingEnds
  (repeat' split) <;> simp
@[simp] theorem State.spacingEnds_rest (s : State) (c : Nat) : (State.spacingEnds s c).ctrl.rest = s.ctrl.rest := by
  unfold State.spacingEnds
  (repeat' split) <;> simp
@[simp] theorem State.recordStart_ctrl (s : State) (v : W32) : (State.recordStart s v).ctrl = s.ctrl := by simp [State.recordStart, State.time_ctrl, State.ctl_ctrl, State.power_ctrl, State.boot_ctrl, State.prov_ctrl, State.pending_ctrl]
@[simp] theorem State.replayBegin_ctrl (s : State) (v : W32) : (State.replayBegin s v).ctrl = s.ctrl := by simp [State.replayBegin, State.time_ctrl, State.ctl_ctrl, State.power_ctrl, State.boot_ctrl, State.prov_ctrl, State.pending_ctrl]
@[simp] theorem State.traceGo_time (s : State) : (State.traceGo s).ctrl.time = s.ctrl.time := by
  unfold State.traceGo
  dsimp only
  (repeat' split) <;> simp [State.time_ctrl, State.ctl_ctrl, State.power_ctrl, State.boot_ctrl, State.prov_ctrl, State.pending_ctrl, ctrl_ite]
@[simp] theorem State.traceGo_power (s : State) : (State.traceGo s).ctrl.power = s.ctrl.power := by
  unfold State.traceGo
  dsimp only
  (repeat' split) <;> simp [State.time_ctrl, State.ctl_ctrl, State.power_ctrl, State.boot_ctrl, State.prov_ctrl, State.pending_ctrl, ctrl_ite]
@[simp] theorem State.traceGo_rest (s : State) : (State.traceGo s).ctrl.rest = s.ctrl.rest := by
  unfold State.traceGo
  dsimp only
  (repeat' split) <;> simp [State.time_ctrl, State.ctl_ctrl, State.power_ctrl, State.boot_ctrl, State.prov_ctrl, State.pending_ctrl, ctrl_ite]
@[simp] theorem State.traceAskPage_ctrl (s : State) (vp : Nat) : (State.traceAskPage s vp).ctrl = s.ctrl := by simp [State.traceAskPage, State.time_ctrl, State.ctl_ctrl, State.power_ctrl, State.boot_ctrl, State.prov_ctrl, State.pending_ctrl]
@[simp] theorem State.traceNext_time (s : State) : (State.traceNext s).ctrl.time = s.ctrl.time := by
  unfold State.traceNext
  dsimp only
  (repeat' split) <;> simp [State.time_ctrl, State.ctl_ctrl, State.power_ctrl, State.boot_ctrl, State.prov_ctrl, State.pending_ctrl, ctrl_ite]
@[simp] theorem State.traceNext_power (s : State) : (State.traceNext s).ctrl.power = s.ctrl.power := by
  unfold State.traceNext
  dsimp only
  (repeat' split) <;> simp [State.time_ctrl, State.ctl_ctrl, State.power_ctrl, State.boot_ctrl, State.prov_ctrl, State.pending_ctrl, ctrl_ite]
@[simp] theorem State.traceNext_rest (s : State) : (State.traceNext s).ctrl.rest = s.ctrl.rest := by
  unfold State.traceNext
  dsimp only
  (repeat' split) <;> simp [State.time_ctrl, State.ctl_ctrl, State.power_ctrl, State.boot_ctrl, State.prov_ctrl, State.pending_ctrl, ctrl_ite]
@[simp] theorem State.traceTranslate_time (s : State) (v : W32) : (State.traceTranslate s v).ctrl.time = s.ctrl.time := by simp [State.traceTranslate, State.time_ctrl, State.ctl_ctrl, State.power_ctrl, State.boot_ctrl, State.prov_ctrl, State.pending_ctrl]
@[simp] theorem State.traceTranslate_power (s : State) (v : W32) : (State.traceTranslate s v).ctrl.power = s.ctrl.power := by simp [State.traceTranslate, State.time_ctrl, State.ctl_ctrl, State.power_ctrl, State.boot_ctrl, State.prov_ctrl, State.pending_ctrl]
@[simp] theorem State.traceTranslate_rest (s : State) (v : W32) : (State.traceTranslate s v).ctrl.rest = s.ctrl.rest := by simp [State.traceTranslate, State.time_ctrl, State.ctl_ctrl, State.power_ctrl, State.boot_ctrl, State.prov_ctrl, State.pending_ctrl]
@[simp] theorem State.recCtlWrite_time (s : State) (v : W32) : (State.recCtlWrite s v).ctrl.time = s.ctrl.time := by
  unfold State.recCtlWrite
  dsimp only
  (repeat' split) <;> simp [State.time_ctrl, State.ctl_ctrl, State.power_ctrl, State.boot_ctrl, State.prov_ctrl, State.pending_ctrl, ctrl_ite]
@[simp] theorem State.recCtlWrite_rest (s : State) (v : W32) : (State.recCtlWrite s v).ctrl.rest = s.ctrl.rest := by
  unfold State.recCtlWrite
  dsimp only
  (repeat' split) <;> simp [State.time_ctrl, State.ctl_ctrl, State.power_ctrl, State.boot_ctrl, State.prov_ctrl, State.pending_ctrl, ctrl_ite]
@[simp] theorem State.teleBegin_ctrl (s : State) : (State.teleBegin s).ctrl = s.ctrl := by
  unfold State.teleBegin
  (repeat' (first | rfl | intro _ _ | rw [State.foldl_ctrl] | split)) <;> simp [State.time_ctrl, State.ctl_ctrl, State.power_ctrl, State.boot_ctrl, State.prov_ctrl, State.pending_ctrl, ctrl_ite]
@[simp] theorem State.teleDestPut_time (s : State) (v : W32) : (State.teleDestPut s v).ctrl.time = s.ctrl.time := by
  unfold State.teleDestPut
  dsimp only
  split <;> simp [State.time_ctrl, State.ctl_ctrl, State.power_ctrl, State.boot_ctrl, State.prov_ctrl, State.pending_ctrl, ctrl_ite]
@[simp] theorem State.teleDestPut_rest (s : State) (v : W32) : (State.teleDestPut s v).ctrl.rest = s.ctrl.rest := by
  unfold State.teleDestPut
  dsimp only
  split <;> simp [State.time_ctrl, State.ctl_ctrl, State.power_ctrl, State.boot_ctrl, State.prov_ctrl, State.pending_ctrl, ctrl_ite]
@[simp] theorem State.teleApply_time (s : State) (v : W32) : (State.teleApply s v).ctrl.time = s.ctrl.time := by
  unfold State.teleApply
  (repeat' split) <;> simp [State.time_ctrl, State.ctl_ctrl, State.power_ctrl, State.boot_ctrl, State.prov_ctrl, State.pending_ctrl]
@[simp] theorem State.teleApply_power (s : State) (v : W32) : (State.teleApply s v).ctrl.power = s.ctrl.power := by
  unfold State.teleApply
  (repeat' split) <;> simp [State.time_ctrl, State.ctl_ctrl, State.power_ctrl, State.boot_ctrl, State.prov_ctrl, State.pending_ctrl]
@[simp] theorem State.teleApply_rest (s : State) (v : W32) : (State.teleApply s v).ctrl.rest = s.ctrl.rest := by
  unfold State.teleApply
  (repeat' split) <;> simp [State.time_ctrl, State.ctl_ctrl, State.power_ctrl, State.boot_ctrl, State.prov_ctrl, State.pending_ctrl]
@[simp] theorem State.teleCtlWrite_time (s : State) (v : W32) : (State.teleCtlWrite s v).ctrl.time = s.ctrl.time := by
  unfold State.teleCtlWrite
  (repeat' split) <;> simp [State.time_ctrl, State.ctl_ctrl, State.power_ctrl, State.boot_ctrl, State.prov_ctrl, State.pending_ctrl]
@[simp] theorem State.teleCtlWrite_rest (s : State) (v : W32) : (State.teleCtlWrite s v).ctrl.rest = s.ctrl.rest := by
  unfold State.teleCtlWrite
  (repeat' split) <;> simp [State.time_ctrl, State.ctl_ctrl, State.power_ctrl, State.boot_ctrl, State.prov_ctrl, State.pending_ctrl]
@[simp] theorem State.traceAligned_time (s : State) : (State.traceAligned s).ctrl.time = s.ctrl.time := by
  unfold State.traceAligned
  dsimp only
  (repeat' split) <;> simp [State.time_ctrl, State.ctl_ctrl, State.power_ctrl, State.boot_ctrl, State.prov_ctrl, State.pending_ctrl, ctrl_ite]
@[simp] theorem State.traceAligned_power (s : State) : (State.traceAligned s).ctrl.power = s.ctrl.power := by
  unfold State.traceAligned
  dsimp only
  (repeat' split) <;> simp [State.time_ctrl, State.ctl_ctrl, State.power_ctrl, State.boot_ctrl, State.prov_ctrl, State.pending_ctrl, ctrl_ite]
@[simp] theorem State.traceAligned_rest (s : State) : (State.traceAligned s).ctrl.rest = s.ctrl.rest := by
  unfold State.traceAligned
  dsimp only
  (repeat' split) <;> simp [State.time_ctrl, State.ctl_ctrl, State.power_ctrl, State.boot_ctrl, State.prov_ctrl, State.pending_ctrl, ctrl_ite]
@[simp] theorem State.untilMachine_ctl (s : State) (t : Nat) : (State.untilMachine s t).ctrl.ctl = s.ctrl.ctl := by
  unfold State.untilMachine
  (repeat' split) <;> simp
@[simp] theorem State.untilMachine_power (s : State) (t : Nat) : (State.untilMachine s t).ctrl.power = s.ctrl.power := by
  unfold State.untilMachine
  (repeat' split) <;> simp
@[simp] theorem State.untilMachine_rest (s : State) (t : Nat) : (State.untilMachine s t).ctrl.rest = s.ctrl.rest := by
  unfold State.untilMachine
  (repeat' split) <;> simp
@[simp] theorem State.replayInput_ctrl (s : State) (e : BitVec 128) : (State.replayInput s e).ctrl = s.ctrl := by
  unfold State.replayInput
  (repeat' split) <;> simp
@[simp] theorem State.replayNext_ctl (s : State) : (State.replayNext s).ctrl.ctl = s.ctrl.ctl := by
  unfold State.replayNext
  (repeat' split) <;> simp
@[simp] theorem State.replayNext_rest (s : State) : (State.replayNext s).ctrl.rest = s.ctrl.rest := by
  unfold State.replayNext
  (repeat' split) <;> simp
@[simp] theorem State.replayLate_ctl (s : State) : (State.replayLate s).ctrl.ctl = s.ctrl.ctl := by
  unfold State.replayLate
  (repeat' split) <;> simp
@[simp] theorem State.replayLate_rest (s : State) : (State.replayLate s).ctrl.rest = s.ctrl.rest := by
  unfold State.replayLate
  (repeat' split) <;> simp
@[simp] theorem State.teleDiscard_ctrl (s : State) : (State.teleDiscard s).ctrl = s.ctrl := by
  unfold State.teleDiscard
  dsimp only
  simp only [State.ctrl_mk, State.time_ctrl, State.ctl_ctrl, State.power_ctrl, State.boot_ctrl, State.prov_ctrl, State.pending_ctrl]
  rw [State.foldl_ctrl _ (fun s a => by simp)]
@[simp] theorem State.telemetry_ctl (s : State) : (State.telemetry s).ctrl.ctl = s.ctrl.ctl := by
  unfold State.telemetry
  dsimp only
  (repeat' split) <;> simp_all [State.time_ctrl, State.ctl_ctrl, State.power_ctrl, State.boot_ctrl, State.prov_ctrl, State.pending_ctrl, ctrl_ite]
@[simp] theorem State.telemetry_power (s : State) : (State.telemetry s).ctrl.power = s.ctrl.power := by
  unfold State.telemetry
  dsimp only
  (repeat' split) <;> simp_all [State.time_ctrl, State.ctl_ctrl, State.power_ctrl, State.boot_ctrl, State.prov_ctrl, State.pending_ctrl, ctrl_ite]
@[simp] theorem State.telemetry_rest (s : State) : (State.telemetry s).ctrl.rest = s.ctrl.rest := by
  unfold State.telemetry
  dsimp only
  (repeat' split) <;> simp_all [State.time_ctrl, State.ctl_ctrl, State.power_ctrl, State.boot_ctrl, State.prov_ctrl, State.pending_ctrl, ctrl_ite]
@[simp] theorem State.ymbAt_time (s : State) (a : Nat) (f : State → State) (hf : ∀ t, (f t).ctrl.time = t.ctrl.time) : (State.ymbAt s a f).ctrl.time = s.ctrl.time := by
  unfold State.ymbAt
  (repeat' split) <;> simp_all
@[simp] theorem State.ymbAt_power (s : State) (a : Nat) (f : State → State) (hf : ∀ t, (f t).ctrl.power = t.ctrl.power) : (State.ymbAt s a f).ctrl.power = s.ctrl.power := by
  unfold State.ymbAt
  (repeat' split) <;> simp_all
@[simp] theorem State.ymbAt_rest (s : State) (a : Nat) (f : State → State) (hf : ∀ t, (f t).ctrl.rest = t.ctrl.rest) : (State.ymbAt s a f).ctrl.rest = s.ctrl.rest := by
  unfold State.ymbAt
  (repeat' split) <;> simp_all
@[simp] theorem State.okay_time (s : State) : (State.okay s).ctrl.time = s.ctrl.time := rfl
@[simp] theorem State.okay_power (s : State) : (State.okay s).ctrl.power = s.ctrl.power := rfl
@[simp] theorem State.okay_rest (s : State) : (State.okay s).ctrl.rest = s.ctrl.rest := rfl
@[simp] theorem State.denied_time (s : State) : (State.denied s).ctrl.time = s.ctrl.time := rfl
@[simp] theorem State.denied_power (s : State) : (State.denied s).ctrl.power = s.ctrl.power := rfl
@[simp] theorem State.denied_rest (s : State) : (State.denied s).ctrl.rest = s.ctrl.rest := rfl
@[simp] theorem State.error_time (s : State) : (State.error s).ctrl.time = s.ctrl.time := rfl
@[simp] theorem State.error_power (s : State) : (State.error s).ctrl.power = s.ctrl.power := rfl
@[simp] theorem State.error_rest (s : State) : (State.error s).ctrl.rest = s.ctrl.rest := rfl
@[simp] theorem State.violation_time (s : State) (a : Nat) : (State.violation s a).ctrl.time = s.ctrl.time := rfl
@[simp] theorem State.violation_power (s : State) (a : Nat) : (State.violation s a).ctrl.power = s.ctrl.power := rfl
@[simp] theorem State.violation_rest (s : State) (a : Nat) : (State.violation s a).ctrl.rest = s.ctrl.rest := rfl
@[simp] theorem State.timeCtlWrite_power (s : State) (v : W32) : (State.timeCtlWrite s v).ctrl.power = s.ctrl.power := by
  unfold State.timeCtlWrite
  dsimp only
  (repeat' split) <;> simp [State.time_ctrl, State.ctl_ctrl, State.power_ctrl, State.boot_ctrl, State.prov_ctrl, State.pending_ctrl, ctrl_ite]
@[simp] theorem State.timeCtlWrite_rest (s : State) (v : W32) : (State.timeCtlWrite s v).ctrl.rest = s.ctrl.rest := by
  unfold State.timeCtlWrite
  dsimp only
  (repeat' split) <;> simp [State.time_ctrl, State.ctl_ctrl, State.power_ctrl, State.boot_ctrl, State.prov_ctrl, State.pending_ctrl, ctrl_ite]
@[simp] theorem State.policy_time (s : State) (v : W32) : (State.policy s v).ctrl.time = s.ctrl.time := by
  unfold State.policy
  dsimp only
  (repeat' split) <;> simp [State.time_ctrl, State.ctl_ctrl, State.power_ctrl, State.boot_ctrl, State.prov_ctrl, State.pending_ctrl, ctrl_ite]
@[simp] theorem State.policy_power (s : State) (v : W32) : (State.policy s v).ctrl.power = s.ctrl.power := by
  unfold State.policy
  dsimp only
  (repeat' split) <;> simp [State.time_ctrl, State.ctl_ctrl, State.power_ctrl, State.boot_ctrl, State.prov_ctrl, State.pending_ctrl, ctrl_ite]
@[simp] theorem State.policy_rest (s : State) (v : W32) : (State.policy s v).ctrl.rest = s.ctrl.rest := by
  unfold State.policy
  dsimp only
  (repeat' split) <;> simp [State.time_ctrl, State.ctl_ctrl, State.power_ctrl, State.boot_ctrl, State.prov_ctrl, State.pending_ctrl, ctrl_ite]
@[simp] theorem State.platformTag_time (s : State) (v : W32) : (State.platformTag s v).ctrl.time = s.ctrl.time := by
  unfold State.platformTag
  (repeat' split) <;> simp [State.time_ctrl, State.ctl_ctrl, State.power_ctrl, State.boot_ctrl, State.prov_ctrl, State.pending_ctrl]
@[simp] theorem State.platformTag_power (s : State) (v : W32) : (State.platformTag s v).ctrl.power = s.ctrl.power := by
  unfold State.platformTag
  (repeat' split) <;> simp [State.time_ctrl, State.ctl_ctrl, State.power_ctrl, State.boot_ctrl, State.prov_ctrl, State.pending_ctrl]
@[simp] theorem State.platformTag_rest (s : State) (v : W32) : (State.platformTag s v).ctrl.rest = s.ctrl.rest := by
  unfold State.platformTag
  (repeat' split) <;> simp [State.time_ctrl, State.ctl_ctrl, State.power_ctrl, State.boot_ctrl, State.prov_ctrl, State.pending_ctrl]
@[simp] theorem State.gateCtlWrite_time (s : State) (v : W32) : (State.gateCtlWrite s v).ctrl.time = s.ctrl.time := by
  unfold State.gateCtlWrite
  (repeat' split) <;> simp [State.time_ctrl, State.ctl_ctrl, State.power_ctrl, State.boot_ctrl, State.prov_ctrl, State.pending_ctrl]
@[simp] theorem State.gateCtlWrite_rest (s : State) (v : W32) : (State.gateCtlWrite s v).ctrl.rest = s.ctrl.rest := by
  unfold State.gateCtlWrite
  (repeat' split) <;> simp [State.time_ctrl, State.ctl_ctrl, State.power_ctrl, State.boot_ctrl, State.prov_ctrl, State.pending_ctrl]
@[simp] theorem State.thermCtlWrite_time (s : State) (v : W32) : (State.thermCtlWrite s v).ctrl.time = s.ctrl.time := by
  unfold State.thermCtlWrite
  (repeat' split) <;> simp [State.time_ctrl, State.ctl_ctrl, State.power_ctrl, State.boot_ctrl, State.prov_ctrl, State.pending_ctrl]
@[simp] theorem State.thermCtlWrite_rest (s : State) (v : W32) : (State.thermCtlWrite s v).ctrl.rest = s.ctrl.rest := by
  unfold State.thermCtlWrite
  (repeat' split) <;> simp [State.time_ctrl, State.ctl_ctrl, State.power_ctrl, State.boot_ctrl, State.prov_ctrl, State.pending_ctrl]
@[simp] theorem State.wdog_time (s : State) (v : W32) : (State.wdog s v).ctrl.time = s.ctrl.time := by
  unfold State.wdog
  dsimp only
  (repeat' split) <;> simp [State.time_ctrl, State.ctl_ctrl, State.power_ctrl, State.boot_ctrl, State.prov_ctrl, State.pending_ctrl, ctrl_ite]
@[simp] theorem State.wdog_power (s : State) (v : W32) : (State.wdog s v).ctrl.power = s.ctrl.power := by
  unfold State.wdog
  dsimp only
  (repeat' split) <;> simp [State.time_ctrl, State.ctl_ctrl, State.power_ctrl, State.boot_ctrl, State.prov_ctrl, State.pending_ctrl, ctrl_ite]
@[simp] theorem State.wdog_rest (s : State) (v : W32) : (State.wdog s v).ctrl.rest = s.ctrl.rest := by
  unfold State.wdog
  dsimp only
  (repeat' split) <;> simp [State.time_ctrl, State.ctl_ctrl, State.power_ctrl, State.boot_ctrl, State.prov_ctrl, State.pending_ctrl, ctrl_ite]
@[simp] theorem State.pauseCapWrite_time (s : State) (v : W32) : (State.pauseCapWrite s v).ctrl.time = s.ctrl.time := by
  unfold State.pauseCapWrite
  dsimp only
  (repeat' split) <;> simp [State.time_ctrl, State.ctl_ctrl, State.power_ctrl, State.boot_ctrl, State.prov_ctrl, State.pending_ctrl, ctrl_ite]
@[simp] theorem State.pauseCapWrite_power (s : State) (v : W32) : (State.pauseCapWrite s v).ctrl.power = s.ctrl.power := by
  unfold State.pauseCapWrite
  dsimp only
  (repeat' split) <;> simp [State.time_ctrl, State.ctl_ctrl, State.power_ctrl, State.boot_ctrl, State.prov_ctrl, State.pending_ctrl, ctrl_ite]
@[simp] theorem State.pauseCapWrite_rest (s : State) (v : W32) : (State.pauseCapWrite s v).ctrl.rest = s.ctrl.rest := by
  unfold State.pauseCapWrite
  dsimp only
  (repeat' split) <;> simp [State.time_ctrl, State.ctl_ctrl, State.power_ctrl, State.boot_ctrl, State.prov_ctrl, State.pending_ctrl, ctrl_ite]
@[simp] theorem State.abort_time (s : State) (v : W32) : (State.abort s v).ctrl.time = s.ctrl.time := by
  unfold State.abort
  dsimp only
  (repeat' split) <;> simp [State.time_ctrl, State.ctl_ctrl, State.power_ctrl, State.boot_ctrl, State.prov_ctrl, State.pending_ctrl, ctrl_ite]
@[simp] theorem State.abort_rest (s : State) (v : W32) : (State.abort s v).ctrl.rest = s.ctrl.rest := by
  unfold State.abort
  dsimp only
  (repeat' split) <;> simp [State.time_ctrl, State.ctl_ctrl, State.power_ctrl, State.boot_ctrl, State.prov_ctrl, State.pending_ctrl, ctrl_ite]
@[simp] theorem State.diagCtl_time (s : State) (v : W32) : (State.diagCtl s v).ctrl.time = s.ctrl.time := by
  unfold State.diagCtl
  (repeat' split) <;> simp [State.time_ctrl, State.ctl_ctrl, State.power_ctrl, State.boot_ctrl, State.prov_ctrl, State.pending_ctrl]
@[simp] theorem State.diagCtl_power (s : State) (v : W32) : (State.diagCtl s v).ctrl.power = s.ctrl.power := by
  unfold State.diagCtl
  (repeat' split) <;> simp [State.time_ctrl, State.ctl_ctrl, State.power_ctrl, State.boot_ctrl, State.prov_ctrl, State.pending_ctrl]
@[simp] theorem State.diagCtl_rest (s : State) (v : W32) : (State.diagCtl s v).ctrl.rest = s.ctrl.rest := by
  unfold State.diagCtl
  (repeat' split) <;> simp [State.time_ctrl, State.ctl_ctrl, State.power_ctrl, State.boot_ctrl, State.prov_ctrl, State.pending_ctrl]
@[simp] theorem State.creditWrite_time (s : State) (p : Nat) (v : W32) : (State.creditWrite s p v).ctrl.time = s.ctrl.time := by
  unfold State.creditWrite
  dsimp only
  (repeat' split) <;> simp [State.time_ctrl, State.ctl_ctrl, State.power_ctrl, State.boot_ctrl, State.prov_ctrl, State.pending_ctrl, ctrl_ite]
@[simp] theorem State.creditWrite_power (s : State) (p : Nat) (v : W32) : (State.creditWrite s p v).ctrl.power = s.ctrl.power := by
  unfold State.creditWrite
  dsimp only
  (repeat' split) <;> simp [State.time_ctrl, State.ctl_ctrl, State.power_ctrl, State.boot_ctrl, State.prov_ctrl, State.pending_ctrl, ctrl_ite]
@[simp] theorem State.creditWrite_rest (s : State) (p : Nat) (v : W32) : (State.creditWrite s p v).ctrl.rest = s.ctrl.rest := by
  unfold State.creditWrite
  dsimp only
  (repeat' split) <;> simp [State.time_ctrl, State.ctl_ctrl, State.power_ctrl, State.boot_ctrl, State.prov_ctrl, State.pending_ctrl, ctrl_ite]
@[simp] theorem State.portWrite_time (s : State) (p : Nat) (o : Nat) (v : W32) : (State.portWrite s p o v).ctrl.time = s.ctrl.time := by
  unfold State.portWrite
  (repeat' split) <;> simp
@[simp] theorem State.portWrite_rest (s : State) (p : Nat) (o : Nat) (v : W32) : (State.portWrite s p o v).ctrl.rest = s.ctrl.rest := by
  unfold State.portWrite
  (repeat' split) <;> simp
@[simp] theorem State.routeWrite_time (s : State) (v : W32) : (State.routeWrite s v).ctrl.time = s.ctrl.time := by
  unfold State.routeWrite
  (repeat' split) <;> simp [State.time_ctrl, State.ctl_ctrl, State.power_ctrl, State.boot_ctrl, State.prov_ctrl, State.pending_ctrl]
@[simp] theorem State.routeWrite_power (s : State) (v : W32) : (State.routeWrite s v).ctrl.power = s.ctrl.power := by
  unfold State.routeWrite
  (repeat' split) <;> simp [State.time_ctrl, State.ctl_ctrl, State.power_ctrl, State.boot_ctrl, State.prov_ctrl, State.pending_ctrl]
@[simp] theorem State.routeWrite_rest (s : State) (v : W32) : (State.routeWrite s v).ctrl.rest = s.ctrl.rest := by
  unfold State.routeWrite
  (repeat' split) <;> simp [State.time_ctrl, State.ctl_ctrl, State.power_ctrl, State.boot_ctrl, State.prov_ctrl, State.pending_ctrl]
@[simp] theorem State.regWriteLow_rest (s : State) (a : Nat) (v : W32) : (State.regWriteLow s a v).ctrl.rest = s.ctrl.rest := by
  unfold State.regWriteLow
  dsimp only
  (repeat' split) <;> simp [State.time_ctrl, State.ctl_ctrl, State.power_ctrl, State.boot_ctrl, State.prov_ctrl, State.pending_ctrl, ctrl_ite]
@[simp] theorem State.regWriteHigh_time (s : State) (a : Nat) (v : W32) : (State.regWriteHigh s a v).ctrl.time = s.ctrl.time := by
  unfold State.regWriteHigh
  dsimp only
  (repeat' split) <;> simp [State.time_ctrl, State.ctl_ctrl, State.power_ctrl, State.boot_ctrl, State.prov_ctrl, State.pending_ctrl, ctrl_ite]
@[simp] theorem State.regWriteHigh_rest (s : State) (a : Nat) (v : W32) : (State.regWriteHigh s a v).ctrl.rest = s.ctrl.rest := by
  unfold State.regWriteHigh
  dsimp only
  (repeat' split) <;> simp [State.time_ctrl, State.ctl_ctrl, State.power_ctrl, State.boot_ctrl, State.prov_ctrl, State.pending_ctrl, ctrl_ite]
@[simp] theorem State.closeSession_time (s : State) (why : BitVec 4) : (State.closeSession s why).ctrl.time = s.ctrl.time := by
  unfold State.closeSession
  dsimp only
  (repeat' split) <;> simp [State.time_ctrl, State.ctl_ctrl, State.power_ctrl, State.boot_ctrl, State.prov_ctrl, State.pending_ctrl, ctrl_ite]
@[simp] theorem State.closeSession_ctl (s : State) (why : BitVec 4) : (State.closeSession s why).ctrl.ctl = s.ctrl.ctl := by
  unfold State.closeSession
  dsimp only
  (repeat' split) <;> simp [State.time_ctrl, State.ctl_ctrl, State.power_ctrl, State.boot_ctrl, State.prov_ctrl, State.pending_ctrl, ctrl_ite]
@[simp] theorem State.closeSession_power (s : State) (why : BitVec 4) : (State.closeSession s why).ctrl.power = s.ctrl.power := by
  unfold State.closeSession
  dsimp only
  (repeat' split) <;> simp [State.time_ctrl, State.ctl_ctrl, State.power_ctrl, State.boot_ctrl, State.prov_ctrl, State.pending_ctrl, ctrl_ite]
@[simp] theorem State.closeSession_boot (s : State) (why : BitVec 4) : (State.closeSession s why).ctrl.rest.1 = s.ctrl.rest.1 := by
  unfold State.closeSession
  dsimp only
  (repeat' split) <;> simp [State.time_ctrl, State.ctl_ctrl, State.power_ctrl, State.boot_ctrl, State.prov_ctrl, State.pending_ctrl, ctrl_ite]
@[simp] theorem State.closeSession_pending (s : State) (why : BitVec 4) : (State.closeSession s why).ctrl.rest.2.2 = s.ctrl.rest.2.2 := by
  unfold State.closeSession
  dsimp only
  (repeat' split) <;> simp [State.time_ctrl, State.ctl_ctrl, State.power_ctrl, State.boot_ctrl, State.prov_ctrl, State.pending_ctrl, ctrl_ite]
@[simp] theorem State.endSession_time (s : State) (why : BitVec 4) : (State.endSession s why).ctrl.time = s.ctrl.time := by
  unfold State.endSession
  (repeat' split) <;> simp [State.time_ctrl, State.ctl_ctrl, State.power_ctrl, State.boot_ctrl, State.prov_ctrl, State.pending_ctrl]
@[simp] theorem State.endSession_ctl (s : State) (why : BitVec 4) : (State.endSession s why).ctrl.ctl = s.ctrl.ctl := by
  unfold State.endSession
  (repeat' split) <;> simp [State.time_ctrl, State.ctl_ctrl, State.power_ctrl, State.boot_ctrl, State.prov_ctrl, State.pending_ctrl]
@[simp] theorem State.endSession_power (s : State) (why : BitVec 4) : (State.endSession s why).ctrl.power = s.ctrl.power := by
  unfold State.endSession
  (repeat' split) <;> simp [State.time_ctrl, State.ctl_ctrl, State.power_ctrl, State.boot_ctrl, State.prov_ctrl, State.pending_ctrl]
@[simp] theorem State.endSession_boot (s : State) (why : BitVec 4) : (State.endSession s why).ctrl.rest.1 = s.ctrl.rest.1 := by
  unfold State.endSession
  (repeat' split) <;> simp [State.time_ctrl, State.ctl_ctrl, State.power_ctrl, State.boot_ctrl, State.prov_ctrl, State.pending_ctrl]
@[simp] theorem State.endSession_pending (s : State) (why : BitVec 4) : (State.endSession s why).ctrl.rest.2.2 = s.ctrl.rest.2.2 := by
  unfold State.endSession
  (repeat' split) <;> simp [State.time_ctrl, State.ctl_ctrl, State.power_ctrl, State.boot_ctrl, State.prov_ctrl, State.pending_ctrl]
@[simp] theorem State.scrubStaging_ctrl (s : State) : (State.scrubStaging s).ctrl = s.ctrl := by
  unfold State.scrubStaging
  (repeat' (first | rfl | intro _ _ | rw [State.foldl_ctrl] | split)) <;> simp [State.time_ctrl, State.ctl_ctrl, State.power_ctrl, State.boot_ctrl, State.prov_ctrl, State.pending_ctrl, ctrl_ite]
theorem State.unlock_keeps {β : Type} (g : Ctrl → β) (hg : ∀ (s : State) p, g ({ s with prov := p } : State).ctrl = g s.ctrl)
    (hd : ∀ (s : State) p, g (s.disablePort p).ctrl = g s.ctrl) (s : State) : g (State.unlock s).ctrl = g s.ctrl := by
  unfold State.unlock
  generalize List.range 40 = l
  dsimp only
  rw [hg, State.scrubStaging_ctrl]
  exact (congrArg g (State.foldl_keeps State.ctrl (fun s p => s.modPort p _) (fun _ _ => rfl) l _)).trans
    (State.foldl_keeps (fun s => g s.ctrl) _ (fun s p => hd s p) l s)
@[simp] theorem State.unlock_time (s : State) : (State.unlock s).ctrl.time = s.ctrl.time := State.unlock_keeps (·.time) (fun _ _ => rfl) (by simp) s
@[simp] theorem State.unlock_ctl (s : State) : (State.unlock s).ctrl.ctl = s.ctrl.ctl := State.unlock_keeps (·.ctl) (fun _ _ => rfl) (by simp) s
@[simp] theorem State.unlock_boot (s : State) : (State.unlock s).ctrl.rest.1 = s.ctrl.rest.1 := State.unlock_keeps (·.rest.1) (fun _ _ => rfl) (by simp) s
@[simp] theorem State.unlock_pending (s : State) : (State.unlock s).ctrl.rest.2.2 = s.ctrl.rest.2.2 := State.unlock_keeps (·.rest.2.2) (fun _ _ => rfl) (by simp) s
@[simp] theorem State.provCtlWrite_time (s : State) (v : W32) : (State.provCtlWrite s v).ctrl.time = s.ctrl.time := by
  unfold State.provCtlWrite
  dsimp only
  (repeat' split) <;> simp [State.time_ctrl, State.ctl_ctrl, State.power_ctrl, State.boot_ctrl, State.prov_ctrl, State.pending_ctrl]
@[simp] theorem State.provCtlWrite_boot (s : State) (v : W32) : (State.provCtlWrite s v).ctrl.rest.1 = s.ctrl.rest.1 := by
  unfold State.provCtlWrite
  dsimp only
  (repeat' split) <;> simp [State.time_ctrl, State.ctl_ctrl, State.power_ctrl, State.boot_ctrl, State.prov_ctrl, State.pending_ctrl]
@[simp] theorem State.provCtlWrite_pending (s : State) (v : W32) : (State.provCtlWrite s v).ctrl.rest.2.2 = s.ctrl.rest.2.2 := by
  unfold State.provCtlWrite
  dsimp only
  (repeat' split) <;> simp [State.time_ctrl, State.ctl_ctrl, State.power_ctrl, State.boot_ctrl, State.prov_ctrl, State.pending_ctrl]
@[simp] theorem State.pressed_ctl (s : State) : (State.pressed s).ctrl.ctl = s.ctrl.ctl := by
  unfold State.pressed
  (repeat' split) <;> simp [State.time_ctrl, State.ctl_ctrl, State.power_ctrl, State.boot_ctrl, State.prov_ctrl, State.pending_ctrl]
@[simp] theorem State.pressed_power (s : State) : (State.pressed s).ctrl.power = s.ctrl.power := by
  unfold State.pressed
  (repeat' split) <;> simp [State.time_ctrl, State.ctl_ctrl, State.power_ctrl, State.boot_ctrl, State.prov_ctrl, State.pending_ctrl]
@[simp] theorem State.pressed_boot (s : State) : (State.pressed s).ctrl.rest.1 = s.ctrl.rest.1 := by
  unfold State.pressed
  (repeat' split) <;> simp [State.time_ctrl, State.ctl_ctrl, State.power_ctrl, State.boot_ctrl, State.prov_ctrl, State.pending_ctrl]
@[simp] theorem State.pressed_pending (s : State) : (State.pressed s).ctrl.rest.2.2 = s.ctrl.rest.2.2 := by
  unfold State.pressed
  (repeat' split) <;> simp [State.time_ctrl, State.ctl_ctrl, State.power_ctrl, State.boot_ctrl, State.prov_ctrl, State.pending_ctrl]
@[simp] theorem State.requestExpires_ctl (s : State) : (State.requestExpires s).ctrl.ctl = s.ctrl.ctl := by
  unfold State.requestExpires
  (repeat' split) <;> simp
@[simp] theorem State.requestExpires_power (s : State) : (State.requestExpires s).ctrl.power = s.ctrl.power := by
  unfold State.requestExpires
  (repeat' split) <;> simp
@[simp] theorem State.requestExpires_boot (s : State) : (State.requestExpires s).ctrl.rest.1 = s.ctrl.rest.1 := by
  unfold State.requestExpires
  (repeat' split) <;> simp
@[simp] theorem State.requestExpires_pending (s : State) : (State.requestExpires s).ctrl.rest.2.2 = s.ctrl.rest.2.2 := by
  unfold State.requestExpires
  (repeat' split) <;> simp
@[simp] theorem State.jumper_time (s : State) (high : Bool) : (State.jumper s high).ctrl.time = s.ctrl.time := by
  unfold State.jumper
  (repeat' split) <;> simp [State.time_ctrl, State.ctl_ctrl, State.power_ctrl, State.boot_ctrl, State.prov_ctrl, State.pending_ctrl]
@[simp] theorem State.jumper_ctl (s : State) (high : Bool) : (State.jumper s high).ctrl.ctl = s.ctrl.ctl := by
  unfold State.jumper
  (repeat' split) <;> simp [State.time_ctrl, State.ctl_ctrl, State.power_ctrl, State.boot_ctrl, State.prov_ctrl, State.pending_ctrl]
@[simp] theorem State.jumper_power (s : State) (high : Bool) : (State.jumper s high).ctrl.power = s.ctrl.power := by
  unfold State.jumper
  (repeat' split) <;> simp [State.time_ctrl, State.ctl_ctrl, State.power_ctrl, State.boot_ctrl, State.prov_ctrl, State.pending_ctrl]
@[simp] theorem State.jumper_boot (s : State) (high : Bool) : (State.jumper s high).ctrl.rest.1 = s.ctrl.rest.1 := by
  unfold State.jumper
  (repeat' split) <;> simp [State.time_ctrl, State.ctl_ctrl, State.power_ctrl, State.boot_ctrl, State.prov_ctrl, State.pending_ctrl]
@[simp] theorem State.jumper_pending (s : State) (high : Bool) : (State.jumper s high).ctrl.rest.2.2 = s.ctrl.rest.2.2 := by
  unfold State.jumper
  (repeat' split) <;> simp [State.time_ctrl, State.ctl_ctrl, State.power_ctrl, State.boot_ctrl, State.prov_ctrl, State.pending_ctrl]
@[simp] theorem State.sealCompare_time (s : State) (b : Bool) : (State.sealCompare s b).ctrl.time = s.ctrl.time := rfl
@[simp] theorem State.sealCompare_ctl (s : State) (b : Bool) : (State.sealCompare s b).ctrl.ctl = s.ctrl.ctl := rfl
@[simp] theorem State.sealCompare_power (s : State) (b : Bool) : (State.sealCompare s b).ctrl.power = s.ctrl.power := rfl
@[simp] theorem State.sealCompare_boot (s : State) (b : Bool) : (State.sealCompare s b).ctrl.rest.1 = s.ctrl.rest.1 := rfl
@[simp] theorem State.sealCompare_pending (s : State) (b : Bool) : (State.sealCompare s b).ctrl.rest.2.2 = s.ctrl.rest.2.2 := rfl
@[simp] theorem State.sealBreaks_time (s : State) : (State.sealBreaks s).ctrl.time = s.ctrl.time := by
  unfold State.sealBreaks
  (repeat' split) <;> simp [State.time_ctrl, State.ctl_ctrl, State.power_ctrl, State.boot_ctrl, State.prov_ctrl, State.pending_ctrl]
@[simp] theorem State.sealBreaks_ctl (s : State) : (State.sealBreaks s).ctrl.ctl = s.ctrl.ctl := by
  unfold State.sealBreaks
  (repeat' split) <;> simp [State.time_ctrl, State.ctl_ctrl, State.power_ctrl, State.boot_ctrl, State.prov_ctrl, State.pending_ctrl]
@[simp] theorem State.sealBreaks_power (s : State) : (State.sealBreaks s).ctrl.power = s.ctrl.power := by
  unfold State.sealBreaks
  (repeat' split) <;> simp [State.time_ctrl, State.ctl_ctrl, State.power_ctrl, State.boot_ctrl, State.prov_ctrl, State.pending_ctrl]
@[simp] theorem State.sealBreaks_pending (s : State) : (State.sealBreaks s).ctrl.rest.2.2 = s.ctrl.rest.2.2 := by
  unfold State.sealBreaks
  (repeat' split) <;> simp [State.time_ctrl, State.ctl_ctrl, State.power_ctrl, State.boot_ctrl, State.prov_ctrl, State.pending_ctrl]
@[simp] theorem State.policyWrite_time (s : State) (v : W32) : (State.policyWrite s v).ctrl.time = s.ctrl.time := by
  unfold State.policyWrite
  dsimp only
  (repeat' split) <;> simp [State.time_ctrl, State.ctl_ctrl, State.power_ctrl, State.boot_ctrl, State.prov_ctrl, State.pending_ctrl, ctrl_ite]
@[simp] theorem State.policyWrite_power (s : State) (v : W32) : (State.policyWrite s v).ctrl.power = s.ctrl.power := by
  unfold State.policyWrite
  dsimp only
  (repeat' split) <;> simp [State.time_ctrl, State.ctl_ctrl, State.power_ctrl, State.boot_ctrl, State.prov_ctrl, State.pending_ctrl, ctrl_ite]
@[simp] theorem State.policyWrite_boot (s : State) (v : W32) : (State.policyWrite s v).ctrl.rest.1 = s.ctrl.rest.1 := by
  unfold State.policyWrite
  dsimp only
  (repeat' split) <;> simp [State.time_ctrl, State.ctl_ctrl, State.power_ctrl, State.boot_ctrl, State.prov_ctrl, State.pending_ctrl, ctrl_ite]
@[simp] theorem State.policyWrite_pending (s : State) (v : W32) : (State.policyWrite s v).ctrl.rest.2.2 = s.ctrl.rest.2.2 := by
  unfold State.policyWrite
  dsimp only
  (repeat' split) <;> simp [State.time_ctrl, State.ctl_ctrl, State.power_ctrl, State.boot_ctrl, State.prov_ctrl, State.pending_ctrl, ctrl_ite]
@[simp] theorem State.nvmAddrWrite_time (s : State) (v : W32) : (State.nvmAddrWrite s v).ctrl.time = s.ctrl.time := by
  unfold State.nvmAddrWrite
  (repeat' split) <;> simp [State.time_ctrl, State.ctl_ctrl, State.power_ctrl, State.boot_ctrl, State.prov_ctrl, State.pending_ctrl]
@[simp] theorem State.nvmAddrWrite_power (s : State) (v : W32) : (State.nvmAddrWrite s v).ctrl.power = s.ctrl.power := by
  unfold State.nvmAddrWrite
  (repeat' split) <;> simp [State.time_ctrl, State.ctl_ctrl, State.power_ctrl, State.boot_ctrl, State.prov_ctrl, State.pending_ctrl]
@[simp] theorem State.nvmAddrWrite_boot (s : State) (v : W32) : (State.nvmAddrWrite s v).ctrl.rest.1 = s.ctrl.rest.1 := by
  unfold State.nvmAddrWrite
  (repeat' split) <;> simp [State.time_ctrl, State.ctl_ctrl, State.power_ctrl, State.boot_ctrl, State.prov_ctrl, State.pending_ctrl]
@[simp] theorem State.nvmAddrWrite_pending (s : State) (v : W32) : (State.nvmAddrWrite s v).ctrl.rest.2.2 = s.ctrl.rest.2.2 := by
  unfold State.nvmAddrWrite
  (repeat' split) <;> simp [State.time_ctrl, State.ctl_ctrl, State.power_ctrl, State.boot_ctrl, State.prov_ctrl, State.pending_ctrl]
@[simp] theorem State.nvmDataPut_time (s : State) (v : W32) : (State.nvmDataPut s v).ctrl.time = s.ctrl.time := by
  unfold State.nvmDataPut
  (repeat' split) <;> simp [State.time_ctrl, State.ctl_ctrl, State.power_ctrl, State.boot_ctrl, State.prov_ctrl, State.pending_ctrl]
@[simp] theorem State.nvmDataPut_power (s : State) (v : W32) : (State.nvmDataPut s v).ctrl.power = s.ctrl.power := by
  unfold State.nvmDataPut
  (repeat' split) <;> simp [State.time_ctrl, State.ctl_ctrl, State.power_ctrl, State.boot_ctrl, State.prov_ctrl, State.pending_ctrl]
@[simp] theorem State.nvmDataPut_boot (s : State) (v : W32) : (State.nvmDataPut s v).ctrl.rest.1 = s.ctrl.rest.1 := by
  unfold State.nvmDataPut
  (repeat' split) <;> simp [State.time_ctrl, State.ctl_ctrl, State.power_ctrl, State.boot_ctrl, State.prov_ctrl, State.pending_ctrl]
@[simp] theorem State.nvmDataPut_pending (s : State) (v : W32) : (State.nvmDataPut s v).ctrl.rest.2.2 = s.ctrl.rest.2.2 := by
  unfold State.nvmDataPut
  (repeat' split) <;> simp [State.time_ctrl, State.ctl_ctrl, State.power_ctrl, State.boot_ctrl, State.prov_ctrl, State.pending_ctrl]
@[simp] theorem State.nvmDataGet_time (s : State) (devWord : W32) : (State.nvmDataGet s devWord).ctrl.time = s.ctrl.time := by
  unfold State.nvmDataGet
  (repeat' split) <;> simp [State.time_ctrl, State.ctl_ctrl, State.power_ctrl, State.boot_ctrl, State.prov_ctrl, State.pending_ctrl]
@[simp] theorem State.nvmDataGet_power (s : State) (devWord : W32) : (State.nvmDataGet s devWord).ctrl.power = s.ctrl.power := by
  unfold State.nvmDataGet
  (repeat' split) <;> simp [State.time_ctrl, State.ctl_ctrl, State.power_ctrl, State.boot_ctrl, State.prov_ctrl, State.pending_ctrl]
@[simp] theorem State.nvmDataGet_boot (s : State) (devWord : W32) : (State.nvmDataGet s devWord).ctrl.rest.1 = s.ctrl.rest.1 := by
  unfold State.nvmDataGet
  (repeat' split) <;> simp [State.time_ctrl, State.ctl_ctrl, State.power_ctrl, State.boot_ctrl, State.prov_ctrl, State.pending_ctrl]
@[simp] theorem State.nvmDataGet_pending (s : State) (devWord : W32) : (State.nvmDataGet s devWord).ctrl.rest.2.2 = s.ctrl.rest.2.2 := by
  unfold State.nvmDataGet
  (repeat' split) <;> simp [State.time_ctrl, State.ctl_ctrl, State.power_ctrl, State.boot_ctrl, State.prov_ctrl, State.pending_ctrl]
@[simp] theorem State.nvmCmdWrite_time (s : State) (v : W32) : (State.nvmCmdWrite s v).ctrl.time = s.ctrl.time := by
  unfold State.nvmCmdWrite
  dsimp only
  (repeat' split) <;> simp [State.time_ctrl, State.ctl_ctrl, State.power_ctrl, State.boot_ctrl, State.prov_ctrl, State.pending_ctrl, ctrl_ite]
@[simp] theorem State.nvmCmdWrite_power (s : State) (v : W32) : (State.nvmCmdWrite s v).ctrl.power = s.ctrl.power := by
  unfold State.nvmCmdWrite
  dsimp only
  (repeat' split) <;> simp [State.time_ctrl, State.ctl_ctrl, State.power_ctrl, State.boot_ctrl, State.prov_ctrl, State.pending_ctrl, ctrl_ite]
@[simp] theorem State.nvmCmdWrite_boot (s : State) (v : W32) : (State.nvmCmdWrite s v).ctrl.rest.1 = s.ctrl.rest.1 := by
  unfold State.nvmCmdWrite
  dsimp only
  (repeat' split) <;> simp [State.time_ctrl, State.ctl_ctrl, State.power_ctrl, State.boot_ctrl, State.prov_ctrl, State.pending_ctrl, ctrl_ite]
@[simp] theorem State.nvmCmdWrite_pending (s : State) (v : W32) : (State.nvmCmdWrite s v).ctrl.rest.2.2 = s.ctrl.rest.2.2 := by
  unfold State.nvmCmdWrite
  dsimp only
  (repeat' split) <;> simp [State.time_ctrl, State.ctl_ctrl, State.power_ctrl, State.boot_ctrl, State.prov_ctrl, State.pending_ctrl, ctrl_ite]
theorem State.closeSession_keeps {β : Type} (g : Ctrl → β) (hg : ∀ (s : State) p, g ({ s with prov := p } : State).ctrl = g s.ctrl) (s : State) (w : BitVec 4) : g (State.closeSession s w).ctrl = g s.ctrl := by
  unfold State.closeSession
  generalize List.range 40 = l
  dsimp only
  split
  · refine (State.foldl_keeps (fun s => g s.ctrl) _ (fun s p => congrArg g (State.series_ctrl s p)) _ _).trans (hg _ _)
  · exact hg _ _
theorem State.nvmDone_keeps {β : Type} (g : Ctrl → β) (hg : ∀ (s : State) p, g ({ s with prov := p } : State).ctrl = g s.ctrl) (s : State) (w : Bool) : g (State.nvmDone s w).ctrl = g s.ctrl := by
  unfold State.nvmDone
  generalize List.replicate 256 (0xFF : Byte) = l
  dsimp only
  split
  · rfl
  · split
    · exact (State.closeSession_keeps g hg _ _).trans (hg _ _)
    · exact hg _ _
@[simp] theorem State.nvmDone_time (s : State) (ok : Bool) : (State.nvmDone s ok).ctrl.time = s.ctrl.time := State.nvmDone_keeps (·.time) (fun _ _ => rfl) s ok
@[simp] theorem State.nvmDone_ctl (s : State) (ok : Bool) : (State.nvmDone s ok).ctrl.ctl = s.ctrl.ctl := State.nvmDone_keeps (·.ctl) (fun _ _ => rfl) s ok
@[simp] theorem State.nvmDone_power (s : State) (ok : Bool) : (State.nvmDone s ok).ctrl.power = s.ctrl.power := State.nvmDone_keeps (·.power) (fun _ _ => rfl) s ok
@[simp] theorem State.nvmDone_boot (s : State) (ok : Bool) : (State.nvmDone s ok).ctrl.rest.1 = s.ctrl.rest.1 := State.nvmDone_keeps (·.rest.1) (fun _ _ => rfl) s ok
@[simp] theorem State.nvmDone_pending (s : State) (ok : Bool) : (State.nvmDone s ok).ctrl.rest.2.2 = s.ctrl.rest.2.2 := State.nvmDone_keeps (·.rest.2.2) (fun _ _ => rfl) s ok
@[simp] theorem State.discover_time (s : State) (d : Sfdp) : (State.discover s d).ctrl.time = s.ctrl.time := rfl
@[simp] theorem State.discover_ctl (s : State) (d : Sfdp) : (State.discover s d).ctrl.ctl = s.ctrl.ctl := rfl
@[simp] theorem State.discover_power (s : State) (d : Sfdp) : (State.discover s d).ctrl.power = s.ctrl.power := rfl
@[simp] theorem State.discover_pending (s : State) (d : Sfdp) : (State.discover s d).ctrl.rest.2.2 = s.ctrl.rest.2.2 := rfl
@[simp] theorem State.applyPorts_ctrl (s : State) (b : List Byte) : (State.applyPorts s b).ctrl = s.ctrl := by
  unfold State.applyPorts
  dsimp only
  rw [State.foldl_ctrl _ (fun s a => by simp)]
@[simp] theorem State.applyImage_time (s : State) (cs : List Comp) (bytes : List (List Byte)) : (State.applyImage s cs bytes).ctrl.time = s.ctrl.time := by simp [State.applyImage, State.time_ctrl, State.ctl_ctrl, State.power_ctrl, State.boot_ctrl, State.prov_ctrl, State.pending_ctrl]
@[simp] theorem State.applyImage_prov (s : State) (cs : List Comp) (bytes : List (List Byte)) : (State.applyImage s cs bytes).ctrl.rest.2.1 = s.ctrl.rest.2.1 := by simp [State.applyImage, State.time_ctrl, State.ctl_ctrl, State.power_ctrl, State.boot_ctrl, State.prov_ctrl, State.pending_ctrl]
@[simp] theorem State.applyImage_pending (s : State) (cs : List Comp) (bytes : List (List Byte)) : (State.applyImage s cs bytes).ctrl.rest.2.2 = s.ctrl.rest.2.2 := by simp [State.applyImage, State.time_ctrl, State.ctl_ctrl, State.power_ctrl, State.boot_ctrl, State.prov_ctrl, State.pending_ctrl]
@[simp] theorem State.unapply_time (s : State) : (State.unapply s).ctrl.time = s.ctrl.time := rfl
@[simp] theorem State.unapply_prov (s : State) : (State.unapply s).ctrl.rest.2.1 = s.ctrl.rest.2.1 := rfl
@[simp] theorem State.unapply_pending (s : State) : (State.unapply s).ctrl.rest.2.2 = s.ctrl.rest.2.2 := rfl
@[simp] theorem State.slotFails_time (s : State) (reason : BitVec 4) (comp : BitVec 4) : (State.slotFails s reason comp).ctrl.time = s.ctrl.time := by
  unfold State.slotFails
  dsimp only
  (repeat' split) <;> simp [State.time_ctrl, State.ctl_ctrl, State.power_ctrl, State.boot_ctrl, State.prov_ctrl, State.pending_ctrl, ctrl_ite]
@[simp] theorem State.slotFails_prov (s : State) (reason : BitVec 4) (comp : BitVec 4) : (State.slotFails s reason comp).ctrl.rest.2.1 = s.ctrl.rest.2.1 := by
  unfold State.slotFails
  dsimp only
  (repeat' split) <;> simp [State.time_ctrl, State.ctl_ctrl, State.power_ctrl, State.boot_ctrl, State.prov_ctrl, State.pending_ctrl, ctrl_ite]
@[simp] theorem State.slotFails_pending (s : State) (reason : BitVec 4) (comp : BitVec 4) : (State.slotFails s reason comp).ctrl.rest.2.2 = s.ctrl.rest.2.2 := by
  unfold State.slotFails
  dsimp only
  (repeat' split) <;> simp [State.time_ctrl, State.ctl_ctrl, State.power_ctrl, State.boot_ctrl, State.prov_ctrl, State.pending_ctrl, ctrl_ite]
@[simp] theorem State.headerRead_time (s : State) (b : List Byte) : (State.headerRead s b).ctrl.time = s.ctrl.time := by
  unfold State.headerRead
  dsimp only
  (repeat' split) <;> simp [State.time_ctrl, State.ctl_ctrl, State.power_ctrl, State.boot_ctrl, State.prov_ctrl, State.pending_ctrl, ctrl_ite]
@[simp] theorem State.headerRead_prov (s : State) (b : List Byte) : (State.headerRead s b).ctrl.rest.2.1 = s.ctrl.rest.2.1 := by
  unfold State.headerRead
  dsimp only
  (repeat' split) <;> simp [State.time_ctrl, State.ctl_ctrl, State.power_ctrl, State.boot_ctrl, State.prov_ctrl, State.pending_ctrl, ctrl_ite]
@[simp] theorem State.headerRead_pending (s : State) (b : List Byte) : (State.headerRead s b).ctrl.rest.2.2 = s.ctrl.rest.2.2 := by
  unfold State.headerRead
  dsimp only
  (repeat' split) <;> simp [State.time_ctrl, State.ctl_ctrl, State.power_ctrl, State.boot_ctrl, State.prov_ctrl, State.pending_ctrl, ctrl_ite]
@[simp] theorem State.bootHeader_time (s : State) (d : Sfdp) (b : List Byte) : (State.bootHeader s d b).ctrl.time = s.ctrl.time := by
  unfold State.bootHeader
  (repeat' split) <;> simp [State.time_ctrl, State.ctl_ctrl, State.power_ctrl, State.boot_ctrl, State.prov_ctrl, State.pending_ctrl]
@[simp] theorem State.bootHeader_pending (s : State) (d : Sfdp) (b : List Byte) : (State.bootHeader s d b).ctrl.rest.2.2 = s.ctrl.rest.2.2 := by
  unfold State.bootHeader
  (repeat' split) <;> simp [State.time_ctrl, State.ctl_ctrl, State.power_ctrl, State.boot_ctrl, State.prov_ctrl, State.pending_ctrl]
theorem State.bootComponents_keeps {β : Type} (g : Ctrl → β) (hf : ∀ (s : State) r c, g (s.slotFails r c).ctrl = g s.ctrl) (ha : ∀ (s : State) cs bs, g (s.applyImage cs bs).ctrl = g s.ctrl)
    (hb : ∀ (s : State) x, g ({ s with boot := x } : State).ctrl = g s.ctrl)
    (s : State) (bytes : List (List Byte)) : g (State.bootComponents s bytes).ctrl = g s.ctrl := by
  unfold State.bootComponents
  split
  · exact hf _ _ _
  · dsimp only
    rw [hb, ha]
@[simp] theorem State.bootComponents_time (s : State) (bytes : List (List Byte)) : (State.bootComponents s bytes).ctrl.time = s.ctrl.time := State.bootComponents_keeps (·.time) (State.slotFails_time · · ·) (State.applyImage_time · · ·) (fun _ _ => rfl) s bytes
@[simp] theorem State.bootComponents_prov (s : State) (bytes : List (List Byte)) : (State.bootComponents s bytes).ctrl.rest.2.1 = s.ctrl.rest.2.1 := State.bootComponents_keeps (·.rest.2.1) (State.slotFails_prov · · ·) (State.applyImage_prov · · ·) (fun _ _ => rfl) s bytes
@[simp] theorem State.bootComponents_pending (s : State) (bytes : List (List Byte)) : (State.bootComponents s bytes).ctrl.rest.2.2 = s.ctrl.rest.2.2 := State.bootComponents_keeps (·.rest.2.2) (State.slotFails_pending · · ·) (State.applyImage_pending · · ·) (fun _ _ => rfl) s bytes
@[simp] theorem State.bootAlign_ctl (s : State) : (State.bootAlign s).ctrl.ctl = s.ctrl.ctl := by
  unfold State.bootAlign
  dsimp only
  rw [State.foldl_keeps (·.ctrl.ctl) _ (fun s a => by simp)]
  try simp [State.time_ctrl, State.ctl_ctrl, State.power_ctrl, State.boot_ctrl, State.prov_ctrl, State.pending_ctrl]
@[simp] theorem State.bootAlign_prov (s : State) : (State.bootAlign s).ctrl.rest.2.1 = s.ctrl.rest.2.1 := by
  unfold State.bootAlign
  dsimp only
  rw [State.foldl_keeps (·.ctrl.rest.2.1) _ (fun s a => by simp)]
  try simp [State.time_ctrl, State.ctl_ctrl, State.power_ctrl, State.boot_ctrl, State.prov_ctrl, State.pending_ctrl]
@[simp] theorem State.bootAlign_pending (s : State) : (State.bootAlign s).ctrl.rest.2.2 = s.ctrl.rest.2.2 := by
  unfold State.bootAlign
  dsimp only
  rw [State.foldl_keeps (·.ctrl.rest.2.2) _ (fun s a => by simp)]
  try simp [State.time_ctrl, State.ctl_ctrl, State.power_ctrl, State.boot_ctrl, State.prov_ctrl, State.pending_ctrl]
@[simp] theorem State.bootTrain_time (s : State) : (State.bootTrain s).ctrl.time = s.ctrl.time := by
  unfold State.bootTrain
  dsimp only
  (repeat' split) <;> simp [State.time_ctrl, State.ctl_ctrl, State.power_ctrl, State.boot_ctrl, State.prov_ctrl, State.pending_ctrl, ctrl_ite]
@[simp] theorem State.bootTrain_ctl (s : State) : (State.bootTrain s).ctrl.ctl = s.ctrl.ctl := by
  unfold State.bootTrain
  dsimp only
  (repeat' split) <;> simp [State.time_ctrl, State.ctl_ctrl, State.power_ctrl, State.boot_ctrl, State.prov_ctrl, State.pending_ctrl, ctrl_ite]
@[simp] theorem State.bootTrain_power (s : State) : (State.bootTrain s).ctrl.power = s.ctrl.power := by
  unfold State.bootTrain
  dsimp only
  (repeat' split) <;> simp [State.time_ctrl, State.ctl_ctrl, State.power_ctrl, State.boot_ctrl, State.prov_ctrl, State.pending_ctrl, ctrl_ite]
@[simp] theorem State.bootTrain_prov (s : State) : (State.bootTrain s).ctrl.rest.2.1 = s.ctrl.rest.2.1 := by
  unfold State.bootTrain
  dsimp only
  (repeat' split) <;> simp [State.time_ctrl, State.ctl_ctrl, State.power_ctrl, State.boot_ctrl, State.prov_ctrl, State.pending_ctrl, ctrl_ite]
@[simp] theorem State.bootTrain_pending (s : State) : (State.bootTrain s).ctrl.rest.2.2 = s.ctrl.rest.2.2 := by
  unfold State.bootTrain
  dsimp only
  (repeat' split) <;> simp [State.time_ctrl, State.ctl_ctrl, State.power_ctrl, State.boot_ctrl, State.prov_ctrl, State.pending_ctrl, ctrl_ite]
@[simp] theorem State.bootDone_time (s : State) : (State.bootDone s).ctrl.time = s.ctrl.time := rfl
@[simp] theorem State.bootDone_ctl (s : State) : (State.bootDone s).ctrl.ctl = s.ctrl.ctl := rfl
@[simp] theorem State.bootDone_power (s : State) : (State.bootDone s).ctrl.power = s.ctrl.power := rfl
@[simp] theorem State.bootDone_prov (s : State) : (State.bootDone s).ctrl.rest.2.1 = s.ctrl.rest.2.1 := rfl
@[simp] theorem State.bootDone_pending (s : State) : (State.bootDone s).ctrl.rest.2.2 = s.ctrl.rest.2.2 := rfl
@[simp] theorem State.bootStep_pending (s : State) (inp : BootInput) : (State.bootStep s inp).ctrl.rest.2.2 = s.ctrl.rest.2.2 := by
  unfold State.bootStep
  (repeat' split) <;> simp [State.time_ctrl, State.ctl_ctrl, State.power_ctrl, State.boot_ctrl, State.prov_ctrl, State.pending_ctrl]
@[simp] theorem State.alignTimeout_prov (s : State) : (State.alignTimeout s).ctrl.rest.2.1 = s.ctrl.rest.2.1 := by
  unfold State.alignTimeout
  (repeat' split) <;> simp
@[simp] theorem State.alignTimeout_pending (s : State) : (State.alignTimeout s).ctrl.rest.2.2 = s.ctrl.rest.2.2 := by
  unfold State.alignTimeout
  (repeat' split) <;> simp
@[simp] theorem State.bootCtlWrite_time (s : State) (v : W32) : (State.bootCtlWrite s v).ctrl.time = s.ctrl.time := by
  unfold State.bootCtlWrite
  (repeat' split) <;> simp [State.time_ctrl, State.ctl_ctrl, State.power_ctrl, State.boot_ctrl, State.prov_ctrl, State.pending_ctrl]
@[simp] theorem State.bootCtlWrite_prov (s : State) (v : W32) : (State.bootCtlWrite s v).ctrl.rest.2.1 = s.ctrl.rest.2.1 := by
  unfold State.bootCtlWrite
  (repeat' split) <;> simp [State.time_ctrl, State.ctl_ctrl, State.power_ctrl, State.boot_ctrl, State.prov_ctrl, State.pending_ctrl]
@[simp] theorem State.bootCtlWrite_pending (s : State) (v : W32) : (State.bootCtlWrite s v).ctrl.rest.2.2 = s.ctrl.rest.2.2 := by
  unfold State.bootCtlWrite
  (repeat' split) <;> simp [State.time_ctrl, State.ctl_ctrl, State.power_ctrl, State.boot_ctrl, State.prov_ctrl, State.pending_ctrl]
@[simp] theorem State.assertOver_ctl (s : State) : (State.assertOver s).ctrl.ctl = s.ctrl.ctl := rfl
@[simp] theorem State.assertOver_power (s : State) : (State.assertOver s).ctrl.power = s.ctrl.power := rfl
@[simp] theorem State.assertOver_rest (s : State) : (State.assertOver s).ctrl.rest = s.ctrl.rest := rfl
@[simp] theorem State.porReleased_power (s : State) (inst : BitVec 3) (mfr : BitVec 11) : (State.porReleased s inst mfr).ctrl.power = s.ctrl.power := by
  unfold State.porReleased
  (repeat' split) <;> simp [State.time_ctrl, State.ctl_ctrl, State.power_ctrl, State.boot_ctrl, State.prov_ctrl, State.pending_ctrl]
@[simp] theorem State.porReleased_prov (s : State) (inst : BitVec 3) (mfr : BitVec 11) : (State.porReleased s inst mfr).ctrl.rest.2.1 = s.ctrl.rest.2.1 := by
  unfold State.porReleased
  (repeat' split) <;> simp [State.time_ctrl, State.ctl_ctrl, State.power_ctrl, State.boot_ctrl, State.prov_ctrl, State.pending_ctrl]
@[simp] theorem State.porReleased_pending (s : State) (inst : BitVec 3) (mfr : BitVec 11) : (State.porReleased s inst mfr).ctrl.rest.2.2 = s.ctrl.rest.2.2 := by
  unfold State.porReleased
  (repeat' split) <;> simp [State.time_ctrl, State.ctl_ctrl, State.power_ctrl, State.boot_ctrl, State.prov_ctrl, State.pending_ctrl]
@[simp] theorem State.routeGet_time (s : State) : (State.routeGet s).ctrl.time = s.ctrl.time := rfl
@[simp] theorem State.routeGet_power (s : State) : (State.routeGet s).ctrl.power = s.ctrl.power := rfl
@[simp] theorem State.routeGet_rest (s : State) : (State.routeGet s).ctrl.rest = s.ctrl.rest := rfl
@[simp] theorem State.keyGet_time (s : State) : (State.keyGet s).ctrl.time = s.ctrl.time := by
  unfold State.keyGet
  (repeat' split) <;> simp [State.time_ctrl, State.ctl_ctrl, State.power_ctrl, State.boot_ctrl, State.prov_ctrl, State.pending_ctrl]
@[simp] theorem State.keyGet_power (s : State) : (State.keyGet s).ctrl.power = s.ctrl.power := by
  unfold State.keyGet
  (repeat' split) <;> simp [State.time_ctrl, State.ctl_ctrl, State.power_ctrl, State.boot_ctrl, State.prov_ctrl, State.pending_ctrl]
@[simp] theorem State.keyGet_rest (s : State) : (State.keyGet s).ctrl.rest = s.ctrl.rest := by
  unfold State.keyGet
  (repeat' split) <;> simp [State.time_ctrl, State.ctl_ctrl, State.power_ctrl, State.boot_ctrl, State.prov_ctrl, State.pending_ctrl]
@[simp] theorem State.flagAnswer_time (s : State) : (State.flagAnswer s).ctrl.time = s.ctrl.time := rfl
@[simp] theorem State.flagAnswer_power (s : State) : (State.flagAnswer s).ctrl.power = s.ctrl.power := rfl
@[simp] theorem State.flagAnswer_rest (s : State) : (State.flagAnswer s).ctrl.rest = s.ctrl.rest := rfl
@[simp] theorem State.flagGet_time (s : State) : (State.flagGet s).ctrl.time = s.ctrl.time := by
  unfold State.flagGet
  dsimp only
  (repeat' split) <;> simp_all [State.time_ctrl, State.ctl_ctrl, State.power_ctrl, State.boot_ctrl, State.prov_ctrl, State.pending_ctrl, ctrl_ite]
@[simp] theorem State.flagGet_rest (s : State) : (State.flagGet s).ctrl.rest = s.ctrl.rest := by
  unfold State.flagGet
  dsimp only
  (repeat' split) <;> simp_all [State.time_ctrl, State.ctl_ctrl, State.power_ctrl, State.boot_ctrl, State.prov_ctrl, State.pending_ctrl, ctrl_ite]
@[simp] theorem State.ymbGoes_time (s : State) : (State.ymbGoes s).ctrl.time = s.ctrl.time := by
  unfold State.ymbGoes
  (repeat' split) <;> simp
@[simp] theorem State.ymbGoes_rest (s : State) : (State.ymbGoes s).ctrl.rest = s.ctrl.rest := by
  unfold State.ymbGoes
  (repeat' split) <;> simp
@[simp] theorem State.quenchGet_time (s : State) : (State.quenchGet s).ctrl.time = s.ctrl.time := by
  unfold State.quenchGet
  dsimp only
  (repeat' split) <;> simp [State.time_ctrl, State.ctl_ctrl, State.power_ctrl, State.boot_ctrl, State.prov_ctrl, State.pending_ctrl, ctrl_ite]
@[simp] theorem State.quenchGet_power (s : State) : (State.quenchGet s).ctrl.power = s.ctrl.power := by
  unfold State.quenchGet
  dsimp only
  (repeat' split) <;> simp [State.time_ctrl, State.ctl_ctrl, State.power_ctrl, State.boot_ctrl, State.prov_ctrl, State.pending_ctrl, ctrl_ite]
@[simp] theorem State.quenchGet_rest (s : State) : (State.quenchGet s).ctrl.rest = s.ctrl.rest := by
  unfold State.quenchGet
  dsimp only
  (repeat' split) <;> simp [State.time_ctrl, State.ctl_ctrl, State.power_ctrl, State.boot_ctrl, State.prov_ctrl, State.pending_ctrl, ctrl_ite]
@[simp] theorem State.mboxGet_time (s : State) : (State.mboxGet s).ctrl.time = s.ctrl.time := by
  unfold State.mboxGet
  (repeat' split) <;> simp [State.time_ctrl, State.ctl_ctrl, State.power_ctrl, State.boot_ctrl, State.prov_ctrl, State.pending_ctrl]
@[simp] theorem State.mboxGet_power (s : State) : (State.mboxGet s).ctrl.power = s.ctrl.power := by
  unfold State.mboxGet
  (repeat' split) <;> simp [State.time_ctrl, State.ctl_ctrl, State.power_ctrl, State.boot_ctrl, State.prov_ctrl, State.pending_ctrl]
@[simp] theorem State.mboxGet_rest (s : State) : (State.mboxGet s).ctrl.rest = s.ctrl.rest := by
  unfold State.mboxGet
  (repeat' split) <;> simp [State.time_ctrl, State.ctl_ctrl, State.power_ctrl, State.boot_ctrl, State.prov_ctrl, State.pending_ctrl]
@[simp] theorem State.epochGet_power (s : State) : (State.epochGet s).ctrl.power = s.ctrl.power := rfl
@[simp] theorem State.epochGet_rest (s : State) : (State.epochGet s).ctrl.rest = s.ctrl.rest := rfl
@[simp] theorem State.profileGet_time (s : State) (clock : Bool) : (State.profileGet s clock).ctrl.time = s.ctrl.time := by
  unfold State.profileGet
  (repeat' split) <;> simp [State.time_ctrl, State.ctl_ctrl, State.power_ctrl, State.boot_ctrl, State.prov_ctrl, State.pending_ctrl]
@[simp] theorem State.profileGet_power (s : State) (clock : Bool) : (State.profileGet s clock).ctrl.power = s.ctrl.power := by
  unfold State.profileGet
  (repeat' split) <;> simp [State.time_ctrl, State.ctl_ctrl, State.power_ctrl, State.boot_ctrl, State.prov_ctrl, State.pending_ctrl]
@[simp] theorem State.profileGet_rest (s : State) (clock : Bool) : (State.profileGet s clock).ctrl.rest = s.ctrl.rest := by
  unfold State.profileGet
  (repeat' split) <;> simp [State.time_ctrl, State.ctl_ctrl, State.power_ctrl, State.boot_ctrl, State.prov_ctrl, State.pending_ctrl]
@[simp] theorem State.regWrite_pending (s : State) (a : Nat) (v : W32) : (State.regWrite s a v).ctrl.rest.2.2 = s.ctrl.rest.2.2 := by
  unfold State.regWrite
  (repeat' split) <;> simp [State.time_ctrl, State.ctl_ctrl, State.power_ctrl, State.boot_ctrl, State.prov_ctrl, State.pending_ctrl]
@[simp] theorem State.ymbWrite_pending (s : State) (a : Nat) (v : W32) : (State.ymbWrite s a v).ctrl.rest.2.2 = s.ctrl.rest.2.2 := by
  unfold State.ymbWrite State.ymbAt
  (repeat' split) <;> simp
@[simp] theorem State.pickPut_ctrl (s : State) (rid : BitVec 16) (a : Nat) (v : W32) : (State.pickPut s rid a v).ctrl = s.ctrl := by
  unfold State.pickPut
  dsimp only
  (repeat' split) <;> simp [State.time_ctrl, State.ctl_ctrl, State.power_ctrl, State.boot_ctrl, State.prov_ctrl, State.pending_ctrl, ctrl_ite]
@[simp] theorem State.pickWrite_ctrl (s : State) (addr : BitVec 17) (be : Byte) (rid : BitVec 16) (wdata : W64) : (State.pickWrite s addr be rid wdata).ctrl = s.ctrl := by
  unfold State.pickWrite
  dsimp only
  (repeat' split) <;> simp [State.time_ctrl, State.ctl_ctrl, State.power_ctrl, State.boot_ctrl, State.prov_ctrl, State.pending_ctrl, ctrl_ite]
theorem State.pickRead_keeps {β : Type} (g : Ctrl → β) (hg : ∀ (s : State) x, g ({ s with ctl := x } : State).ctrl = g s.ctrl) (s : State) (addr : BitVec 17) (be : Byte) (rid : BitVec 16)  : g (State.pickRead s addr be rid).ctrl = g s.ctrl := by
  unfold State.pickRead
  extract_lets a
  clear_value a
  split
  · extract_lets u
    have : u.ctrl = s.ctrl := State.pickReject_ctrl ..
    clear_value u
    rw [hg, this]
  · exact hg _ _
@[simp] theorem State.pickRead_time (s : State) (addr : BitVec 17) (be : Byte) (rid : BitVec 16) : (State.pickRead s addr be rid).ctrl.time = s.ctrl.time := State.pickRead_keeps (·.time) (fun _ _ => rfl) s addr be rid
@[simp] theorem State.pickRead_power (s : State) (addr : BitVec 17) (be : Byte) (rid : BitVec 16) : (State.pickRead s addr be rid).ctrl.power = s.ctrl.power := State.pickRead_keeps (·.power) (fun _ _ => rfl) s addr be rid
@[simp] theorem State.pickRead_rest (s : State) (addr : BitVec 17) (be : Byte) (rid : BitVec 16) : (State.pickRead s addr be rid).ctrl.rest = s.ctrl.rest := by
  unfold State.pickRead
  dsimp only
  (repeat' split) <;> simp [State.time_ctrl, State.ctl_ctrl, State.power_ctrl, State.boot_ctrl, State.prov_ctrl, State.pending_ctrl, ctrl_ite]
@[simp] theorem State.pickAt_ctrl (s : State) (f : State → State) (hf : ∀ t, (f t).ctrl = t.ctrl) : (State.pickAt s f).ctrl = s.ctrl := by
  unfold State.pickAt
  (repeat' split) <;> simp_all
theorem State.pageRow_keeps {β : Type} (g : Ctrl → β) (hp : ∀ s : State, g s.pumpAll.ctrl = g s.ctrl) (s : State) (rid : BitVec 16) (q : BitVec 12) (doorbell : Bool)
    (f : State → State) (hf : ∀ t, g (f t).ctrl = g t.ctrl) : g (State.pageRow s rid q doorbell f).ctrl = g s.ctrl := by
  unfold State.pageRow State.pickAt
  split
  · rw [hp]
    unfold State.pageWrite
    split
    · simp
    · exact hf _
  · rfl
@[simp] theorem State.pageRow_time (s : State) (rid : BitVec 16) (q : BitVec 12) (doorbell : Bool) (f : State → State) (hf : ∀ t, (f t).ctrl.time = t.ctrl.time) : (State.pageRow s rid q doorbell f).ctrl.time = s.ctrl.time := State.pageRow_keeps (·.time) (State.pumpAll_time ·) s rid q doorbell f hf
@[simp] theorem State.pageRow_ctl (s : State) (rid : BitVec 16) (q : BitVec 12) (doorbell : Bool) (f : State → State) (hf : ∀ t, (f t).ctrl.ctl = t.ctrl.ctl) : (State.pageRow s rid q doorbell f).ctrl.ctl = s.ctrl.ctl := State.pageRow_keeps (·.ctl) (State.pumpAll_ctl ·) s rid q doorbell f hf
@[simp] theorem State.pageRow_rest (s : State) (rid : BitVec 16) (q : BitVec 12) (doorbell : Bool) (f : State → State) (hf : ∀ t, (f t).ctrl.rest = t.ctrl.rest) : (State.pageRow s rid q doorbell f).ctrl.rest = s.ctrl.rest := State.pageRow_keeps (·.rest) (State.pumpAll_rest ·) s rid q doorbell f hf
@[simp] theorem State.linkRow_time (s : State) (f : State → State) (hf : ∀ t, (f t).ctrl.time = t.ctrl.time) : (State.linkRow s f).ctrl.time = s.ctrl.time := by
  unfold State.linkRow
  (repeat' split) <;> simp_all
@[simp] theorem State.linkRow_ctl (s : State) (f : State → State) (hf : ∀ t, (f t).ctrl.ctl = t.ctrl.ctl) : (State.linkRow s f).ctrl.ctl = s.ctrl.ctl := by
  unfold State.linkRow
  (repeat' split) <;> simp_all
@[simp] theorem State.linkRow_rest (s : State) (f : State → State) (hf : ∀ t, (f t).ctrl.rest = t.ctrl.rest) : (State.linkRow s f).ctrl.rest = s.ctrl.rest := by
  unfold State.linkRow
  (repeat' split) <;> simp_all
@[simp] theorem State.reprobe_ctl (s : State) (p : Nat) : (State.reprobe s p).ctrl.ctl = s.ctrl.ctl := by
  unfold State.reprobe
  dsimp only
  (repeat' split) <;> simp [State.time_ctrl, State.ctl_ctrl, State.power_ctrl, State.boot_ctrl, State.prov_ctrl, State.pending_ctrl, ctrl_ite]
@[simp] theorem State.reprobe_power (s : State) (p : Nat) : (State.reprobe s p).ctrl.power = s.ctrl.power := by
  unfold State.reprobe
  dsimp only
  (repeat' split) <;> simp [State.time_ctrl, State.ctl_ctrl, State.power_ctrl, State.boot_ctrl, State.prov_ctrl, State.pending_ctrl, ctrl_ite]
@[simp] theorem State.reprobe_rest (s : State) (p : Nat) : (State.reprobe s p).ctrl.rest = s.ctrl.rest := by
  unfold State.reprobe
  dsimp only
  (repeat' split) <;> simp [State.time_ctrl, State.ctl_ctrl, State.power_ctrl, State.boot_ctrl, State.prov_ctrl, State.pending_ctrl, ctrl_ite]
@[simp] theorem State.retrainFails_ctl (s : State) (p : Nat) : (State.retrainFails s p).ctrl.ctl = s.ctrl.ctl := by
  unfold State.retrainFails
  dsimp only
  (repeat' split) <;> simp [State.time_ctrl, State.ctl_ctrl, State.power_ctrl, State.boot_ctrl, State.prov_ctrl, State.pending_ctrl, ctrl_ite]
@[simp] theorem State.retrainFails_rest (s : State) (p : Nat) : (State.retrainFails s p).ctrl.rest = s.ctrl.rest := by
  unfold State.retrainFails
  dsimp only
  (repeat' split) <;> simp [State.time_ctrl, State.ctl_ctrl, State.power_ctrl, State.boot_ctrl, State.prov_ctrl, State.pending_ctrl, ctrl_ite]
@[simp] theorem State.ackStalls_ctl (s : State) (p : Nat) : (State.ackStalls s p).ctrl.ctl = s.ctrl.ctl := by
  unfold State.ackStalls
  dsimp only
  (repeat' split) <;> simp [State.time_ctrl, State.ctl_ctrl, State.power_ctrl, State.boot_ctrl, State.prov_ctrl, State.pending_ctrl, ctrl_ite]
@[simp] theorem State.ackStalls_rest (s : State) (p : Nat) : (State.ackStalls s p).ctrl.rest = s.ctrl.rest := by
  unfold State.ackStalls
  dsimp only
  (repeat' split) <;> simp [State.time_ctrl, State.ctl_ctrl, State.power_ctrl, State.boot_ctrl, State.prov_ctrl, State.pending_ctrl, ctrl_ite]
@[simp] theorem State.falls_ctl (s : State) (p : Nat) : (State.falls s p).ctrl.ctl = s.ctrl.ctl := by
  unfold State.falls
  dsimp only
  (repeat' split) <;> simp [State.time_ctrl, State.ctl_ctrl, State.power_ctrl, State.boot_ctrl, State.prov_ctrl, State.pending_ctrl, ctrl_ite]
@[simp] theorem State.falls_rest (s : State) (p : Nat) : (State.falls s p).ctrl.rest = s.ctrl.rest := by
  unfold State.falls
  dsimp only
  (repeat' split) <;> simp [State.time_ctrl, State.ctl_ctrl, State.power_ctrl, State.boot_ctrl, State.prov_ctrl, State.pending_ctrl, ctrl_ite]
@[simp] theorem State.lossDone_ctrl (s : State) (p : Nat) : (State.lossDone s p).ctrl = s.ctrl := by
  unfold State.lossDone
  (repeat' split) <;> simp
@[simp] theorem State.noteLanes_ctrl (s : State) (p : Nat) (f : Byte → Byte) : (State.noteLanes s p f).ctrl = s.ctrl := rfl
@[simp] theorem State.poisonIngot_time (s : State) (i : Nat) : (State.poisonIngot s i).ctrl.time = s.ctrl.time := by
  unfold State.poisonIngot
  dsimp only
  (repeat' split) <;> simp [State.time_ctrl, State.ctl_ctrl, State.power_ctrl, State.boot_ctrl, State.prov_ctrl, State.pending_ctrl, ctrl_ite]
@[simp] theorem State.poisonIngot_ctl (s : State) (i : Nat) : (State.poisonIngot s i).ctrl.ctl = s.ctrl.ctl := by
  unfold State.poisonIngot
  dsimp only
  (repeat' split) <;> simp [State.time_ctrl, State.ctl_ctrl, State.power_ctrl, State.boot_ctrl, State.prov_ctrl, State.pending_ctrl, ctrl_ite]
@[simp] theorem State.poisonIngot_rest (s : State) (i : Nat) : (State.poisonIngot s i).ctrl.rest = s.ctrl.rest := by
  unfold State.poisonIngot
  dsimp only
  (repeat' split) <;> simp [State.time_ctrl, State.ctl_ctrl, State.power_ctrl, State.boot_ctrl, State.prov_ctrl, State.pending_ctrl, ctrl_ite]
@[simp] theorem State.patrolFound_time (s : State) (i : Nat) : (State.patrolFound s i).ctrl.time = s.ctrl.time := by
  unfold State.patrolFound
  (repeat' split) <;> simp [State.time_ctrl, State.ctl_ctrl, State.power_ctrl, State.boot_ctrl, State.prov_ctrl, State.pending_ctrl]
@[simp] theorem State.patrolFound_ctl (s : State) (i : Nat) : (State.patrolFound s i).ctrl.ctl = s.ctrl.ctl := by
  unfold State.patrolFound
  (repeat' split) <;> simp [State.time_ctrl, State.ctl_ctrl, State.power_ctrl, State.boot_ctrl, State.prov_ctrl, State.pending_ctrl]
@[simp] theorem State.patrolFound_rest (s : State) (i : Nat) : (State.patrolFound s i).ctrl.rest = s.ctrl.rest := by
  unfold State.patrolFound
  (repeat' split) <;> simp [State.time_ctrl, State.ctl_ctrl, State.power_ctrl, State.boot_ctrl, State.prov_ctrl, State.pending_ctrl]
@[simp] theorem State.patrolLine_time (s : State) (l : Nat) : (State.patrolLine s l).ctrl.time = s.ctrl.time := by
  unfold State.patrolLine
  dsimp only
  (repeat' split) <;> simp [State.time_ctrl, State.ctl_ctrl, State.power_ctrl, State.boot_ctrl, State.prov_ctrl, State.pending_ctrl, ctrl_ite]
@[simp] theorem State.patrolLine_ctl (s : State) (l : Nat) : (State.patrolLine s l).ctrl.ctl = s.ctrl.ctl := by
  unfold State.patrolLine
  dsimp only
  (repeat' split) <;> simp [State.time_ctrl, State.ctl_ctrl, State.power_ctrl, State.boot_ctrl, State.prov_ctrl, State.pending_ctrl, ctrl_ite]
@[simp] theorem State.patrolLine_rest (s : State) (l : Nat) : (State.patrolLine s l).ctrl.rest = s.ctrl.rest := by
  unfold State.patrolLine
  dsimp only
  (repeat' split) <;> simp [State.time_ctrl, State.ctl_ctrl, State.power_ctrl, State.boot_ctrl, State.prov_ctrl, State.pending_ctrl, ctrl_ite]
@[simp] theorem State.patrolRun_ctl (s : State) (fs : List Flip) : (State.patrolRun s fs).ctrl.ctl = s.ctrl.ctl := by
  unfold State.patrolRun
  dsimp only
  (repeat' split) <;> simp [State.time_ctrl, State.ctl_ctrl, State.power_ctrl, State.boot_ctrl, State.prov_ctrl, State.pending_ctrl, ctrl_ite]
@[simp] theorem State.patrolRun_rest (s : State) (fs : List Flip) : (State.patrolRun s fs).ctrl.rest = s.ctrl.rest := by
  unfold State.patrolRun
  dsimp only
  (repeat' split) <;> simp [State.time_ctrl, State.ctl_ctrl, State.power_ctrl, State.boot_ctrl, State.prov_ctrl, State.pending_ctrl, ctrl_ite]
@[simp] theorem State.scrubOver_time (s : State) (n : Nat) : (State.scrubOver s n).ctrl.time = s.ctrl.time := by
  unfold State.scrubOver
  dsimp only
  (repeat' split) <;> simp [State.time_ctrl, State.ctl_ctrl, State.power_ctrl, State.boot_ctrl, State.prov_ctrl, State.pending_ctrl, ctrl_ite]
@[simp] theorem State.scrubOver_ctl (s : State) (n : Nat) : (State.scrubOver s n).ctrl.ctl = s.ctrl.ctl := by
  unfold State.scrubOver
  dsimp only
  (repeat' split) <;> simp [State.time_ctrl, State.ctl_ctrl, State.power_ctrl, State.boot_ctrl, State.prov_ctrl, State.pending_ctrl, ctrl_ite]
@[simp] theorem State.scrubOver_rest (s : State) (n : Nat) : (State.scrubOver s n).ctrl.rest = s.ctrl.rest := by
  unfold State.scrubOver
  dsimp only
  (repeat' split) <;> simp [State.time_ctrl, State.ctl_ctrl, State.power_ctrl, State.boot_ctrl, State.prov_ctrl, State.pending_ctrl, ctrl_ite]
@[simp] theorem State.resetsGo_time (s : State) : (State.resetsGo s).ctrl.time = s.ctrl.time := by
  unfold State.resetsGo
  dsimp only
  refine (State.foldl_keeps (·.ctrl.time) _ (fun s p => State.startQueued_time s p) _ _).trans ?_
  refine State.foldl_keeps (·.ctrl.time) _ (fun s c => ?_) _ _
  (repeat' split) <;> simp
@[simp] theorem State.resetsGo_rest (s : State) : (State.resetsGo s).ctrl.rest = s.ctrl.rest := by
  unfold State.resetsGo
  dsimp only
  refine (State.foldl_keeps (·.ctrl.rest) _ (fun s p => State.startQueued_rest s p) _ _).trans ?_
  refine State.foldl_keeps (·.ctrl.rest) _ (fun s c => ?_) _ _
  (repeat' split) <;> simp
@[simp] theorem State.reloaded_time (s : State) (hdr : List Byte) (ucode : List Byte) : (State.reloaded s hdr ucode).ctrl.time = s.ctrl.time := by
  unfold State.reloaded
  (repeat' split) <;> simp [State.time_ctrl, State.ctl_ctrl, State.power_ctrl, State.boot_ctrl, State.prov_ctrl, State.pending_ctrl]
@[simp] theorem State.reloaded_prov (s : State) (hdr : List Byte) (ucode : List Byte) : (State.reloaded s hdr ucode).ctrl.rest.2.1 = s.ctrl.rest.2.1 := by
  unfold State.reloaded
  (repeat' split) <;> simp [State.time_ctrl, State.ctl_ctrl, State.power_ctrl, State.boot_ctrl, State.prov_ctrl, State.pending_ctrl]
@[simp] theorem State.reloaded_pending (s : State) (hdr : List Byte) (ucode : List Byte) : (State.reloaded s hdr ucode).ctrl.rest.2.2 = s.ctrl.rest.2.2 := by
  unfold State.reloaded
  (repeat' split) <;> simp [State.time_ctrl, State.ctl_ctrl, State.power_ctrl, State.boot_ctrl, State.prov_ctrl, State.pending_ctrl]
@[simp] theorem State.quiesce_time (s : State) : (State.quiesce s).ctrl.time = s.ctrl.time := by
  unfold State.quiesce
  (repeat' split) <;> simp
@[simp] theorem State.quiesce_prov (s : State) : (State.quiesce s).ctrl.rest.2.1 = s.ctrl.rest.2.1 := by
  unfold State.quiesce
  (repeat' split) <;> simp
@[simp] theorem State.quiesce_pending (s : State) : (State.quiesce s).ctrl.rest.2.2 = s.ctrl.rest.2.2 := by
  unfold State.quiesce
  (repeat' split) <;> simp
@[simp] theorem State.holdExpires_prov (s : State) : (State.holdExpires s).ctrl.rest.2.1 = s.ctrl.rest.2.1 := by
  unfold State.holdExpires
  (repeat' split) <;> simp
@[simp] theorem State.holdExpires_pending (s : State) : (State.holdExpires s).ctrl.rest.2.2 = s.ctrl.rest.2.2 := by
  unfold State.holdExpires
  (repeat' split) <;> simp
@[simp] theorem State.tap_time (s : State) (code : Byte) : (State.tap s code).ctrl.time = s.ctrl.time := rfl
@[simp] theorem State.tap_ctl (s : State) (code : Byte) : (State.tap s code).ctrl.ctl = s.ctrl.ctl := rfl
@[simp] theorem State.tap_power (s : State) (code : Byte) : (State.tap s code).ctrl.power = s.ctrl.power := rfl
@[simp] theorem State.tap_boot (s : State) (code : Byte) : (State.tap s code).ctrl.rest.1 = s.ctrl.rest.1 := rfl
@[simp] theorem State.tap_pending (s : State) (code : Byte) : (State.tap s code).ctrl.rest.2.2 = s.ctrl.rest.2.2 := rfl
@[simp] theorem State.hearthBist_time (s : State) (pass : BitVec 8) : (State.hearthBist s pass).ctrl.time = s.ctrl.time := by
  unfold State.hearthBist
  dsimp only
  (repeat' split) <;> simp [State.time_ctrl, State.ctl_ctrl, State.power_ctrl, State.boot_ctrl, State.prov_ctrl, State.pending_ctrl, ctrl_ite]
@[simp] theorem State.hearthBist_ctl (s : State) (pass : BitVec 8) : (State.hearthBist s pass).ctrl.ctl = s.ctrl.ctl := by
  unfold State.hearthBist
  dsimp only
  (repeat' split) <;> simp [State.time_ctrl, State.ctl_ctrl, State.power_ctrl, State.boot_ctrl, State.prov_ctrl, State.pending_ctrl, ctrl_ite]
@[simp] theorem State.hearthBist_power (s : State) (pass : BitVec 8) : (State.hearthBist s pass).ctrl.power = s.ctrl.power := by
  unfold State.hearthBist
  dsimp only
  (repeat' split) <;> simp [State.time_ctrl, State.ctl_ctrl, State.power_ctrl, State.boot_ctrl, State.prov_ctrl, State.pending_ctrl, ctrl_ite]
@[simp] theorem State.hearthBist_boot (s : State) (pass : BitVec 8) : (State.hearthBist s pass).ctrl.rest.1 = s.ctrl.rest.1 := by
  unfold State.hearthBist
  dsimp only
  (repeat' split) <;> simp [State.time_ctrl, State.ctl_ctrl, State.power_ctrl, State.boot_ctrl, State.prov_ctrl, State.pending_ctrl, ctrl_ite]
@[simp] theorem State.hearthBist_pending (s : State) (pass : BitVec 8) : (State.hearthBist s pass).ctrl.rest.2.2 = s.ctrl.rest.2.2 := by
  unfold State.hearthBist
  dsimp only
  (repeat' split) <;> simp [State.time_ctrl, State.ctl_ctrl, State.power_ctrl, State.boot_ctrl, State.prov_ctrl, State.pending_ctrl, ctrl_ite]
@[simp] theorem State.shiftBoundary_time (s : State) (b : Boundary) : (State.shiftBoundary s b).ctrl.time = s.ctrl.time := rfl
@[simp] theorem State.shiftBoundary_ctl (s : State) (b : Boundary) : (State.shiftBoundary s b).ctrl.ctl = s.ctrl.ctl := rfl
@[simp] theorem State.shiftBoundary_power (s : State) (b : Boundary) : (State.shiftBoundary s b).ctrl.power = s.ctrl.power := rfl
@[simp] theorem State.shiftBoundary_boot (s : State) (b : Boundary) : (State.shiftBoundary s b).ctrl.rest.1 = s.ctrl.rest.1 := rfl
@[simp] theorem State.shiftBoundary_pending (s : State) (b : Boundary) : (State.shiftBoundary s b).ctrl.rest.2.2 = s.ctrl.rest.2.2 := rfl
@[simp] theorem State.shiftBypass_time (s : State) (tdi : Bool) : (State.shiftBypass s tdi).ctrl.time = s.ctrl.time := rfl
@[simp] theorem State.shiftBypass_ctl (s : State) (tdi : Bool) : (State.shiftBypass s tdi).ctrl.ctl = s.ctrl.ctl := rfl
@[simp] theorem State.shiftBypass_power (s : State) (tdi : Bool) : (State.shiftBypass s tdi).ctrl.power = s.ctrl.power := rfl
@[simp] theorem State.shiftBypass_boot (s : State) (tdi : Bool) : (State.shiftBypass s tdi).ctrl.rest.1 = s.ctrl.rest.1 := rfl
@[simp] theorem State.shiftBypass_pending (s : State) (tdi : Bool) : (State.shiftBypass s tdi).ctrl.rest.2.2 = s.ctrl.rest.2.2 := rfl
@[simp] theorem State.idle_ctl (s : State) : (State.idle s).ctrl.ctl = s.ctrl.ctl := rfl
@[simp] theorem State.idle_power (s : State) : (State.idle s).ctrl.power = s.ctrl.power := rfl
@[simp] theorem State.idle_rest (s : State) : (State.idle s).ctrl.rest = s.ctrl.rest := rfl
@[simp] theorem State.withFetchWord_time (s : State) (nbits : Nat) (w : Nat) : (State.withFetchWord s nbits w).ctrl.time = s.ctrl.time := rfl
@[simp] theorem State.withFetchWord_ctl (s : State) (nbits : Nat) (w : Nat) : (State.withFetchWord s nbits w).ctrl.ctl = s.ctrl.ctl := rfl
@[simp] theorem State.withFetchWord_power (s : State) (nbits : Nat) (w : Nat) : (State.withFetchWord s nbits w).ctrl.power = s.ctrl.power := rfl
@[simp] theorem State.withFetchWord_boot (s : State) (nbits : Nat) (w : Nat) : (State.withFetchWord s nbits w).ctrl.rest.1 = s.ctrl.rest.1 := rfl
@[simp] theorem State.withFetchWord_prov (s : State) (nbits : Nat) (w : Nat) : (State.withFetchWord s nbits w).ctrl.rest.2.1 = s.ctrl.rest.2.1 := rfl
end Sys2Proof.Machine
end

