-- ==== Sys2Proof/Laws/Tbl.lean ====
section
/-! SUPPORT. Sparse tables: what storing does to the value at an index, and that every operation keeps the canonical form. -/

namespace Sys2Proof.Machine

variable {α : Type}

theorem Tbl.get_nil (d : α) (k : Nat) : Tbl.get d [] k = d := rfl

theorem Tbl.get_insert_same (d v : α) (k : Nat) (t : Tbl α) (h : ∀ e ∈ t, e.1 ≠ k) :
    Tbl.get d (Tbl.insert k v t) k = v := by
  induction t with
  | nil => simp [Tbl.insert, Tbl.get]
  | cons e t ih =>
    obtain ⟨j, w⟩ := e
    have hj : j ≠ k := h (j, w) List.mem_cons_self
    unfold Tbl.insert
    split
    · simp [Tbl.get]
    · simp only [Tbl.get, hj, if_false]
      exact ih fun e he => h e (List.mem_cons_of_mem _ he)

theorem Tbl.get_insert_other (d v : α) (k i : Nat) (t : Tbl α) (h : i ≠ k) :
    Tbl.get d (Tbl.insert k v t) i = Tbl.get d t i := by
  induction t with
  | nil => simp [Tbl.insert, Tbl.get, Ne.symm h]
  | cons e t ih =>
    obtain ⟨j, w⟩ := e
    unfold Tbl.insert
    split
    · simp [Tbl.get, Ne.symm h]
    · simp only [Tbl.get, ih]

theorem Tbl.mem_erase_ne (k : Nat) (t : Tbl α) : ∀ e ∈ Tbl.erase k t, e.1 ≠ k := by
  intro e he
  simpa [Tbl.erase] using (List.mem_filter.mp he).2

theorem Tbl.get_erase_same (d : α) (k : Nat) (t : Tbl α) : Tbl.get d (Tbl.erase k t) k = d := by
  induction t with
  | nil => rfl
  | cons e t ih =>
    obtain ⟨j, w⟩ := e
    by_cases hj : j = k
    · simpa [Tbl.erase, hj] using ih
    · simp only [Tbl.erase, List.filter_cons, ne_eq, hj, not_false_eq_true, decide_true, if_true, Tbl.get, if_false]
      exact ih

theorem Tbl.get_erase_other (d : α) (k i : Nat) (t : Tbl α) (h : i ≠ k) :
    Tbl.get d (Tbl.erase k t) i = Tbl.get d t i := by
  induction t with
  | nil => rfl
  | cons e t ih =>
    obtain ⟨j, w⟩ := e
    by_cases hj : j = k
    · have : j ≠ i := fun e => h (e ▸ hj)
      simp only [Tbl.erase, List.filter_cons, hj, ne_eq, not_true_eq_false, decide_false, Bool.false_eq_true, if_false, Tbl.get]
      rw [if_neg (hj ▸ this)]
      exact ih
    · simp only [Tbl.erase, List.filter_cons, ne_eq, hj, not_false_eq_true, decide_true, if_true, Tbl.get]
      rw [show List.filter (fun e => decide ¬e.1 = k) t = Tbl.erase k t from rfl, ih]

/-- A value stored at an index is read there. -/
@[simp] theorem Tbl.get_set_same [DecidableEq α] (d : α) (t : Tbl α) (k : Nat) (v : α) :
    Tbl.get d (Tbl.set d t k v) k = v := by
  unfold Tbl.set
  split
  · next h => rw [Tbl.get_erase_same, h]
  · exact Tbl.get_insert_same d v k _ (Tbl.mem_erase_ne k t)

/-- Storing at one index leaves every other index as it was. -/
theorem Tbl.get_set_other [DecidableEq α] (d : α) (t : Tbl α) (k i : Nat) (v : α) (h : i ≠ k) :
    Tbl.get d (Tbl.set d t k v) i = Tbl.get d t i := by
  unfold Tbl.set
  split
  · exact Tbl.get_erase_other d k i t h
  · rw [Tbl.get_insert_other d v k i _ h, Tbl.get_erase_other d k i t h]

/-- The value at an index after a store at an index. -/
theorem Tbl.get_set [DecidableEq α] (d : α) (t : Tbl α) (k i : Nat) (v : α) :
    Tbl.get d (Tbl.set d t k v) i = if i = k then v else Tbl.get d t i := by
  split
  · next h => rw [h, Tbl.get_set_same]
  · next h => exact Tbl.get_set_other d t k i v h

/-! ### The canonical form -/

theorem Tbl.wf_iff [DecidableEq α] (d : α) (t : Tbl α) :
    Tbl.wf d t = true ↔ (t.map Prod.fst).Pairwise (· < ·) ∧ ∀ e ∈ t, e.2 ≠ d := by
  simp [Tbl.wf]

theorem Tbl.wf_nil [DecidableEq α] (d : α) : Tbl.wf d [] = true := by simp [Tbl.wf]

theorem Tbl.mem_insert (k : Nat) (v : α) (t : Tbl α) (e : Nat × α) (h : e ∈ Tbl.insert k v t) : e = (k, v) ∨ e ∈ t := by
  induction t with
  | nil => simpa [Tbl.insert] using h
  | cons x t ih =>
    obtain ⟨j, w⟩ := x
    unfold Tbl.insert at h
    split at h
    · simpa using h
    · rcases List.mem_cons.mp h with h | h
      · exact .inr (by simp [h])
      · rcases ih h with h | h
        · exact .inl h
        · exact .inr (List.mem_cons_of_mem _ h)

theorem Tbl.wf_insert [DecidableEq α] (d v : α) (k : Nat) (t : Tbl α) (hv : v ≠ d) (hk : ∀ e ∈ t, e.1 ≠ k)
    (h : Tbl.wf d t = true) : Tbl.wf d (Tbl.insert k v t) = true := by
  rw [Tbl.wf_iff] at h ⊢
  refine ⟨?_, fun e he => ?_⟩
  · obtain ⟨hs, -⟩ := h
    induction t with
    | nil => simp [Tbl.insert]
    | cons x t ih =>
      obtain ⟨j, w⟩ := x
      have hj : j ≠ k := hk (j, w) List.mem_cons_self
      simp only [List.map_cons, List.pairwise_cons] at hs
      unfold Tbl.insert
      split
      · next hlt =>
        simp only [List.map_cons, List.pairwise_cons]
        refine ⟨fun a ha => ?_, hs⟩
        rcases List.mem_cons.mp ha with rfl | ha
        · exact hlt
        · exact Nat.lt_trans hlt (hs.1 a ha)
      · next hlt =>
        simp only [List.map_cons, List.pairwise_cons]
        refine ⟨fun a ha => ?_, ih (fun e he => hk e (List.mem_cons_of_mem _ he)) hs.2⟩
        obtain ⟨e, he, rfl⟩ := List.mem_map.mp ha
        rcases Tbl.mem_insert k v t e he with rfl | he
        · exact Nat.lt_of_le_of_ne (Nat.le_of_not_lt hlt) hj
        · exact hs.1 _ (List.mem_map_of_mem he)
  · rcases Tbl.mem_insert k v t e he with rfl | he
    · exact hv
    · exact h.2 e he

theorem Tbl.wf_filter [DecidableEq α] (d : α) (t : Tbl α) (p : Nat × α → Bool) (h : Tbl.wf d t = true) :
    Tbl.wf d (t.filter p) = true := by
  rw [Tbl.wf_iff] at h ⊢
  refine ⟨List.Pairwise.sublist (List.Sublist.map _ List.filter_sublist) h.1, fun e he => h.2 e (List.mem_filter.mp he).1⟩

/-- Storing keeps the canonical form. -/
theorem Tbl.wf_set [DecidableEq α] (d : α) (t : Tbl α) (k : Nat) (v : α) (h : Tbl.wf d t = true) :
    Tbl.wf d (Tbl.set d t k v) = true := by
  unfold Tbl.set
  split
  · exact Tbl.wf_filter d t _ h
  · next hv => exact Tbl.wf_insert d v k _ hv (Tbl.mem_erase_ne k t) (Tbl.wf_filter d t _ h)

theorem Tbl.wf_mod [DecidableEq α] (d : α) (t : Tbl α) (k : Nat) (f : α → α) (h : Tbl.wf d t = true) :
    Tbl.wf d (Tbl.mod d t k f) = true := Tbl.wf_set d t k _ h

end Sys2Proof.Machine
end

