-- ==== Sys2Proof/Laws/State.lean ====
section
/-! SUPPORT. What each replacement of a table entry changes and what it leaves: one lemma per field and per accessor. Proofs cite
these and unfold no record update. -/

namespace Sys2Proof.Machine

/-! ### setPort -/

@[simp] theorem State.setPort_time (s : State) (p : Nat) (v : Port) : (s.setPort p v).time = s.time := rfl
@[simp] theorem State.setPort_ctl (s : State) (p : Nat) (v : Port) : (s.setPort p v).ctl = s.ctl := rfl
@[simp] theorem State.setPort_quench (s : State) (p : Nat) (v : Port) : (s.setPort p v).quench = s.quench := rfl
@[simp] theorem State.setPort_boot (s : State) (p : Nat) (v : Port) : (s.setPort p v).boot = s.boot := rfl
@[simp] theorem State.setPort_seq (s : State) (p : Nat) (v : Port) : (s.setPort p v).seq = s.seq := rfl
@[simp] theorem State.setPort_prov (s : State) (p : Nat) (v : Port) : (s.setPort p v).prov = s.prov := rfl
@[simp] theorem State.setPort_power (s : State) (p : Nat) (v : Port) : (s.setPort p v).power = s.power := rfl
@[simp] theorem State.setPort_route (s : State) (p : Nat) (v : Port) : (s.setPort p v).route = s.route := rfl
@[simp] theorem State.setPort_tng (s : State) (p : Nat) (v : Port) : (s.setPort p v).tng = s.tng := rfl
@[simp] theorem State.setPort_tab (s : State) (p : Nat) (v : Port) : (s.setPort p v).tab = s.tab := rfl
@[simp] theorem State.setPort_hrt (s : State) (p : Nat) (v : Port) : (s.setPort p v).hrt = s.hrt := rfl
@[simp] theorem State.setPort_wld (s : State) (p : Nat) (v : Port) : (s.setPort p v).wld = s.wld := rfl
@[simp] theorem State.setPort_trc (s : State) (p : Nat) (v : Port) : (s.setPort p v).trc = s.trc := rfl
@[simp] theorem State.setPort_freeCtr (s : State) (p : Nat) (v : Port) : (s.setPort p v).freeCtr = s.freeCtr := rfl
@[simp] theorem State.setPort_pending (s : State) (p : Nat) (v : Port) : (s.setPort p v).pending = s.pending := rfl
@[simp] theorem State.setPort_part (s : State) (p : Nat) (v : Port) (x : Nat) : (s.setPort p v).part x = s.part x := rfl
@[simp] theorem State.setPort_queue (s : State) (p : Nat) (v : Port) (x : Nat) : (s.setPort p v).queue x = s.queue x := rfl
@[simp] theorem State.setPort_heat (s : State) (p : Nat) (v : Port) (x : Nat) : (s.setPort p v).heat x = s.heat x := rfl
@[simp] theorem State.setPort_plan (s : State) (p : Nat) (v : Port) (x : Nat) : (s.setPort p v).plan x = s.plan x := rfl
@[simp] theorem State.setPort_bar (s : State) (p : Nat) (v : Port) (x : Nat) : (s.setPort p v).bar x = s.bar x := rfl
@[simp] theorem State.setPort_tag (s : State) (p : Nat) (v : Port) (x : Nat) : (s.setPort p v).tag x = s.tag x := rfl
@[simp] theorem State.setPort_slot (s : State) (p : Nat) (v : Port) (x y : Nat) : (s.setPort p v).slot x y = s.slot x y := rfl
@[simp] theorem State.setPort_circ (s : State) (p : Nat) (v : Port) (x : Nat) : (s.setPort p v).circ x = s.circ x := rfl
@[simp] theorem State.setPort_port_same (s : State) (p : Nat) (v : Port) : (s.setPort p v).port p = v := by
  simp [State.port, State.setPort]
theorem State.setPort_port_other (s : State) (p : Nat) (v : Port) (j : Nat) (hj : j ≠ p) : (s.setPort p v).port j = s.port j := by
  simp [State.port, State.setPort, Tbl.get_set_other, hj]

/-! ### modPort -/

@[simp] theorem State.modPort_time (s : State) (p : Nat) (f : Port → Port) : (s.modPort p f).time = s.time := rfl
@[simp] theorem State.modPort_ctl (s : State) (p : Nat) (f : Port → Port) : (s.modPort p f).ctl = s.ctl := rfl
@[simp] theorem State.modPort_quench (s : State) (p : Nat) (f : Port → Port) : (s.modPort p f).quench = s.quench := rfl
@[simp] theorem State.modPort_boot (s : State) (p : Nat) (f : Port → Port) : (s.modPort p f).boot = s.boot := rfl
@[simp] theorem State.modPort_seq (s : State) (p : Nat) (f : Port → Port) : (s.modPort p f).seq = s.seq := rfl
@[simp] theorem State.modPort_prov (s : State) (p : Nat) (f : Port → Port) : (s.modPort p f).prov = s.prov := rfl
@[simp] theorem State.modPort_power (s : State) (p : Nat) (f : Port → Port) : (s.modPort p f).power = s.power := rfl
@[simp] theorem State.modPort_route (s : State) (p : Nat) (f : Port → Port) : (s.modPort p f).route = s.route := rfl
@[simp] theorem State.modPort_tng (s : State) (p : Nat) (f : Port → Port) : (s.modPort p f).tng = s.tng := rfl
@[simp] theorem State.modPort_tab (s : State) (p : Nat) (f : Port → Port) : (s.modPort p f).tab = s.tab := rfl
@[simp] theorem State.modPort_hrt (s : State) (p : Nat) (f : Port → Port) : (s.modPort p f).hrt = s.hrt := rfl
@[simp] theorem State.modPort_wld (s : State) (p : Nat) (f : Port → Port) : (s.modPort p f).wld = s.wld := rfl
@[simp] theorem State.modPort_trc (s : State) (p : Nat) (f : Port → Port) : (s.modPort p f).trc = s.trc := rfl
@[simp] theorem State.modPort_freeCtr (s : State) (p : Nat) (f : Port → Port) : (s.modPort p f).freeCtr = s.freeCtr := rfl
@[simp] theorem State.modPort_pending (s : State) (p : Nat) (f : Port → Port) : (s.modPort p f).pending = s.pending := rfl
@[simp] theorem State.modPort_part (s : State) (p : Nat) (f : Port → Port) (x : Nat) : (s.modPort p f).part x = s.part x := rfl
@[simp] theorem State.modPort_queue (s : State) (p : Nat) (f : Port → Port) (x : Nat) : (s.modPort p f).queue x = s.queue x := rfl
@[simp] theorem State.modPort_heat (s : State) (p : Nat) (f : Port → Port) (x : Nat) : (s.modPort p f).heat x = s.heat x := rfl
@[simp] theorem State.modPort_plan (s : State) (p : Nat) (f : Port → Port) (x : Nat) : (s.modPort p f).plan x = s.plan x := rfl
@[simp] theorem State.modPort_bar (s : State) (p : Nat) (f : Port → Port) (x : Nat) : (s.modPort p f).bar x = s.bar x := rfl
@[simp] theorem State.modPort_tag (s : State) (p : Nat) (f : Port → Port) (x : Nat) : (s.modPort p f).tag x = s.tag x := rfl
@[simp] theorem State.modPort_slot (s : State) (p : Nat) (f : Port → Port) (x y : Nat) : (s.modPort p f).slot x y = s.slot x y := rfl
@[simp] theorem State.modPort_circ (s : State) (p : Nat) (f : Port → Port) (x : Nat) : (s.modPort p f).circ x = s.circ x := rfl
@[simp] theorem State.modPort_port_same (s : State) (p : Nat) (f : Port → Port) : (s.modPort p f).port p = f (s.port p) := by
  simp [State.modPort]
theorem State.modPort_port_other (s : State) (p : Nat) (f : Port → Port) (j : Nat) (hj : j ≠ p) : (s.modPort p f).port j = s.port j := by
  simp [State.modPort, State.setPort_port_other, hj]

/-! ### setPart -/

@[simp] theorem State.setPart_time (s : State) (i : Nat) (v : Part) : (s.setPart i v).time = s.time := rfl
@[simp] theorem State.setPart_ctl (s : State) (i : Nat) (v : Part) : (s.setPart i v).ctl = s.ctl := rfl
@[simp] theorem State.setPart_quench (s : State) (i : Nat) (v : Part) : (s.setPart i v).quench = s.quench := rfl
@[simp] theorem State.setPart_boot (s : State) (i : Nat) (v : Part) : (s.setPart i v).boot = s.boot := rfl
@[simp] theorem State.setPart_seq (s : State) (i : Nat) (v : Part) : (s.setPart i v).seq = s.seq := rfl
@[simp] theorem State.setPart_prov (s : State) (i : Nat) (v : Part) : (s.setPart i v).prov = s.prov := rfl
@[simp] theorem State.setPart_power (s : State) (i : Nat) (v : Part) : (s.setPart i v).power = s.power := rfl
@[simp] theorem State.setPart_route (s : State) (i : Nat) (v : Part) : (s.setPart i v).route = s.route := rfl
@[simp] theorem State.setPart_ports (s : State) (i : Nat) (v : Part) : (s.setPart i v).ports = s.ports := rfl
@[simp] theorem State.setPart_tng (s : State) (i : Nat) (v : Part) : (s.setPart i v).tng = s.tng := rfl
@[simp] theorem State.setPart_hrt (s : State) (i : Nat) (v : Part) : (s.setPart i v).hrt = s.hrt := rfl
@[simp] theorem State.setPart_wld (s : State) (i : Nat) (v : Part) : (s.setPart i v).wld = s.wld := rfl
@[simp] theorem State.setPart_trc (s : State) (i : Nat) (v : Part) : (s.setPart i v).trc = s.trc := rfl
@[simp] theorem State.setPart_freeCtr (s : State) (i : Nat) (v : Part) : (s.setPart i v).freeCtr = s.freeCtr := rfl
@[simp] theorem State.setPart_pending (s : State) (i : Nat) (v : Part) : (s.setPart i v).pending = s.pending := rfl
@[simp] theorem State.setPart_tab_queues (s : State) (i : Nat) (v : Part) : (s.setPart i v).tab.queues = s.tab.queues := rfl
@[simp] theorem State.setPart_tab_plans (s : State) (i : Nat) (v : Part) : (s.setPart i v).tab.plans = s.tab.plans := rfl
@[simp] theorem State.setPart_tab_heats (s : State) (i : Nat) (v : Part) : (s.setPart i v).tab.heats = s.tab.heats := rfl
@[simp] theorem State.setPart_tab_tags (s : State) (i : Nat) (v : Part) : (s.setPart i v).tab.tags = s.tab.tags := rfl
@[simp] theorem State.setPart_tab_bars (s : State) (i : Nat) (v : Part) : (s.setPart i v).tab.bars = s.tab.bars := rfl
@[simp] theorem State.setPart_tab_released (s : State) (i : Nat) (v : Part) : (s.setPart i v).tab.released = s.tab.released := rfl
@[simp] theorem State.setPart_port (s : State) (i : Nat) (v : Part) (x : Nat) : (s.setPart i v).port x = s.port x := rfl
@[simp] theorem State.setPart_queue (s : State) (i : Nat) (v : Part) (x : Nat) : (s.setPart i v).queue x = s.queue x := rfl
@[simp] theorem State.setPart_heat (s : State) (i : Nat) (v : Part) (x : Nat) : (s.setPart i v).heat x = s.heat x := rfl
@[simp] theorem State.setPart_plan (s : State) (i : Nat) (v : Part) (x : Nat) : (s.setPart i v).plan x = s.plan x := rfl
@[simp] theorem State.setPart_bar (s : State) (i : Nat) (v : Part) (x : Nat) : (s.setPart i v).bar x = s.bar x := rfl
@[simp] theorem State.setPart_tag (s : State) (i : Nat) (v : Part) (x : Nat) : (s.setPart i v).tag x = s.tag x := rfl
@[simp] theorem State.setPart_slot (s : State) (i : Nat) (v : Part) (x y : Nat) : (s.setPart i v).slot x y = s.slot x y := rfl
@[simp] theorem State.setPart_circ (s : State) (i : Nat) (v : Part) (x : Nat) : (s.setPart i v).circ x = s.circ x := rfl
@[simp] theorem State.setPart_part_same (s : State) (i : Nat) (v : Part) : (s.setPart i v).part i = v := by
  simp [State.part, State.setPart]
theorem State.setPart_part_other (s : State) (i : Nat) (v : Part) (j : Nat) (hj : j ≠ i) : (s.setPart i v).part j = s.part j := by
  simp [State.part, State.setPart, Tbl.get_set_other, hj]

/-! ### modPart -/

@[simp] theorem State.modPart_time (s : State) (i : Nat) (f : Part → Part) : (s.modPart i f).time = s.time := rfl
@[simp] theorem State.modPart_ctl (s : State) (i : Nat) (f : Part → Part) : (s.modPart i f).ctl = s.ctl := rfl
@[simp] theorem State.modPart_quench (s : State) (i : Nat) (f : Part → Part) : (s.modPart i f).quench = s.quench := rfl
@[simp] theorem State.modPart_boot (s : State) (i : Nat) (f : Part → Part) : (s.modPart i f).boot = s.boot := rfl
@[simp] theorem State.modPart_seq (s : State) (i : Nat) (f : Part → Part) : (s.modPart i f).seq = s.seq := rfl
@[simp] theorem State.modPart_prov (s : State) (i : Nat) (f : Part → Part) : (s.modPart i f).prov = s.prov := rfl
@[simp] theorem State.modPart_power (s : State) (i : Nat) (f : Part → Part) : (s.modPart i f).power = s.power := rfl
@[simp] theorem State.modPart_route (s : State) (i : Nat) (f : Part → Part) : (s.modPart i f).route = s.route := rfl
@[simp] theorem State.modPart_ports (s : State) (i : Nat) (f : Part → Part) : (s.modPart i f).ports = s.ports := rfl
@[simp] theorem State.modPart_tng (s : State) (i : Nat) (f : Part → Part) : (s.modPart i f).tng = s.tng := rfl
@[simp] theorem State.modPart_hrt (s : State) (i : Nat) (f : Part → Part) : (s.modPart i f).hrt = s.hrt := rfl
@[simp] theorem State.modPart_wld (s : State) (i : Nat) (f : Part → Part) : (s.modPart i f).wld = s.wld := rfl
@[simp] theorem State.modPart_trc (s : State) (i : Nat) (f : Part → Part) : (s.modPart i f).trc = s.trc := rfl
@[simp] theorem State.modPart_freeCtr (s : State) (i : Nat) (f : Part → Part) : (s.modPart i f).freeCtr = s.freeCtr := rfl
@[simp] theorem State.modPart_pending (s : State) (i : Nat) (f : Part → Part) : (s.modPart i f).pending = s.pending := rfl
@[simp] theorem State.modPart_tab_queues (s : State) (i : Nat) (f : Part → Part) : (s.modPart i f).tab.queues = s.tab.queues := rfl
@[simp] theorem State.modPart_tab_plans (s : State) (i : Nat) (f : Part → Part) : (s.modPart i f).tab.plans = s.tab.plans := rfl
@[simp] theorem State.modPart_tab_heats (s : State) (i : Nat) (f : Part → Part) : (s.modPart i f).tab.heats = s.tab.heats := rfl
@[simp] theorem State.modPart_tab_tags (s : State) (i : Nat) (f : Part → Part) : (s.modPart i f).tab.tags = s.tab.tags := rfl
@[simp] theorem State.modPart_tab_bars (s : State) (i : Nat) (f : Part → Part) : (s.modPart i f).tab.bars = s.tab.bars := rfl
@[simp] theorem State.modPart_tab_released (s : State) (i : Nat) (f : Part → Part) : (s.modPart i f).tab.released = s.tab.released := rfl
@[simp] theorem State.modPart_port (s : State) (i : Nat) (f : Part → Part) (x : Nat) : (s.modPart i f).port x = s.port x := rfl
@[simp] theorem State.modPart_queue (s : State) (i : Nat) (f : Part → Part) (x : Nat) : (s.modPart i f).queue x = s.queue x := rfl
@[simp] theorem State.modPart_heat (s : State) (i : Nat) (f : Part → Part) (x : Nat) : (s.modPart i f).heat x = s.heat x := rfl
@[simp] theorem State.modPart_plan (s : State) (i : Nat) (f : Part → Part) (x : Nat) : (s.modPart i f).plan x = s.plan x := rfl
@[simp] theorem State.modPart_bar (s : State) (i : Nat) (f : Part → Part) (x : Nat) : (s.modPart i f).bar x = s.bar x := rfl
@[simp] theorem State.modPart_tag (s : State) (i : Nat) (f : Part → Part) (x : Nat) : (s.modPart i f).tag x = s.tag x := rfl
@[simp] theorem State.modPart_slot (s : State) (i : Nat) (f : Part → Part) (x y : Nat) : (s.modPart i f).slot x y = s.slot x y := rfl
@[simp] theorem State.modPart_circ (s : State) (i : Nat) (f : Part → Part) (x : Nat) : (s.modPart i f).circ x = s.circ x := rfl
@[simp] theorem State.modPart_part_same (s : State) (i : Nat) (f : Part → Part) : (s.modPart i f).part i = f (s.part i) := by
  simp [State.modPart]
theorem State.modPart_part_other (s : State) (i : Nat) (f : Part → Part) (j : Nat) (hj : j ≠ i) : (s.modPart i f).part j = s.part j := by
  simp [State.modPart, State.setPart_part_other, hj]

/-! ### setQueue -/

@[simp] theorem State.setQueue_time (s : State) (q : Nat) (v : Queue) : (s.setQueue q v).time = s.time := rfl
@[simp] theorem State.setQueue_ctl (s : State) (q : Nat) (v : Queue) : (s.setQueue q v).ctl = s.ctl := rfl
@[simp] theorem State.setQueue_quench (s : State) (q : Nat) (v : Queue) : (s.setQueue q v).quench = s.quench := rfl
@[simp] theorem State.setQueue_boot (s : State) (q : Nat) (v : Queue) : (s.setQueue q v).boot = s.boot := rfl
@[simp] theorem State.setQueue_seq (s : State) (q : Nat) (v : Queue) : (s.setQueue q v).seq = s.seq := rfl
@[simp] theorem State.setQueue_prov (s : State) (q : Nat) (v : Queue) : (s.setQueue q v).prov = s.prov := rfl
@[simp] theorem State.setQueue_power (s : State) (q : Nat) (v : Queue) : (s.setQueue q v).power = s.power := rfl
@[simp] theorem State.setQueue_route (s : State) (q : Nat) (v : Queue) : (s.setQueue q v).route = s.route := rfl
@[simp] theorem State.setQueue_ports (s : State) (q : Nat) (v : Queue) : (s.setQueue q v).ports = s.ports := rfl
@[simp] theorem State.setQueue_tng (s : State) (q : Nat) (v : Queue) : (s.setQueue q v).tng = s.tng := rfl
@[simp] theorem State.setQueue_hrt (s : State) (q : Nat) (v : Queue) : (s.setQueue q v).hrt = s.hrt := rfl
@[simp] theorem State.setQueue_wld (s : State) (q : Nat) (v : Queue) : (s.setQueue q v).wld = s.wld := rfl
@[simp] theorem State.setQueue_trc (s : State) (q : Nat) (v : Queue) : (s.setQueue q v).trc = s.trc := rfl
@[simp] theorem State.setQueue_freeCtr (s : State) (q : Nat) (v : Queue) : (s.setQueue q v).freeCtr = s.freeCtr := rfl
@[simp] theorem State.setQueue_pending (s : State) (q : Nat) (v : Queue) : (s.setQueue q v).pending = s.pending := rfl
@[simp] theorem State.setQueue_tab_parts (s : State) (q : Nat) (v : Queue) : (s.setQueue q v).tab.parts = s.tab.parts := rfl
@[simp] theorem State.setQueue_tab_plans (s : State) (q : Nat) (v : Queue) : (s.setQueue q v).tab.plans = s.tab.plans := rfl
@[simp] theorem State.setQueue_tab_heats (s : State) (q : Nat) (v : Queue) : (s.setQueue q v).tab.heats = s.tab.heats := rfl
@[simp] theorem State.setQueue_tab_tags (s : State) (q : Nat) (v : Queue) : (s.setQueue q v).tab.tags = s.tab.tags := rfl
@[simp] theorem State.setQueue_tab_bars (s : State) (q : Nat) (v : Queue) : (s.setQueue q v).tab.bars = s.tab.bars := rfl
@[simp] theorem State.setQueue_tab_released (s : State) (q : Nat) (v : Queue) : (s.setQueue q v).tab.released = s.tab.released := rfl
@[simp] theorem State.setQueue_port (s : State) (q : Nat) (v : Queue) (x : Nat) : (s.setQueue q v).port x = s.port x := rfl
@[simp] theorem State.setQueue_part (s : State) (q : Nat) (v : Queue) (x : Nat) : (s.setQueue q v).part x = s.part x := rfl
@[simp] theorem State.setQueue_heat (s : State) (q : Nat) (v : Queue) (x : Nat) : (s.setQueue q v).heat x = s.heat x := rfl
@[simp] theorem State.setQueue_plan (s : State) (q : Nat) (v : Queue) (x : Nat) : (s.setQueue q v).plan x = s.plan x := rfl
@[simp] theorem State.setQueue_bar (s : State) (q : Nat) (v : Queue) (x : Nat) : (s.setQueue q v).bar x = s.bar x := rfl
@[simp] theorem State.setQueue_tag (s : State) (q : Nat) (v : Queue) (x : Nat) : (s.setQueue q v).tag x = s.tag x := rfl
@[simp] theorem State.setQueue_slot (s : State) (q : Nat) (v : Queue) (x y : Nat) : (s.setQueue q v).slot x y = s.slot x y := rfl
@[simp] theorem State.setQueue_circ (s : State) (q : Nat) (v : Queue) (x : Nat) : (s.setQueue q v).circ x = s.circ x := rfl
@[simp] theorem State.setQueue_queue_same (s : State) (q : Nat) (v : Queue) : (s.setQueue q v).queue q = v := by
  simp [State.queue, State.setQueue]
theorem State.setQueue_queue_other (s : State) (q : Nat) (v : Queue) (j : Nat) (hj : j ≠ q) : (s.setQueue q v).queue j = s.queue j := by
  simp [State.queue, State.setQueue, Tbl.get_set_other, hj]

/-! ### modQueue -/

@[simp] theorem State.modQueue_time (s : State) (q : Nat) (f : Queue → Queue) : (s.modQueue q f).time = s.time := rfl
@[simp] theorem State.modQueue_ctl (s : State) (q : Nat) (f : Queue → Queue) : (s.modQueue q f).ctl = s.ctl := rfl
@[simp] theorem State.modQueue_quench (s : State) (q : Nat) (f : Queue → Queue) : (s.modQueue q f).quench = s.quench := rfl
@[simp] theorem State.modQueue_boot (s : State) (q : Nat) (f : Queue → Queue) : (s.modQueue q f).boot = s.boot := rfl
@[simp] theorem State.modQueue_seq (s : State) (q : Nat) (f : Queue → Queue) : (s.modQueue q f).seq = s.seq := rfl
@[simp] theorem State.modQueue_prov (s : State) (q : Nat) (f : Queue → Queue) : (s.modQueue q f).prov = s.prov := rfl
@[simp] theorem State.modQueue_power (s : State) (q : Nat) (f : Queue → Queue) : (s.modQueue q f).power = s.power := rfl
@[simp] theorem State.modQueue_route (s : State) (q : Nat) (f : Queue → Queue) : (s.modQueue q f).route = s.route := rfl
@[simp] theorem State.modQueue_ports (s : State) (q : Nat) (f : Queue → Queue) : (s.modQueue q f).ports = s.ports := rfl
@[simp] theorem State.modQueue_tng (s : State) (q : Nat) (f : Queue → Queue) : (s.modQueue q f).tng = s.tng := rfl
@[simp] theorem State.modQueue_hrt (s : State) (q : Nat) (f : Queue → Queue) : (s.modQueue q f).hrt = s.hrt := rfl
@[simp] theorem State.modQueue_wld (s : State) (q : Nat) (f : Queue → Queue) : (s.modQueue q f).wld = s.wld := rfl
@[simp] theorem State.modQueue_trc (s : State) (q : Nat) (f : Queue → Queue) : (s.modQueue q f).trc = s.trc := rfl
@[simp] theorem State.modQueue_freeCtr (s : State) (q : Nat) (f : Queue → Queue) : (s.modQueue q f).freeCtr = s.freeCtr := rfl
@[simp] theorem State.modQueue_pending (s : State) (q : Nat) (f : Queue → Queue) : (s.modQueue q f).pending = s.pending := rfl
@[simp] theorem State.modQueue_tab_parts (s : State) (q : Nat) (f : Queue → Queue) : (s.modQueue q f).tab.parts = s.tab.parts := rfl
@[simp] theorem State.modQueue_tab_plans (s : State) (q : Nat) (f : Queue → Queue) : (s.modQueue q f).tab.plans = s.tab.plans := rfl
@[simp] theorem State.modQueue_tab_heats (s : State) (q : Nat) (f : Queue → Queue) : (s.modQueue q f).tab.heats = s.tab.heats := rfl
@[simp] theorem State.modQueue_tab_tags (s : State) (q : Nat) (f : Queue → Queue) : (s.modQueue q f).tab.tags = s.tab.tags := rfl
@[simp] theorem State.modQueue_tab_bars (s : State) (q : Nat) (f : Queue → Queue) : (s.modQueue q f).tab.bars = s.tab.bars := rfl
@[simp] theorem State.modQueue_tab_released (s : State) (q : Nat) (f : Queue → Queue) : (s.modQueue q f).tab.released = s.tab.released := rfl
@[simp] theorem State.modQueue_port (s : State) (q : Nat) (f : Queue → Queue) (x : Nat) : (s.modQueue q f).port x = s.port x := rfl
@[simp] theorem State.modQueue_part (s : State) (q : Nat) (f : Queue → Queue) (x : Nat) : (s.modQueue q f).part x = s.part x := rfl
@[simp] theorem State.modQueue_heat (s : State) (q : Nat) (f : Queue → Queue) (x : Nat) : (s.modQueue q f).heat x = s.heat x := rfl
@[simp] theorem State.modQueue_plan (s : State) (q : Nat) (f : Queue → Queue) (x : Nat) : (s.modQueue q f).plan x = s.plan x := rfl
@[simp] theorem State.modQueue_bar (s : State) (q : Nat) (f : Queue → Queue) (x : Nat) : (s.modQueue q f).bar x = s.bar x := rfl
@[simp] theorem State.modQueue_tag (s : State) (q : Nat) (f : Queue → Queue) (x : Nat) : (s.modQueue q f).tag x = s.tag x := rfl
@[simp] theorem State.modQueue_slot (s : State) (q : Nat) (f : Queue → Queue) (x y : Nat) : (s.modQueue q f).slot x y = s.slot x y := rfl
@[simp] theorem State.modQueue_circ (s : State) (q : Nat) (f : Queue → Queue) (x : Nat) : (s.modQueue q f).circ x = s.circ x := rfl
@[simp] theorem State.modQueue_queue_same (s : State) (q : Nat) (f : Queue → Queue) : (s.modQueue q f).queue q = f (s.queue q) := by
  simp [State.modQueue]
theorem State.modQueue_queue_other (s : State) (q : Nat) (f : Queue → Queue) (j : Nat) (hj : j ≠ q) : (s.modQueue q f).queue j = s.queue j := by
  simp [State.modQueue, State.setQueue_queue_other, hj]

/-! ### setHeat -/

@[simp] theorem State.setHeat_time (s : State) (c : Nat) (h : Option Heat) : (s.setHeat c h).time = s.time := rfl
@[simp] theorem State.setHeat_ctl (s : State) (c : Nat) (h : Option Heat) : (s.setHeat c h).ctl = s.ctl := rfl
@[simp] theorem State.setHeat_quench (s : State) (c : Nat) (h : Option Heat) : (s.setHeat c h).quench = s.quench := rfl
@[simp] theorem State.setHeat_boot (s : State) (c : Nat) (h : Option Heat) : (s.setHeat c h).boot = s.boot := rfl
@[simp] theorem State.setHeat_seq (s : State) (c : Nat) (h : Option Heat) : (s.setHeat c h).seq = s.seq := rfl
@[simp] theorem State.setHeat_prov (s : State) (c : Nat) (h : Option Heat) : (s.setHeat c h).prov = s.prov := rfl
@[simp] theorem State.setHeat_power (s : State) (c : Nat) (h : Option Heat) : (s.setHeat c h).power = s.power := rfl
@[simp] theorem State.setHeat_route (s : State) (c : Nat) (h : Option Heat) : (s.setHeat c h).route = s.route := rfl
@[simp] theorem State.setHeat_ports (s : State) (c : Nat) (h : Option Heat) : (s.setHeat c h).ports = s.ports := rfl
@[simp] theorem State.setHeat_tng (s : State) (c : Nat) (h : Option Heat) : (s.setHeat c h).tng = s.tng := rfl
@[simp] theorem State.setHeat_hrt (s : State) (c : Nat) (h : Option Heat) : (s.setHeat c h).hrt = s.hrt := rfl
@[simp] theorem State.setHeat_wld (s : State) (c : Nat) (h : Option Heat) : (s.setHeat c h).wld = s.wld := rfl
@[simp] theorem State.setHeat_trc (s : State) (c : Nat) (h : Option Heat) : (s.setHeat c h).trc = s.trc := rfl
@[simp] theorem State.setHeat_freeCtr (s : State) (c : Nat) (h : Option Heat) : (s.setHeat c h).freeCtr = s.freeCtr := rfl
@[simp] theorem State.setHeat_pending (s : State) (c : Nat) (h : Option Heat) : (s.setHeat c h).pending = s.pending := rfl
@[simp] theorem State.setHeat_tab_parts (s : State) (c : Nat) (h : Option Heat) : (s.setHeat c h).tab.parts = s.tab.parts := rfl
@[simp] theorem State.setHeat_tab_queues (s : State) (c : Nat) (h : Option Heat) : (s.setHeat c h).tab.queues = s.tab.queues := rfl
@[simp] theorem State.setHeat_tab_plans (s : State) (c : Nat) (h : Option Heat) : (s.setHeat c h).tab.plans = s.tab.plans := rfl
@[simp] theorem State.setHeat_tab_tags (s : State) (c : Nat) (h : Option Heat) : (s.setHeat c h).tab.tags = s.tab.tags := rfl
@[simp] theorem State.setHeat_tab_bars (s : State) (c : Nat) (h : Option Heat) : (s.setHeat c h).tab.bars = s.tab.bars := rfl
@[simp] theorem State.setHeat_tab_released (s : State) (c : Nat) (h : Option Heat) : (s.setHeat c h).tab.released = s.tab.released := rfl
@[simp] theorem State.setHeat_port (s : State) (c : Nat) (h : Option Heat) (x : Nat) : (s.setHeat c h).port x = s.port x := rfl
@[simp] theorem State.setHeat_part (s : State) (c : Nat) (h : Option Heat) (x : Nat) : (s.setHeat c h).part x = s.part x := rfl
@[simp] theorem State.setHeat_queue (s : State) (c : Nat) (h : Option Heat) (x : Nat) : (s.setHeat c h).queue x = s.queue x := rfl
@[simp] theorem State.setHeat_plan (s : State) (c : Nat) (h : Option Heat) (x : Nat) : (s.setHeat c h).plan x = s.plan x := rfl
@[simp] theorem State.setHeat_bar (s : State) (c : Nat) (h : Option Heat) (x : Nat) : (s.setHeat c h).bar x = s.bar x := rfl
@[simp] theorem State.setHeat_tag (s : State) (c : Nat) (h : Option Heat) (x : Nat) : (s.setHeat c h).tag x = s.tag x := rfl
@[simp] theorem State.setHeat_slot (s : State) (c : Nat) (h : Option Heat) (x y : Nat) : (s.setHeat c h).slot x y = s.slot x y := rfl
@[simp] theorem State.setHeat_circ (s : State) (c : Nat) (h : Option Heat) (x : Nat) : (s.setHeat c h).circ x = s.circ x := rfl
@[simp] theorem State.setHeat_heat_same (s : State) (c : Nat) (h : Option Heat) : (s.setHeat c h).heat c = h := by
  simp [State.heat, State.setHeat]
theorem State.setHeat_heat_other (s : State) (c : Nat) (h : Option Heat) (j : Nat) (hj : j ≠ c) : (s.setHeat c h).heat j = s.heat j := by
  simp [State.heat, State.setHeat, Tbl.get_set_other, hj]

/-! ### modHeat -/

@[simp] theorem State.modHeat_time (s : State) (c : Nat) (f : Heat → Heat) : (s.modHeat c f).time = s.time := rfl
@[simp] theorem State.modHeat_ctl (s : State) (c : Nat) (f : Heat → Heat) : (s.modHeat c f).ctl = s.ctl := rfl
@[simp] theorem State.modHeat_quench (s : State) (c : Nat) (f : Heat → Heat) : (s.modHeat c f).quench = s.quench := rfl
@[simp] theorem State.modHeat_boot (s : State) (c : Nat) (f : Heat → Heat) : (s.modHeat c f).boot = s.boot := rfl
@[simp] theorem State.modHeat_seq (s : State) (c : Nat) (f : Heat → Heat) : (s.modHeat c f).seq = s.seq := rfl
@[simp] theorem State.modHeat_prov (s : State) (c : Nat) (f : Heat → Heat) : (s.modHeat c f).prov = s.prov := rfl
@[simp] theorem State.modHeat_power (s : State) (c : Nat) (f : Heat → Heat) : (s.modHeat c f).power = s.power := rfl
@[simp] theorem State.modHeat_route (s : State) (c : Nat) (f : Heat → Heat) : (s.modHeat c f).route = s.route := rfl
@[simp] theorem State.modHeat_ports (s : State) (c : Nat) (f : Heat → Heat) : (s.modHeat c f).ports = s.ports := rfl
@[simp] theorem State.modHeat_tng (s : State) (c : Nat) (f : Heat → Heat) : (s.modHeat c f).tng = s.tng := rfl
@[simp] theorem State.modHeat_hrt (s : State) (c : Nat) (f : Heat → Heat) : (s.modHeat c f).hrt = s.hrt := rfl
@[simp] theorem State.modHeat_wld (s : State) (c : Nat) (f : Heat → Heat) : (s.modHeat c f).wld = s.wld := rfl
@[simp] theorem State.modHeat_trc (s : State) (c : Nat) (f : Heat → Heat) : (s.modHeat c f).trc = s.trc := rfl
@[simp] theorem State.modHeat_freeCtr (s : State) (c : Nat) (f : Heat → Heat) : (s.modHeat c f).freeCtr = s.freeCtr := rfl
@[simp] theorem State.modHeat_pending (s : State) (c : Nat) (f : Heat → Heat) : (s.modHeat c f).pending = s.pending := rfl
@[simp] theorem State.modHeat_tab_parts (s : State) (c : Nat) (f : Heat → Heat) : (s.modHeat c f).tab.parts = s.tab.parts := rfl
@[simp] theorem State.modHeat_tab_queues (s : State) (c : Nat) (f : Heat → Heat) : (s.modHeat c f).tab.queues = s.tab.queues := rfl
@[simp] theorem State.modHeat_tab_plans (s : State) (c : Nat) (f : Heat → Heat) : (s.modHeat c f).tab.plans = s.tab.plans := rfl
@[simp] theorem State.modHeat_tab_tags (s : State) (c : Nat) (f : Heat → Heat) : (s.modHeat c f).tab.tags = s.tab.tags := rfl
@[simp] theorem State.modHeat_tab_bars (s : State) (c : Nat) (f : Heat → Heat) : (s.modHeat c f).tab.bars = s.tab.bars := rfl
@[simp] theorem State.modHeat_tab_released (s : State) (c : Nat) (f : Heat → Heat) : (s.modHeat c f).tab.released = s.tab.released := rfl
@[simp] theorem State.modHeat_port (s : State) (c : Nat) (f : Heat → Heat) (x : Nat) : (s.modHeat c f).port x = s.port x := rfl
@[simp] theorem State.modHeat_part (s : State) (c : Nat) (f : Heat → Heat) (x : Nat) : (s.modHeat c f).part x = s.part x := rfl
@[simp] theorem State.modHeat_queue (s : State) (c : Nat) (f : Heat → Heat) (x : Nat) : (s.modHeat c f).queue x = s.queue x := rfl
@[simp] theorem State.modHeat_plan (s : State) (c : Nat) (f : Heat → Heat) (x : Nat) : (s.modHeat c f).plan x = s.plan x := rfl
@[simp] theorem State.modHeat_bar (s : State) (c : Nat) (f : Heat → Heat) (x : Nat) : (s.modHeat c f).bar x = s.bar x := rfl
@[simp] theorem State.modHeat_tag (s : State) (c : Nat) (f : Heat → Heat) (x : Nat) : (s.modHeat c f).tag x = s.tag x := rfl
@[simp] theorem State.modHeat_slot (s : State) (c : Nat) (f : Heat → Heat) (x y : Nat) : (s.modHeat c f).slot x y = s.slot x y := rfl
@[simp] theorem State.modHeat_circ (s : State) (c : Nat) (f : Heat → Heat) (x : Nat) : (s.modHeat c f).circ x = s.circ x := rfl
@[simp] theorem State.modHeat_heat_same (s : State) (c : Nat) (f : Heat → Heat) : (s.modHeat c f).heat c = (s.heat c).map f := by
  simp [State.modHeat]
theorem State.modHeat_heat_other (s : State) (c : Nat) (f : Heat → Heat) (j : Nat) (hj : j ≠ c) : (s.modHeat c f).heat j = s.heat j := by
  simp [State.modHeat, State.setHeat_heat_other, hj]

/-! ### setPlan -/

@[simp] theorem State.setPlan_time (s : State) (k : Nat) (v : Option Plan) : (s.setPlan k v).time = s.time := rfl
@[simp] theorem State.setPlan_ctl (s : State) (k : Nat) (v : Option Plan) : (s.setPlan k v).ctl = s.ctl := rfl
@[simp] theorem State.setPlan_quench (s : State) (k : Nat) (v : Option Plan) : (s.setPlan k v).quench = s.quench := rfl
@[simp] theorem State.setPlan_boot (s : State) (k : Nat) (v : Option Plan) : (s.setPlan k v).boot = s.boot := rfl
@[simp] theorem State.setPlan_seq (s : State) (k : Nat) (v : Option Plan) : (s.setPlan k v).seq = s.seq := rfl
@[simp] theorem State.setPlan_prov (s : State) (k : Nat) (v : Option Plan) : (s.setPlan k v).prov = s.prov := rfl
@[simp] theorem State.setPlan_power (s : State) (k : Nat) (v : Option Plan) : (s.setPlan k v).power = s.power := rfl
@[simp] theorem State.setPlan_route (s : State) (k : Nat) (v : Option Plan) : (s.setPlan k v).route = s.route := rfl
@[simp] theorem State.setPlan_ports (s : State) (k : Nat) (v : Option Plan) : (s.setPlan k v).ports = s.ports := rfl
@[simp] theorem State.setPlan_tng (s : State) (k : Nat) (v : Option Plan) : (s.setPlan k v).tng = s.tng := rfl
@[simp] theorem State.setPlan_hrt (s : State) (k : Nat) (v : Option Plan) : (s.setPlan k v).hrt = s.hrt := rfl
@[simp] theorem State.setPlan_wld (s : State) (k : Nat) (v : Option Plan) : (s.setPlan k v).wld = s.wld := rfl
@[simp] theorem State.setPlan_trc (s : State) (k : Nat) (v : Option Plan) : (s.setPlan k v).trc = s.trc := rfl
@[simp] theorem State.setPlan_freeCtr (s : State) (k : Nat) (v : Option Plan) : (s.setPlan k v).freeCtr = s.freeCtr := rfl
@[simp] theorem State.setPlan_pending (s : State) (k : Nat) (v : Option Plan) : (s.setPlan k v).pending = s.pending := rfl
@[simp] theorem State.setPlan_tab_parts (s : State) (k : Nat) (v : Option Plan) : (s.setPlan k v).tab.parts = s.tab.parts := rfl
@[simp] theorem State.setPlan_tab_queues (s : State) (k : Nat) (v : Option Plan) : (s.setPlan k v).tab.queues = s.tab.queues := rfl
@[simp] theorem State.setPlan_tab_heats (s : State) (k : Nat) (v : Option Plan) : (s.setPlan k v).tab.heats = s.tab.heats := rfl
@[simp] theorem State.setPlan_tab_tags (s : State) (k : Nat) (v : Option Plan) : (s.setPlan k v).tab.tags = s.tab.tags := rfl
@[simp] theorem State.setPlan_tab_bars (s : State) (k : Nat) (v : Option Plan) : (s.setPlan k v).tab.bars = s.tab.bars := rfl
@[simp] theorem State.setPlan_tab_released (s : State) (k : Nat) (v : Option Plan) : (s.setPlan k v).tab.released = s.tab.released := rfl
@[simp] theorem State.setPlan_port (s : State) (k : Nat) (v : Option Plan) (x : Nat) : (s.setPlan k v).port x = s.port x := rfl
@[simp] theorem State.setPlan_part (s : State) (k : Nat) (v : Option Plan) (x : Nat) : (s.setPlan k v).part x = s.part x := rfl
@[simp] theorem State.setPlan_queue (s : State) (k : Nat) (v : Option Plan) (x : Nat) : (s.setPlan k v).queue x = s.queue x := rfl
@[simp] theorem State.setPlan_heat (s : State) (k : Nat) (v : Option Plan) (x : Nat) : (s.setPlan k v).heat x = s.heat x := rfl
@[simp] theorem State.setPlan_bar (s : State) (k : Nat) (v : Option Plan) (x : Nat) : (s.setPlan k v).bar x = s.bar x := rfl
@[simp] theorem State.setPlan_tag (s : State) (k : Nat) (v : Option Plan) (x : Nat) : (s.setPlan k v).tag x = s.tag x := rfl
@[simp] theorem State.setPlan_slot (s : State) (k : Nat) (v : Option Plan) (x y : Nat) : (s.setPlan k v).slot x y = s.slot x y := rfl
@[simp] theorem State.setPlan_circ (s : State) (k : Nat) (v : Option Plan) (x : Nat) : (s.setPlan k v).circ x = s.circ x := rfl
@[simp] theorem State.setPlan_plan_same (s : State) (k : Nat) (v : Option Plan) : (s.setPlan k v).plan k = v := by
  simp [State.plan, State.setPlan]
theorem State.setPlan_plan_other (s : State) (k : Nat) (v : Option Plan) (j : Nat) (hj : j ≠ k) : (s.setPlan k v).plan j = s.plan j := by
  simp [State.plan, State.setPlan, Tbl.get_set_other, hj]

/-! ### setBar -/

@[simp] theorem State.setBar_time (s : State) (b : Nat) (v : Bar) : (s.setBar b v).time = s.time := rfl
@[simp] theorem State.setBar_ctl (s : State) (b : Nat) (v : Bar) : (s.setBar b v).ctl = s.ctl := rfl
@[simp] theorem State.setBar_quench (s : State) (b : Nat) (v : Bar) : (s.setBar b v).quench = s.quench := rfl
@[simp] theorem State.setBar_boot (s : State) (b : Nat) (v : Bar) : (s.setBar b v).boot = s.boot := rfl
@[simp] theorem State.setBar_seq (s : State) (b : Nat) (v : Bar) : (s.setBar b v).seq = s.seq := rfl
@[simp] theorem State.setBar_prov (s : State) (b : Nat) (v : Bar) : (s.setBar b v).prov = s.prov := rfl
@[simp] theorem State.setBar_power (s : State) (b : Nat) (v : Bar) : (s.setBar b v).power = s.power := rfl
@[simp] theorem State.setBar_route (s : State) (b : Nat) (v : Bar) : (s.setBar b v).route = s.route := rfl
@[simp] theorem State.setBar_ports (s : State) (b : Nat) (v : Bar) : (s.setBar b v).ports = s.ports := rfl
@[simp] theorem State.setBar_tng (s : State) (b : Nat) (v : Bar) : (s.setBar b v).tng = s.tng := rfl
@[simp] theorem State.setBar_hrt (s : State) (b : Nat) (v : Bar) : (s.setBar b v).hrt = s.hrt := rfl
@[simp] theorem State.setBar_wld (s : State) (b : Nat) (v : Bar) : (s.setBar b v).wld = s.wld := rfl
@[simp] theorem State.setBar_trc (s : State) (b : Nat) (v : Bar) : (s.setBar b v).trc = s.trc := rfl
@[simp] theorem State.setBar_freeCtr (s : State) (b : Nat) (v : Bar) : (s.setBar b v).freeCtr = s.freeCtr := rfl
@[simp] theorem State.setBar_pending (s : State) (b : Nat) (v : Bar) : (s.setBar b v).pending = s.pending := rfl
@[simp] theorem State.setBar_tab_parts (s : State) (b : Nat) (v : Bar) : (s.setBar b v).tab.parts = s.tab.parts := rfl
@[simp] theorem State.setBar_tab_queues (s : State) (b : Nat) (v : Bar) : (s.setBar b v).tab.queues = s.tab.queues := rfl
@[simp] theorem State.setBar_tab_plans (s : State) (b : Nat) (v : Bar) : (s.setBar b v).tab.plans = s.tab.plans := rfl
@[simp] theorem State.setBar_tab_heats (s : State) (b : Nat) (v : Bar) : (s.setBar b v).tab.heats = s.tab.heats := rfl
@[simp] theorem State.setBar_tab_tags (s : State) (b : Nat) (v : Bar) : (s.setBar b v).tab.tags = s.tab.tags := rfl
@[simp] theorem State.setBar_tab_released (s : State) (b : Nat) (v : Bar) : (s.setBar b v).tab.released = s.tab.released := rfl
@[simp] theorem State.setBar_port (s : State) (b : Nat) (v : Bar) (x : Nat) : (s.setBar b v).port x = s.port x := rfl
@[simp] theorem State.setBar_part (s : State) (b : Nat) (v : Bar) (x : Nat) : (s.setBar b v).part x = s.part x := rfl
@[simp] theorem State.setBar_queue (s : State) (b : Nat) (v : Bar) (x : Nat) : (s.setBar b v).queue x = s.queue x := rfl
@[simp] theorem State.setBar_heat (s : State) (b : Nat) (v : Bar) (x : Nat) : (s.setBar b v).heat x = s.heat x := rfl
@[simp] theorem State.setBar_plan (s : State) (b : Nat) (v : Bar) (x : Nat) : (s.setBar b v).plan x = s.plan x := rfl
@[simp] theorem State.setBar_tag (s : State) (b : Nat) (v : Bar) (x : Nat) : (s.setBar b v).tag x = s.tag x := rfl
@[simp] theorem State.setBar_slot (s : State) (b : Nat) (v : Bar) (x y : Nat) : (s.setBar b v).slot x y = s.slot x y := rfl
@[simp] theorem State.setBar_circ (s : State) (b : Nat) (v : Bar) (x : Nat) : (s.setBar b v).circ x = s.circ x := rfl
@[simp] theorem State.setBar_bar_same (s : State) (b : Nat) (v : Bar) : (s.setBar b v).bar b = v := by
  simp [State.bar, State.setBar]
theorem State.setBar_bar_other (s : State) (b : Nat) (v : Bar) (j : Nat) (hj : j ≠ b) : (s.setBar b v).bar j = s.bar j := by
  simp [State.bar, State.setBar, Tbl.get_set_other, hj]

/-! ### setTag -/

@[simp] theorem State.setTag_time (s : State) (t : Nat) (v : TagUse) : (s.setTag t v).time = s.time := rfl
@[simp] theorem State.setTag_ctl (s : State) (t : Nat) (v : TagUse) : (s.setTag t v).ctl = s.ctl := rfl
@[simp] theorem State.setTag_quench (s : State) (t : Nat) (v : TagUse) : (s.setTag t v).quench = s.quench := rfl
@[simp] theorem State.setTag_boot (s : State) (t : Nat) (v : TagUse) : (s.setTag t v).boot = s.boot := rfl
@[simp] theorem State.setTag_seq (s : State) (t : Nat) (v : TagUse) : (s.setTag t v).seq = s.seq := rfl
@[simp] theorem State.setTag_prov (s : State) (t : Nat) (v : TagUse) : (s.setTag t v).prov = s.prov := rfl
@[simp] theorem State.setTag_power (s : State) (t : Nat) (v : TagUse) : (s.setTag t v).power = s.power := rfl
@[simp] theorem State.setTag_route (s : State) (t : Nat) (v : TagUse) : (s.setTag t v).route = s.route := rfl
@[simp] theorem State.setTag_ports (s : State) (t : Nat) (v : TagUse) : (s.setTag t v).ports = s.ports := rfl
@[simp] theorem State.setTag_tng (s : State) (t : Nat) (v : TagUse) : (s.setTag t v).tng = s.tng := rfl
@[simp] theorem State.setTag_hrt (s : State) (t : Nat) (v : TagUse) : (s.setTag t v).hrt = s.hrt := rfl
@[simp] theorem State.setTag_wld (s : State) (t : Nat) (v : TagUse) : (s.setTag t v).wld = s.wld := rfl
@[simp] theorem State.setTag_trc (s : State) (t : Nat) (v : TagUse) : (s.setTag t v).trc = s.trc := rfl
@[simp] theorem State.setTag_freeCtr (s : State) (t : Nat) (v : TagUse) : (s.setTag t v).freeCtr = s.freeCtr := rfl
@[simp] theorem State.setTag_pending (s : State) (t : Nat) (v : TagUse) : (s.setTag t v).pending = s.pending := rfl
@[simp] theorem State.setTag_tab_parts (s : State) (t : Nat) (v : TagUse) : (s.setTag t v).tab.parts = s.tab.parts := rfl
@[simp] theorem State.setTag_tab_queues (s : State) (t : Nat) (v : TagUse) : (s.setTag t v).tab.queues = s.tab.queues := rfl
@[simp] theorem State.setTag_tab_plans (s : State) (t : Nat) (v : TagUse) : (s.setTag t v).tab.plans = s.tab.plans := rfl
@[simp] theorem State.setTag_tab_heats (s : State) (t : Nat) (v : TagUse) : (s.setTag t v).tab.heats = s.tab.heats := rfl
@[simp] theorem State.setTag_tab_bars (s : State) (t : Nat) (v : TagUse) : (s.setTag t v).tab.bars = s.tab.bars := rfl
@[simp] theorem State.setTag_tab_released (s : State) (t : Nat) (v : TagUse) : (s.setTag t v).tab.released = s.tab.released := rfl
@[simp] theorem State.setTag_port (s : State) (t : Nat) (v : TagUse) (x : Nat) : (s.setTag t v).port x = s.port x := rfl
@[simp] theorem State.setTag_part (s : State) (t : Nat) (v : TagUse) (x : Nat) : (s.setTag t v).part x = s.part x := rfl
@[simp] theorem State.setTag_queue (s : State) (t : Nat) (v : TagUse) (x : Nat) : (s.setTag t v).queue x = s.queue x := rfl
@[simp] theorem State.setTag_heat (s : State) (t : Nat) (v : TagUse) (x : Nat) : (s.setTag t v).heat x = s.heat x := rfl
@[simp] theorem State.setTag_plan (s : State) (t : Nat) (v : TagUse) (x : Nat) : (s.setTag t v).plan x = s.plan x := rfl
@[simp] theorem State.setTag_bar (s : State) (t : Nat) (v : TagUse) (x : Nat) : (s.setTag t v).bar x = s.bar x := rfl
@[simp] theorem State.setTag_slot (s : State) (t : Nat) (v : TagUse) (x y : Nat) : (s.setTag t v).slot x y = s.slot x y := rfl
@[simp] theorem State.setTag_circ (s : State) (t : Nat) (v : TagUse) (x : Nat) : (s.setTag t v).circ x = s.circ x := rfl
@[simp] theorem State.setTag_tag_same (s : State) (t : Nat) (v : TagUse) : (s.setTag t v).tag t = v := by
  simp [State.tag, State.setTag]
theorem State.setTag_tag_other (s : State) (t : Nat) (v : TagUse) (j : Nat) (hj : j ≠ t) : (s.setTag t v).tag j = s.tag j := by
  simp [State.tag, State.setTag, Tbl.get_set_other, hj]

/-! ### setSlot -/

@[simp] theorem State.setSlot_time (s : State) (p k : Nat) (v : Option Slot) : (s.setSlot p k v).time = s.time := rfl
@[simp] theorem State.setSlot_ctl (s : State) (p k : Nat) (v : Option Slot) : (s.setSlot p k v).ctl = s.ctl := rfl
@[simp] theorem State.setSlot_quench (s : State) (p k : Nat) (v : Option Slot) : (s.setSlot p k v).quench = s.quench := rfl
@[simp] theorem State.setSlot_boot (s : State) (p k : Nat) (v : Option Slot) : (s.setSlot p k v).boot = s.boot := rfl
@[simp] theorem State.setSlot_seq (s : State) (p k : Nat) (v : Option Slot) : (s.setSlot p k v).seq = s.seq := rfl
@[simp] theorem State.setSlot_prov (s : State) (p k : Nat) (v : Option Slot) : (s.setSlot p k v).prov = s.prov := rfl
@[simp] theorem State.setSlot_power (s : State) (p k : Nat) (v : Option Slot) : (s.setSlot p k v).power = s.power := rfl
@[simp] theorem State.setSlot_route (s : State) (p k : Nat) (v : Option Slot) : (s.setSlot p k v).route = s.route := rfl
@[simp] theorem State.setSlot_ports (s : State) (p k : Nat) (v : Option Slot) : (s.setSlot p k v).ports = s.ports := rfl
@[simp] theorem State.setSlot_tng (s : State) (p k : Nat) (v : Option Slot) : (s.setSlot p k v).tng = s.tng := rfl
@[simp] theorem State.setSlot_tab (s : State) (p k : Nat) (v : Option Slot) : (s.setSlot p k v).tab = s.tab := rfl
@[simp] theorem State.setSlot_wld (s : State) (p k : Nat) (v : Option Slot) : (s.setSlot p k v).wld = s.wld := rfl
@[simp] theorem State.setSlot_trc (s : State) (p k : Nat) (v : Option Slot) : (s.setSlot p k v).trc = s.trc := rfl
@[simp] theorem State.setSlot_freeCtr (s : State) (p k : Nat) (v : Option Slot) : (s.setSlot p k v).freeCtr = s.freeCtr := rfl
@[simp] theorem State.setSlot_pending (s : State) (p k : Nat) (v : Option Slot) : (s.setSlot p k v).pending = s.pending := rfl
@[simp] theorem State.setSlot_hrt_repair (s : State) (p k : Nat) (v : Option Slot) : (s.setSlot p k v).hrt.repair = s.hrt.repair := rfl
@[simp] theorem State.setSlot_hrt_active (s : State) (p k : Nat) (v : Option Slot) : (s.setSlot p k v).hrt.active = s.hrt.active := rfl
@[simp] theorem State.setSlot_hrt_diag (s : State) (p k : Nat) (v : Option Slot) : (s.setSlot p k v).hrt.diag = s.hrt.diag := rfl
@[simp] theorem State.setSlot_hrt_flagLane (s : State) (p k : Nat) (v : Option Slot) : (s.setSlot p k v).hrt.flagLane = s.hrt.flagLane := rfl
@[simp] theorem State.setSlot_hrt_flagWords (s : State) (p k : Nat) (v : Option Slot) : (s.setSlot p k v).hrt.flagWords = s.hrt.flagWords := rfl
@[simp] theorem State.setSlot_hrt_reorderHolds (s : State) (p k : Nat) (v : Option Slot) : (s.setSlot p k v).hrt.reorderHolds = s.hrt.reorderHolds := rfl
@[simp] theorem State.setSlot_hrt_ingots (s : State) (p k : Nat) (v : Option Slot) : (s.setSlot p k v).hrt.ingots = s.hrt.ingots := rfl
@[simp] theorem State.setSlot_hrt_scrub (s : State) (p k : Nat) (v : Option Slot) : (s.setSlot p k v).hrt.scrub = s.hrt.scrub := rfl
@[simp] theorem State.setSlot_hrt_corr (s : State) (p k : Nat) (v : Option Slot) : (s.setSlot p k v).hrt.corr = s.hrt.corr := rfl
@[simp] theorem State.setSlot_hrt_uncorr (s : State) (p k : Nat) (v : Option Slot) : (s.setSlot p k v).hrt.uncorr = s.hrt.uncorr := rfl
@[simp] theorem State.setSlot_hrt_logValid (s : State) (p k : Nat) (v : Option Slot) : (s.setSlot p k v).hrt.logValid = s.hrt.logValid := rfl
@[simp] theorem State.setSlot_hrt_logPatrol (s : State) (p k : Nat) (v : Option Slot) : (s.setSlot p k v).hrt.logPatrol = s.hrt.logPatrol := rfl
@[simp] theorem State.setSlot_hrt_logBank (s : State) (p k : Nat) (v : Option Slot) : (s.setSlot p k v).hrt.logBank = s.hrt.logBank := rfl
@[simp] theorem State.setSlot_hrt_logStripe (s : State) (p k : Nat) (v : Option Slot) : (s.setSlot p k v).hrt.logStripe = s.hrt.logStripe := rfl
@[simp] theorem State.setSlot_hrt_logWord (s : State) (p k : Nat) (v : Option Slot) : (s.setSlot p k v).hrt.logWord = s.hrt.logWord := rfl
@[simp] theorem State.setSlot_hrt_patrol (s : State) (p k : Nat) (v : Option Slot) : (s.setSlot p k v).hrt.patrol = s.hrt.patrol := rfl
@[simp] theorem State.setSlot_hrt_patrolLine (s : State) (p k : Nat) (v : Option Slot) : (s.setSlot p k v).hrt.patrolLine = s.hrt.patrolLine := rfl
@[simp] theorem State.setSlot_hrt_patrolAt (s : State) (p k : Nat) (v : Option Slot) : (s.setSlot p k v).hrt.patrolAt = s.hrt.patrolAt := rfl
@[simp] theorem State.setSlot_hrt_resetting (s : State) (p k : Nat) (v : Option Slot) : (s.setSlot p k v).hrt.resetting = s.hrt.resetting := rfl
@[simp] theorem State.setSlot_hrt_upsets (s : State) (p k : Nat) (v : Option Slot) : (s.setSlot p k v).hrt.upsets = s.hrt.upsets := rfl
@[simp] theorem State.setSlot_port (s : State) (p k : Nat) (v : Option Slot) (x : Nat) : (s.setSlot p k v).port x = s.port x := rfl
@[simp] theorem State.setSlot_part (s : State) (p k : Nat) (v : Option Slot) (x : Nat) : (s.setSlot p k v).part x = s.part x := rfl
@[simp] theorem State.setSlot_queue (s : State) (p k : Nat) (v : Option Slot) (x : Nat) : (s.setSlot p k v).queue x = s.queue x := rfl
@[simp] theorem State.setSlot_heat (s : State) (p k : Nat) (v : Option Slot) (x : Nat) : (s.setSlot p k v).heat x = s.heat x := rfl
@[simp] theorem State.setSlot_plan (s : State) (p k : Nat) (v : Option Slot) (x : Nat) : (s.setSlot p k v).plan x = s.plan x := rfl
@[simp] theorem State.setSlot_bar (s : State) (p k : Nat) (v : Option Slot) (x : Nat) : (s.setSlot p k v).bar x = s.bar x := rfl
@[simp] theorem State.setSlot_tag (s : State) (p k : Nat) (v : Option Slot) (x : Nat) : (s.setSlot p k v).tag x = s.tag x := rfl
@[simp] theorem State.setSlot_circ (s : State) (p k : Nat) (v : Option Slot) (x : Nat) : (s.setSlot p k v).circ x = s.circ x := rfl
@[simp] theorem State.setSlot_slot_same (s : State) (p k : Nat) (v : Option Slot) : (s.setSlot p k v).slot p k = v := by
  simp [State.slot, State.setSlot]
theorem State.setSlot_slot_other (s : State) (p k p' k' : Nat) (v : Option Slot) (h : p' * 65536 + k' ≠ p * 65536 + k) :
    (s.setSlot p k v).slot p' k' = s.slot p' k' := by
  simp [State.slot, State.setSlot, Tbl.get_set_other, h]

/-! ### setCirc -/

@[simp] theorem State.setCirc_time (s : State) (i : Nat) (v : Option Circ) : (s.setCirc i v).time = s.time := rfl
@[simp] theorem State.setCirc_ctl (s : State) (i : Nat) (v : Option Circ) : (s.setCirc i v).ctl = s.ctl := rfl
@[simp] theorem State.setCirc_quench (s : State) (i : Nat) (v : Option Circ) : (s.setCirc i v).quench = s.quench := rfl
@[simp] theorem State.setCirc_boot (s : State) (i : Nat) (v : Option Circ) : (s.setCirc i v).boot = s.boot := rfl
@[simp] theorem State.setCirc_seq (s : State) (i : Nat) (v : Option Circ) : (s.setCirc i v).seq = s.seq := rfl
@[simp] theorem State.setCirc_prov (s : State) (i : Nat) (v : Option Circ) : (s.setCirc i v).prov = s.prov := rfl
@[simp] theorem State.setCirc_power (s : State) (i : Nat) (v : Option Circ) : (s.setCirc i v).power = s.power := rfl
@[simp] theorem State.setCirc_ports (s : State) (i : Nat) (v : Option Circ) : (s.setCirc i v).ports = s.ports := rfl
@[simp] theorem State.setCirc_tng (s : State) (i : Nat) (v : Option Circ) : (s.setCirc i v).tng = s.tng := rfl
@[simp] theorem State.setCirc_tab (s : State) (i : Nat) (v : Option Circ) : (s.setCirc i v).tab = s.tab := rfl
@[simp] theorem State.setCirc_hrt (s : State) (i : Nat) (v : Option Circ) : (s.setCirc i v).hrt = s.hrt := rfl
@[simp] theorem State.setCirc_wld (s : State) (i : Nat) (v : Option Circ) : (s.setCirc i v).wld = s.wld := rfl
@[simp] theorem State.setCirc_trc (s : State) (i : Nat) (v : Option Circ) : (s.setCirc i v).trc = s.trc := rfl
@[simp] theorem State.setCirc_freeCtr (s : State) (i : Nat) (v : Option Circ) : (s.setCirc i v).freeCtr = s.freeCtr := rfl
@[simp] theorem State.setCirc_pending (s : State) (i : Nat) (v : Option Circ) : (s.setCirc i v).pending = s.pending := rfl
@[simp] theorem State.setCirc_route_bank0 (s : State) (i : Nat) (v : Option Circ) : (s.setCirc i v).route.bank0 = s.route.bank0 := rfl
@[simp] theorem State.setCirc_route_bank1 (s : State) (i : Nat) (v : Option Circ) : (s.setCirc i v).route.bank1 = s.route.bank1 := rfl
@[simp] theorem State.setCirc_route_activeBank (s : State) (i : Nat) (v : Option Circ) : (s.setCirc i v).route.activeBank = s.route.activeBank := rfl
@[simp] theorem State.setCirc_route_hold (s : State) (i : Nat) (v : Option Circ) : (s.setCirc i v).route.hold = s.route.hold := rfl
@[simp] theorem State.setCirc_route_swap (s : State) (i : Nat) (v : Option Circ) : (s.setCirc i v).route.swap = s.route.swap := rfl
@[simp] theorem State.setCirc_route_forceUntil (s : State) (i : Nat) (v : Option Circ) : (s.setCirc i v).route.forceUntil = s.route.forceUntil := rfl
@[simp] theorem State.setCirc_route_tblStandby (s : State) (i : Nat) (v : Option Circ) : (s.setCirc i v).route.tblStandby = s.route.tblStandby := rfl
@[simp] theorem State.setCirc_route_tblIndex (s : State) (i : Nat) (v : Option Circ) : (s.setCirc i v).route.tblIndex = s.route.tblIndex := rfl
@[simp] theorem State.setCirc_route_keyPort (s : State) (i : Nat) (v : Option Circ) : (s.setCirc i v).route.keyPort = s.route.keyPort := rfl
@[simp] theorem State.setCirc_route_keyWord (s : State) (i : Nat) (v : Option Circ) : (s.setCirc i v).route.keyWord = s.route.keyWord := rfl
@[simp] theorem State.setCirc_route_noroute (s : State) (i : Nat) (v : Option Circ) : (s.setCirc i v).route.noroute = s.route.noroute := rfl
@[simp] theorem State.setCirc_route_portdown (s : State) (i : Nat) (v : Option Circ) : (s.setCirc i v).route.portdown = s.route.portdown := rfl
@[simp] theorem State.setCirc_route_kindDrop (s : State) (i : Nat) (v : Option Circ) : (s.setCirc i v).route.kindDrop = s.route.kindDrop := rfl
@[simp] theorem State.setCirc_route_swapDrop (s : State) (i : Nat) (v : Option Circ) : (s.setCirc i v).route.swapDrop = s.route.swapDrop := rfl
@[simp] theorem State.setCirc_route_keys (s : State) (i : Nat) (v : Option Circ) : (s.setCirc i v).route.keys = s.route.keys := rfl
@[simp] theorem State.setCirc_port (s : State) (i : Nat) (v : Option Circ) (x : Nat) : (s.setCirc i v).port x = s.port x := rfl
@[simp] theorem State.setCirc_part (s : State) (i : Nat) (v : Option Circ) (x : Nat) : (s.setCirc i v).part x = s.part x := rfl
@[simp] theorem State.setCirc_queue (s : State) (i : Nat) (v : Option Circ) (x : Nat) : (s.setCirc i v).queue x = s.queue x := rfl
@[simp] theorem State.setCirc_heat (s : State) (i : Nat) (v : Option Circ) (x : Nat) : (s.setCirc i v).heat x = s.heat x := rfl
@[simp] theorem State.setCirc_plan (s : State) (i : Nat) (v : Option Circ) (x : Nat) : (s.setCirc i v).plan x = s.plan x := rfl
@[simp] theorem State.setCirc_bar (s : State) (i : Nat) (v : Option Circ) (x : Nat) : (s.setCirc i v).bar x = s.bar x := rfl
@[simp] theorem State.setCirc_tag (s : State) (i : Nat) (v : Option Circ) (x : Nat) : (s.setCirc i v).tag x = s.tag x := rfl
@[simp] theorem State.setCirc_slot (s : State) (i : Nat) (v : Option Circ) (x y : Nat) : (s.setCirc i v).slot x y = s.slot x y := rfl
@[simp] theorem State.setCirc_circ_same (s : State) (i : Nat) (v : Option Circ) : (s.setCirc i v).circ i = v := by
  simp [State.circ, State.setCirc]
theorem State.setCirc_circ_other (s : State) (i : Nat) (v : Option Circ) (j : Nat) (hj : j ≠ i) : (s.setCirc i v).circ j = s.circ j := by
  simp [State.circ, State.setCirc, Tbl.get_set_other, hj]

end Sys2Proof.Machine
end

