-- ==== Sys2Proof/Laws/Shared.lean ====
section
/-! SUPPORT. What the shared operations do, said once: the gate of the register ports, a dispatch that has its turn, billets and drop
counters. Proofs about single commands cite these and do not unfold the operation again. -/

namespace Sys2Proof.Machine

/-! ### The register ports (R384, R334, R377) -/

/-- While the block is up an access of a register that exists is carried out by its register's rule. -/
theorem State.ymbAt_up {s : State} {a : Nat} {f : State → State} (h : s.up) (ha : a % 4 = 0) (hr : regThere a = true) :
    s.ymbAt a f = f s := by
  simp [State.ymbAt, State.ymbOpen, State.ymbGate, h.1, h.2.1, h.2.2, ha, hr]

/-- The early registers are carried out in every boot state. -/
theorem State.ymbAt_early {s : State} {a : Nat} {f : State → State} (h : s.ymbOpen = true) (ha : a % 4 = 0)
    (he : earlyReg a = true) (hr : regThere a = true) : s.ymbAt a f = f s := by
  simp [State.ymbAt, State.ymbGate, h, ha, he, hr]

/-- Everything that an access can come to: not taken, the gate's code, or the register's rule. -/
theorem State.ymbAt_cases (s : State) (a : Nat) (f : State → State) :
    (s.ymbOpen = false ∧ s.ymbAt a f = s) ∨ (∃ c, s.ymbGate a = some c ∧ s.ymbAt a f = s.answer c 0) ∨
      (s.ymbOpen = true ∧ s.ymbGate a = none ∧ s.ymbAt a f = f s) := by
  unfold State.ymbAt
  by_cases h : s.ymbOpen = true
  case neg =>
    have h : s.ymbOpen = false := by simpa using h
    exact .inl ⟨h, by simp [h]⟩
  case pos =>
    cases hg : s.ymbGate a with
    | none => exact .inr (.inr ⟨h, rfl, by simp [h]⟩)
    | some c => exact .inr (.inl ⟨c, rfl, by simp [h]⟩)

/-- BOOT_PROV_CTL is reached in every boot state. -/
theorem State.provCtl_reached {s : State} {v : W32} (h : s.ymbOpen = true) : s.ymbWrite 0x010020 v = s.provCtlWrite v := by
  rw [State.ymbWrite, State.ymbAt_early h (by decide) (by decide) (by decide)]; rfl

/-- BOOT_NVM_DATA is reached in every boot state. -/
theorem State.nvmData_reached {s : State} {v : W32} (h : s.ymbOpen = true) : s.ymbWrite 0x010034 v = s.nvmDataPut v := by
  rw [State.ymbWrite, State.ymbAt_early h (by decide) (by decide) (by decide)]; rfl

/-- BOOT_NVM_CMD is reached in every boot state. -/
theorem State.nvmCmd_reached {s : State} {v : W32} (h : s.ymbOpen = true) : s.ymbWrite 0x010038 v = s.nvmCmdWrite v := by
  rw [State.ymbWrite, State.ymbAt_early h (by decide) (by decide) (by decide)]; rfl

/-- BOOT_CTL is reached in every boot state. -/
theorem State.bootCtl_reached {s : State} {v : W32} (h : s.ymbOpen = true) : s.ymbWrite 0x010040 v = s.bootCtlWrite v := by
  rw [State.ymbWrite, State.ymbAt_early h (by decide) (by decide) (by decide)]; rfl

/-- Every access through the pick port, while the Weld groups are closed and while they are open. -/
theorem State.pickAt_cases (s : State) (f : State → State) :
    (s.mgmtReady = false ∧ s.pickAt f = s) ∨ (s.mgmtReady = true ∧ s.pickAt f = f s) := by
  unfold State.pickAt
  cases s.mgmtReady <;> simp

/-! ### Dispatch (R52, R164, R166) -/

/-- A chain that enters a context leaves the partitions alone. -/
theorem State.enter_parts (s : State) (q c n : Nat) (d : Desc) (w : Words) :
    (s.enter q c d w n).tab.parts = s.tab.parts := by
  simp only [State.enter, State.granted]
  split <;> simp

/-- A queue whose turn it is: its dispatch is the start of the heat. -/
theorem State.dispatch_turn {s u : State} {q n c : Nat} {k : Kind} {d : Desc} {w : Words} {sel : Words → Bool}
    (h : s.turn q k d w n c u) (hs : sel w = true) :
    s.dispatch q k sel = (u.start c (u.partOfQueue q) d w).afterStart c := by
  obtain ⟨h1, h2, h3, h4, g, h5, h6, rfl⟩ := h
  have hp : g.partOfQueue q = (if (g.enter q c d w n).power.level ≠ 0 || (g.enter q c d w n).anvilOut then
      (g.enter q c d w n).perturb c else g.enter q c d w n).partOfQueue q := by
    simp only [State.partOfQueue]
    split <;> simp [State.enter_parts, State.perturb]
  simp only [State.dispatch, h1, h2, h3, hs, h4, h5, h6, ← hp]
  simp [State.launch, State.afterStart]

/-- A dispatch row that finds another kind, or another variant of the kind, changes nothing. -/
theorem State.dispatch_otherKind {s : State} {q n : Nat} {k : Kind} {d : Desc} {w : Words} {sel : Words → Bool}
    (h : (s.queue q).ready = some (d, w, n)) (hk : d.kind ≠ k) : s.dispatch q k sel = s := by
  unfold State.dispatch
  rw [h]
  cases (s.queue q).st <;> simp [hk]

/-- A dispatch row of a queue without a validated chain changes nothing. -/
theorem State.dispatch_none {s : State} {q : Nat} {k : Kind} {sel : Words → Bool} (h : (s.queue q).ready = none) :
    s.dispatch q k sel = s := by
  simp [State.dispatch, h]

/-! ### Billets (R206, R306, R308) -/

/-- Every way in which a billet of this engine is injected (R206, R222). -/
theorem State.inject_cases (s : State) (b : Billet) :
    (∃ r, s.inject b = { s with route := r }) ∨ s.inject b = s ∨ (b.kind = 0xC ∧ s.inject b = s.mailbox b) ∨
      ∃ p dl nr, s.lookup b.dest = .out p dl nr ∧ s.inject b = s.queueOut p { b with vc := nextVc b.vc dl nr } := by
  unfold State.inject
  split
  · exact .inl ⟨_, rfl⟩
  · split
    · split
      · exact .inr (.inr (.inl ⟨‹_›, rfl⟩))
      · exact .inr (.inl rfl)
    · exact .inl ⟨_, rfl⟩
    · exact .inl ⟨_, rfl⟩
    · exact .inr (.inr (.inr ⟨_, _, _, ‹_›, rfl⟩))

/-- Noting a billet for the quiet interval leaves every port alone. -/
@[simp] theorem State.touchHold_port (s : State) (p q : Nat) (vc : BitVec 3) : (s.touchHold p vc).port q = s.port q := by
  unfold State.touchHold
  split
  · rfl
  · split <;> rfl

/-- A billet queued for an output port stands last in that port's queue. -/
@[simp] theorem State.queueOut_queue (s : State) (p : Nat) (b : Billet) :
    ((s.queueOut p b).port p).tx.queue = (s.port p).tx.queue ++ [b] := by
  simp [State.queueOut]

/-- Queueing a billet leaves the other ports alone. -/
theorem State.queueOut_other (s : State) (p q : Nat) (b : Billet) (h : q ≠ p) : (s.queueOut p b).port q = s.port q := by
  simp [State.queueOut, State.modPort_port_other, h]

/-! ### Release of a slot (R117, R133) -/

/-- A released slot is gone, and its ingots await scrub; without a slot nothing changes. -/
theorem State.releaseSlot_eq (s : State) (p k : Nat) (sl : Slot) (h : s.slot p k = some sl) :
    (s.releaseSlot p k).slot p k = none ∧ (s.releaseSlot p k).hrt.ingots = s.hrt.ingots ∧
      (s.releaseSlot p k).hrt.scrub = s.hrt.scrub ++ ((sl.sets.map fun x => x.ingots).flatten ++ sl.biasIngots) ∧
      (s.releaseSlot p k).tab = s.tab := by
  simp only [State.releaseSlot, h]
  refine ⟨?_, rfl, rfl, rfl⟩
  show ((s.setSlot p k none).slot p k) = none
  simp

/-- No slot, no release. -/
theorem State.releaseSlot_none (s : State) (p k : Nat) (h : s.slot p k = none) : s.releaseSlot p k = s := by
  simp [State.releaseSlot, h]

end Sys2Proof.Machine
end

