-- ==== Sys2Proof/WellFormed.lean ====
section
/-! DEFINITION. When a command is one that its row of spec/opcode_table.json names: the written value has the bits of the
row, the billet is of the row's kind and subtype, the operand has the length that the spec gives it. `exec` checks none of
this: it gives the effect of the access or the billet that it is handed (log 11). -/

namespace Sys2Proof

open Machine

/-- The registers of the YMB every write of which has a row of its own, but for LNK_CTL and LNK_CREDIT_DATA (R384). -/
def ownRows : List Nat := [0xC0, 0xC4, 0x010034, 0x040110, 0x040148, 0x18000C, 0x1C0000, 0x1C0100]

/-- An address of the YMB every write of which has a row of its own. -/
def hasOwnRow (a : Nat) : Bool :=
  ownRows.elem a || match portReg a with
    | some (_, o) => o = 0x4 || o = 0x10C
    | none => false

/-- A billet of a kind. -/
def Billet.isKind (b : Billet) (k : BitVec 4) : Bool := b.kind = k

/-- A billet of a kind whose subtype stands in SEQ[2:0] (R217, R267, R268). -/
def Billet.isSub (b : Billet) (k : BitVec 4) (sub : Nat) : Bool := b.kind = k && fieldN b.seq 0 3 = sub

/-- A frame has four positions (R204). -/
def Frame.wf (f : Frame) : Bool := f.pos.length = 4

/-- What a port receives of a period: at a link port at most the eight lanes, none twice, each with its 1,360 words (R231); at a
sibling port the marker beat (R255). -/
def PeriodIn.wf (p : PortId) : PeriodIn → Bool
  | .lanes ls => decide (p.val < 32) && decide ((ls.map LanePeriod.phy).Nodup) && ls.all fun l => l.words.length = 1360
  | .beat _ => decide (32 ≤ p.val)

/-- What a boot step has obtained: a header of 288 bytes (R324, R327), components in table order. -/
def BootInput.wf : BootInput → Bool
  | .none => true
  | .header _ bytes => bytes.length = 288
  | .components _ => true

/-- A write without a row of its own. -/
def RegWrite.wf : RegWrite → Bool
  | .ymb a _ => !hasOwnRow a.toNat
  | .pick _ _ _ _ => true

/-- The command is one that its row names. -/
def wellFormed : Instr → Bool
  | .allreduce _ => true
  | .reduceScatter _ => true
  | .allgather _ => true
  | .reduce _ => true
  | .broadcast _ => true
  | .alltoall _ => true
  | .rotate _ => true
  | .topk _ => true
  | .softmaxMerge _ => true
  | .barrier _ => true
  | .send _ => true
  | .recv _ => true
  | .partialWrite _ => true
  | .planLoad _ => true
  | .planUnload _ => true
  | .preloadSlot _ => true
  | .drainSlot _ => true
  | .nop _ => true
  | .partitionCreate => true
  | .partitionUpdate => true
  | .partitionReset => true
  | .partitionRelease => true
  | .keySet => true
  | .quotaSet => true
  | .routeSwap => true
  | .routeSwapForced => true
  | .drainVc => true
  | .drainVcRelease => true
  | .cableAdopt => true
  | .cableAdoptPair => true
  | .reimageStage => true
  | .reimageActivate => true
  | .planRevoke => true
  | .doorbell _ _ _ => true
  | .pendingTailApply _ => true
  | .queueEnable _ _ v => bit v 0
  | .queueDisable _ _ v => !bit v 0
  | .queueHold _ _ _ => true
  | .queueInval _ _ v => bit v 3
  | .queueReset _ _ v => bit v 2
  | .ringConfigWrite _ _ _ _ => true
  | .descriptorFetch _ => true
  | .chainValidate _ => true
  | .slotObtain _ => true
  | .stagingPairGrant _ _ => true
  | .setDrainDone _ => true
  | .heatCompletion _ => true
  | .completionEvent => true
  | .ready _ b => b.isKind kReady && !bit b.seq 0
  | .readyReply _ b => b.isKind kReady && bit b.seq 0
  | .data _ b _ => b.isKind kData
  | .mask _ b => b.isKind kMask
  | .commit _ b => b.isKind kCommit
  | .hold _ b => b.isKind kHold
  | .resume _ b => b.isKind kResume
  | .beacon _ b => b.isKind kBeacon
  | .barrierArrive _ b => b.isKind kBarrier && !bit b.seq 0
  | .barrierRelease _ b => b.isKind kBarrier && bit b.seq 0
  | .counts _ b => b.isKind kCounts
  | .circuitSetup _ b => b.isSub kCircuit 0
  | .circuitConfirm _ b => b.isSub kCircuit 1
  | .circuitRefuse _ b => b.isSub kCircuit 2
  | .circuitRelease _ b => b.isSub kCircuit 3
  | .circuitForward _ b => onCircuit b
  | .billetIngress _ b => !onCircuit b
  | .timeReq _ b => b.isSub kTime 0
  | .timeResp _ b => b.isSub kTime 1
  | .timeQuery _ b => b.isSub kTime 2
  | .timeState _ b => b.isSub kTime 3
  | .mgmtNotice _ b => b.isKind kMgmt
  | .frameReceive _ f => f.all Frame.wf
  | .frameSend _ => true
  | .replayTimeout _ => true
  | .periodBoundary p r => r.wf p
  | .trainingWord _ _ => true
  | .trainPhaseTimeout _ => true
  | .attemptGapEnd _ => true
  | .reprobeTimer _ => true
  | .laneSignalChange p _ _ => p.val < 32
  | .retrainTimeout _ => true
  | .ackProgressTimeout _ => true
  | .rxSilenceTimeout _ => true
  | .portLossDone _ => true
  | .fdiStateChange _ _ => true
  | .sibX32Change _ _ => true
  | .weldGrant _ => true
  | .weldInBeat _ _ _ _ _ => true
  | .weldOutBeat _ => true
  | .memoryResponse _ _ _ => true
  | .pickWriteResponse _ => true
  | .xlateReply _ _ _ _ => true
  | .pageReqReply _ _ => true
  | .xlateInvalidate _ _ _ _ => true
  | .throttleInputChange _ => true
  | .commitQuietTimer _ => true
  | .beaconPeriod _ => true
  | .beaconCountForget _ _ => true
  | .pauseCapReached _ => true
  | .watchdogExpiry _ => true
  | .tagHoldExpiry _ => true
  | .circuitSetupTimeout _ => true
  | .keyReuseWaitEnd _ => true
  | .resetSpacingEnd _ => true
  | .drainVcQuiet => true
  | .drainVcTimeout => true
  | .swapEdge => true
  | .forcedSwapQuietEnd => true
  | .instepRelease _ => true
  | .barrierWake _ => true
  | .arrive _ _ _ => true
  | .arm _ _ _ => true
  | .epochPulse => true
  | .timeExchangePeriod => true
  | .timeRespTimeout => true
  | .memberQueryPeriod => true
  | .patrolRead _ => true
  | .scrubDone _ => true
  | .telemetrySample => true
  | .sensorSample temps => temps.length = 26
  | .thermalHystExpiry => true
  | .islandGate _ => true
  | .islandWake _ => true
  | .alignFrameCheck _ _ => true
  | .islandFault _ _ _ => true
  | .islandReset v => bit v 8
  | .islandResetStart => true
  | .tngAbort _ => true
  | .linkEnable _ v => bit v 0
  | .linkDisable _ v => !bit v 0
  | .linkProbe _ v => bit v 1
  | .linkRestore _ v => bit v 2
  | .creditAllotWrite _ _ => true
  | .routeTableWrite _ => true
  | .routeTableRead => true
  | .keyTableRead => true
  | .flagDataRead => true
  | .quenchDataRead => true
  | .mboxDataRead => true
  | .epochRead => true
  | .profileRead _ => true
  | .diagEnable v => bit v 0
  | .diagClear v => bit v 1
  | .policyWrite _ => true
  | .platformTagWrite _ => true
  | .wdogWrite _ => true
  | .recordEnable v => bit v 31
  | .recordDisable v => !bit v 31
  | .replayStart v => bit v 30
  | .telemetryEnable _ => true
  | .replayEntryDue => true
  | .replayDivergeTimeout => true
  | .registerWrite w => w.wf
  | .provRequest v => bit v 0
  | .provClose v => bit v 1
  | .tapUnlock v => bit v 2
  | .presencePress => true
  | .provRequestTimeout => true
  | .provisionEnChange _ => true
  | .sealBreak => true
  | .nvmErase v => fieldN v 0 2 = 1
  | .nvmProgram v => fieldN v 0 2 = 2
  | .nvmDataRead _ => true
  | .nvmDataWrite _ => true
  | .nvmCmdDone _ => true
  | .bootRetry v => bit v 0
  | .porRelease _ _ => true
  | .powerOnReset => true
  | .bootStepAdvance inp => inp.wf
  | .bootAlignTimeout => true
  | .warmReset => true
  | .warmResetRelease => true
  | .zeroize => true
  | .zeroizeScrubDone => true
  | .testScanEnEdge _ => true
  | .seqFault => true
  | .standbyLoadDone _ => true
  | .nvmReloadDone _ => true
  | .reimageQuiesce => true
  | .reimageActivateTimeout => true
  | .idcode => true
  | .samplePreload _ => true
  | .extest _ => true
  | .privScan => true
  | .hrtBist _ => true
  | .sramBist _ => true
  | .bypass _ => true
  | .pickPortRead _ _ _ => true
  | .laneOccupancyWake => true
  | .testLogicReset => true

end Sys2Proof
end

