-- ==== Sys2Proof/Tests/Slice0.lean ====
section
/-! SUPPORT. Tests of one step each, on small states: for every obligation, states and operands that meet the hypotheses of its
clauses and the values that the clauses then name; and, of WellFormed, a command that each check refuses. The expected values
come from the rules of spec/ by hand. -/

open Sys2Proof Sys2Proof.Machine

namespace Sys2Proof.Tests

set_option Elab.async false

/-- The state that a command leaves. -/
def run (c : Instr) (s : State) : State :=
  match exec c s with
  | .next t => t
  | _ => State.reset

/-- The command has the next state `t`. -/
def gives (c : Instr) (s t : State) : Bool :=
  match exec c s with
  | .next u => decide (u = t)
  | _ => false

/-- The command is answered with a code and changes nothing else. -/
def answers (c : Instr) (s : State) (code : BitVec 2) : Bool := gives c s (s.answer code 0)

/-- The command changes nothing. -/
def idle (c : Instr) (s : State) : Bool := gives c s s

/-- The command changes nothing but that the block goes on. -/
def pumps (c : Instr) (s : State) : Bool := gives c s s.pumpAll

/-- Partition 1: key 0x021, generation 3, class 2, address space 7, requester 0x44, queues 8 to 11, barrier objects 256 to 263. -/
def part1 : Part :=
  { Part.free with
    state := .active, key := 0x021, gen := 3, cls := 2, asid := 7, requester := 0x44, bitmap := [5, 6], qbase := 8, qcount := 4
    bbase := 256, bcount := 8, quota := { ingots := 64, slots := 4, plans := 4, staging := 4, pins := 8, heats := 8, tags := 16 } }

/-- A queue with a ring of 16 entries at 0x10000. -/
def ring : Queue := { Queue.reset with st := .active, base := 0x10000, log2 := 4, weight := 1, burst := 8 }

/-- The block after boot: every island on and aligned, the epoch counter running, engine 5, the steward's requester 9. -/
def up : State :=
  { State.reset with
    boot := { BootSt.reset with
      porLow := false, state := .done, step := 7, region := 4096, cfg := { ImageCfg.reset with ownId := 5, stewardRid := 9 } }
    power := { PowerSt.reset with on := 0xFFFFFF, aligned := 0xFFFFFF, weldAligned := true, ctlAligned := true }
    time := { TimeSt.reset with running := true, epochBase := 1048576, now := 6400 }
    tab := { TngTbl.reset with parts := [(1, part1)], queues := [(0, ring), (8, ring)] } }

/-- A reset that is over but for `f` of boot: for the early registers. -/
def early (f : BootSt → BootSt) : State := { up with boot := f { up.boot with state := .nvm, step := 2 } }

/-- A heat of queue 8 in its first phase, with its watchdog of 10,000 µs. -/
def heatOf (d : Desc) (w : Words) : Heat :=
  Heat.fresh
    { q := 8, idx := 0, part := some 1, key := 0x021, gen := 3, cls := 2, space := .asid 7, d := d, w := w, cmplPa := 0x9000, cmplPage := (0x9000, 12)
      order := 0 }
    6400 10000

/-- The same heat in a phase. -/
def inPhase (p : Phase) (h : Heat) : Heat := { h with run := { h.run with phase := p } }

/-- The heat runs. -/
def running (h : Heat) : Heat := inPhase .run h

/-- A running heat of the steward. -/
def steward (k : Kind) (w : Words) : Heat :=
  running { heatOf { kind := k } w with id := { (heatOf { kind := k } w).id with
    q := 0, part := none, key := 0, gen := 0, cls := 0, space := .steward } }

/-- The heat of queue 8 in context 20. -/
def withHeat (h : Heat) : State := (up.setHeat 20 (some h)).modQueue 8 fun x => { x with heats := [20] }

/-! ### The invariant and the queue -/

theorem test_up : up.up ∧ up.Inv := by
  refine ⟨by unfold State.up; decide +kernel, ?_⟩
  exact ⟨by decide +kernel, rfl, by decide +kernel, by decide +kernel, by decide +kernel, by decide +kernel, by decide +kernel,
    by decide +kernel, by decide +kernel, by decide +kernel, by decide +kernel⟩

theorem test_step_front :
    ({ up with pending := [Instr.idcode, .bypass false] }).pending = Instr.idcode :: [.bypass false] ∧
      step { up with pending := [Instr.idcode, .bypass false] } = exec .idcode { up with pending := [.bypass false] } ∧ up.pending = [] ∧
      step up = .next { up with time := { up.time with now := 12800 } } := ⟨rfl, rfl, rfl, rfl⟩

/-! ### Registers of the YMB (17) -/

/-- A lock is set by the write that sets it, and not by another. -/
def locked : State := { up with ctl := { up.ctl with lock := true, permits := 5, tagWritten := true } }

theorem test_PolicyLock :
    (run (.policyWrite 0x80000005) up).ctl = { up.ctl with permits := 5, lock := true } ∧ up.ctl.lock = false ∧
      locked.inReset = false ∧ locked.boot.state = .done ∧ locked.ctl.lock = true ∧ Instr.resets (.policyWrite 0xF) = false ∧
      gives (.policyWrite 0xF) locked { locked with ctl := { locked.ctl with
        viol := 1, violValid := true, violAddr := 0xC0, rspCode := rspDenied } } := by decide +kernel

theorem test_PlatformTagOnce :
    up.ctl.tagWritten = false ∧ gives (.platformTagWrite 0x12345678) up { up with ctl := { up.ctl with tag := 0x12345678, tagWritten := true } } ∧ locked.ctl.tagWritten = true ∧
      gives (.platformTagWrite 1) locked { locked with ctl := { locked.ctl with
        viol := 1, violValid := true, violAddr := 0xC4, rspCode := rspDenied } } := by decide +kernel

/-- A session is open. -/
def session : State := { up with
  prov := { up.prov with state := provOpen, enHigh := true }, tab := { up.tab with parts := [] } }

theorem test_PolicyAndSelected_policy :
    gives (.policyWrite 0xE) up { up with ctl := { up.ctl with permits := 0xE } } ∧ up.prov.state = provClosed ∧
      (let s := { up with hrt := { up.hrt with diag := true } }
       gives (.policyWrite 0xD) s { s with ctl := { s.ctl with permits := 0xD }, hrt := { s.hrt with diag := false } }) ∧
      session.inReset = false ∧ bit session.ctl.permits 0 = true ∧ session.prov.state ≠ provClosed ∧
      (run (.policyWrite 0xE) session).prov.state = provClosed ∧ (run (.policyWrite 0xE) session).prov.lastClose = 1 := by
  decide +kernel

/-- Partition 1 is selected for the registers of a partition. -/
def selected : State := { up with tng := { up.tng with partSel := 1 } }

theorem test_PolicyAndSelected_diag :
    up.noActive = false ∧ answers (.diagEnable 1) up rspDenied ∧ session.noActive = true ∧
      gives (.diagEnable 3) session ({ session with hrt := { session.hrt with diag := true } }.answer rspOkay 0) ∧
      gives (.diagClear 2) up ({ up with hrt := { up.hrt with diag := false, flagWords := [] } }.answer rspOkay 0) := by
  decide +kernel

theorem test_PolicyAndSelected_wdog :
    (selected.part 1).state ≠ .free ∧ ((run (.wdogWrite 3) selected).part 1).wdogUs = 100 ∧
      ((run (.wdogWrite 60000000) selected).part 1).wdogUs = 60000000 ∧
      answers (.wdogWrite 60000001) selected rspError ∧ (up.part up.tng.partSel.toNat).state = .free ∧
      answers (.wdogWrite 100) up rspError := by decide +kernel

/-- The route window at the last entry of the standby bank. -/
def window : State := { up with route := { up.route with tblStandby := true, tblIndex := 0xFFFF, bank0 := [(0, 1)] } }

theorem test_RouteWindow :
    answers (.routeTableWrite 5) up rspDenied ∧
      (let t := run (.routeTableWrite 0x18003) window
       let w := run .routeTableRead (run (.registerWrite (.ymb 0x180008 0x1FFFF)) t)
       t.bank false = [(0, 1)] ∧ t.bank true = [(0xFFFF, 0x8003)] ∧ t.route.tblIndex = 0 ∧ w.ctl.rspCode = rspOkay ∧
         w.ctl.rspData = 0x8003) ∧ (run .routeTableRead { up with route := { up.route with bank0 := [(0, 7)] } }).ctl.rspData = 7 := by
  decide +kernel

/-- A quench record of one entry, and a message. -/
def readable : State := { up with
  quench := { up.quench with
    valid := true, unread := true, record := [0x000000040000000300000002DEADBEEF], word := 3, mbox := [0xAAAAAAAA55555555, 9] }
  route := { up.route with keyPort := 39 }, hrt := { up.hrt with flagLane := 3071, flagWords := [(3071, { heat := 5, valid := true, flags := 9 })] } }

theorem test_ActingReads_windows :
    readable.route.keyPort.toNat ≤ 39 ∧ (run .keyTableRead readable).ctl.rspCode = rspOkay ∧
      (let s := { readable with route := { readable.route with keyPort := 40 } }
       answers .keyTableRead s rspError) ∧
      (readable.laneIsland 3071).all readable.isOn = true ∧ (run .flagDataRead readable).ctl.rspData = 0x00050019 ∧
      (let s := run .flagDataRead readable
       s.hrt.flagLane.toNat = 3072 ∧ answers .flagDataRead s rspError) := by decide +kernel

theorem test_ActingReads_quench :
    readable.quench.word.toNat < 4 * readable.quench.record.length ∧ (run .quenchDataRead readable).ctl.rspData = 4 ∧
      (run .quenchDataRead readable).quench.unread = false ∧ answers .quenchDataRead up rspError := by
  decide +kernel

theorem test_ActingReads_latches :
    (let s := { up with time := { up.time with epochBase := 0x500000003 }, ctl := { up.ctl with bitProfile := 0x700000009 } }
     (run .epochRead s).ctl.rspData = 4 ∧ (run .epochRead s).time.hiLatch = 5 ∧ (run (.profileRead false) s).ctl.rspData = 9 ∧
       (run (.profileRead false) s).ctl.bitHi = 7 ∧ (run (.profileRead true) s).ctl.rspData = 0) := by decide +kernel

/-- A billet. -/
def billet (kind : BitVec 4) (vc : BitVec 3) (key : BitVec 12) (seq : BitVec 13) (data : Payload) : Billet :=
  { dest := 5, key := key, kind := kind, vc := vc, gen := if key = 0 then 0 else 3, tag := 0, seq := seq, data := data }

theorem test_Mailbox :
    (run .mboxDataRead readable).ctl.rspData = 0x55555555 ∧ (run .mboxDataRead readable).quench.mboxPtr = 1 ∧
      (let s := { readable with quench := { readable.quench with mboxPtr := 15 } }
       (run .mboxDataRead s).quench.mbox = [9] ∧ (run .mboxDataRead s).quench.mboxPtr = 0) ∧
      answers .mboxDataRead up rspError := by decide +kernel

theorem test_Mailbox_notice :
    up.quench.mbox.length < 32 ∧ (run (.mgmtNotice 2 (billet kMgmt 7 0 1 77)) up).quench.mbox = [77] ∧
      bit (run (.mgmtNotice 2 (billet kMgmt 7 0 1 77)) up).tng.event 4 = true ∧
      (run (.mgmtNotice 2 (billet kMgmt 7 0 2 77)) up).quench.mboxDrops = 1 ∧
      idle (.mgmtNotice 2 (billet kData 2 0 1 77)) up := by decide +kernel

theorem test_RegisterWrites_gate :
    answers (.registerWrite (.ymb 0xA5 1)) up rspError ∧
      (let s := early id
       s.inReset = false ∧ earlyReg 0xA4 = false ∧ answers (.registerWrite (.ymb 0xA4 1)) s rspDenied) ∧
      regThere 0x100 = false ∧ answers (.registerWrite (.ymb 0x100 1)) up rspError := by decide +kernel

theorem test_RegisterWrites_plain :
    (run (.registerWrite (.ymb 0xA4 0xFFFFFFF6)) up).ctl.irqMask = 6 ∧
      (run (.registerWrite (.ymb 0x040140 1)) { up with tng := { up.tng with event := 3 } }).tng.event = 2 ∧
      (run (.registerWrite (.ymb 0x180010 0x0FFF)) up).route.keyPort = 31 := by decide +kernel

/-! ### Provisioning, NVM, TAP, boot, resets (13 to 16) -/

/-- The jumper is in. -/
def jumper : State := { up with prov := { up.prov with enHigh := true } }

/-- The seal is broken. -/
def unsealed : State := { jumper with boot := { jumper.boot with sealBroken := true } }

/-- A request waits for the press. -/
def asked : State := run (.provRequest 1) jumper

theorem test_ProvisioningSession_request :
    asked.prov.state = provRequested ∧ asked.prov.requestedAt = 6400 ∧ answers (.provRequest 1) up rspDenied ∧
      answers (.provRequest 1) unsealed rspDenied ∧ answers (.provRequest 1) session rspOkay ∧
      up.prov.enHigh = false ∧ unsealed.boot.sealBroken = true ∧ bit jumper.ctl.permits 0 = true := by decide +kernel

theorem test_ProvisioningSession_press :
    (run .presencePress asked).prov.state = provOpen ∧ (run .presencePress asked).prov.sessions = 1 ∧ idle .presencePress up ∧
      (run .provRequestTimeout asked).prov.state = provClosed ∧ (run .provRequestTimeout asked).prov.lastClose = 2 ∧
      (run .provRequestTimeout asked).time.now = 6400 + 10000000000000 := by decide +kernel

theorem test_ProvisioningSession_close :
    session.prov.state ≠ provClosed ∧ session.prov.tapOpen = false ∧ session.prov.busy = none ∧
      (run (.provClose 2) session).prov.lastClose = 1 ∧ (run (.provisionEnChange false) session).prov.lastClose = 3 ∧
      (run .sealBreak session).prov.lastClose = 4 ∧ (run .sealBreak session).boot.sealBroken = true ∧
      gives (.provisionEnChange true) up jumper := by decide +kernel

/-- A command of the NVM is in progress. -/
def programming : State := run (.nvmProgram 2) session

theorem test_ProvisioningSession_waits :
    programming.prov.busy = some 2 ∧ programming.prov.closeAfter = none ∧
      (let s := run .sealBreak (run (.provisionEnChange false) programming)
       s.prov.state = provOpen ∧ s.prov.closeAfter = some 3 ∧ (run (.nvmCmdDone true) s).prov.state = provClosed ∧
         (run (.nvmCmdDone true) s).prov.lastClose = 3) := by decide +kernel

theorem test_SealLatch :
    (run .sealBreak up).boot.sealBroken = true ∧ (run .zeroize unsealed).boot.sealBroken = true ∧
      (run .powerOnReset unsealed).boot.sealBroken = false ∧ unsealed.prov.state = provClosed := by decide +kernel

theorem test_NvmWindow_shut :
    up.prov.state ≠ provOpen ∧ answers (.nvmErase 1) up rspDenied ∧ answers (.nvmProgram 2) up rspDenied ∧
      answers (.nvmDataWrite 5) up rspDenied ∧ answers (.nvmDataRead 5) up rspDenied ∧
      answers (.nvmDataRead 5) programming rspDenied := by decide +kernel

theorem test_NvmWindow :
    session.windowOpen = true ∧ session.prov.nvmAddr.toNat < session.boot.region ∧
      (run (.nvmErase 1) session).prov.busy = some 1 ∧ session.prov.page.length = 256 ∧
      (run (.nvmDataWrite 0x04030201) session).prov.page.take 5 = [1, 2, 3, 4, 0xFF] ∧
      (run (.nvmDataWrite 0x04030201) session).prov.nvmAddr = 4 ∧ (run (.nvmDataRead 7) session).ctl.rspData = 7 ∧
      (let s := { session with prov := { session.prov with nvmAddr := 4096 } }
       s.boot.region ≤ s.prov.nvmAddr.toNat ∧ answers (.nvmDataWrite 0) s rspError ∧ answers (.nvmDataRead 0) s rspError) ∧
      (run (.nvmCmdDone false) programming).prov.err = true ∧ (run (.nvmCmdDone false) programming).prov.busy = none := by
  decide +kernel

/-- A value of the boundary register: the interrupt high and the flash selected. -/
def pins : Boundary :=
  { reqReady := false, rspValid := false, rspCode := 0, rspData := 0, nvmSck := false, nvmCsN := false, nvmOut := 0, nvmOe := 0
    irq := true, trip := false, ready := false, sealDrive := false }

/-- The private chain is open. -/
def chain : State := run (.tapUnlock 4) session

theorem test_TapChain_unlock :
    (session.tab.parts.all fun e => e.2.state = .free) ∧ chain.prov.tapOpen = true ∧ chain.ctl.rspCode = rspOkay ∧
      (chain.port 39).reg.st = .disabled ∧ answers (.tapUnlock 4) up rspDenied ∧ (up.part 1).state ≠ .free := by decide +kernel

theorem test_TapChain_instructions :
    (run (.hrtBist 0xFF) chain).prov.bistHrt = some 0xFF ∧ chain.hrt.ingots = [] ∧ (run (.hrtBist 1) up).prov.bistHrt = none ∧
      (run (.sramBist true) chain).prov.bistSram = some true ∧ (run (.extest pins) up).tapActs = 0xFF ∧
      (run (.extest pins) chain).tapActs = 3 ∧ (run (.extest pins) chain).irqPin = true ∧ (run (.extest pins) up).irqPin = false ∧
      (run .privScan chain).prov.tapInstr = 0x10 := by decide +kernel

theorem test_TapChain_idcode :
    (run .testLogicReset (run (.bypass true) up)).prov.tapInstr = 1 ∧
      ({ up with ctl := { up.ctl with strapMfr := 0x123 } } : State).idcode = 0x15958247 ∧
      (run (.samplePreload pins) up).tapActs = 2 ∧ (run (.samplePreload pins) up).prov.boundary = pins ∧ (run .idcode up).tapActs = 1 := by decide +kernel

/-- Power is good, boot at its first step. -/
def released : State := run (.porRelease 5 0x7FF) State.reset

/-- Boot at a state and step. -/
def booting (st : BootState) (n : Nat) : State := { released with boot := { released.boot with state := st, step := n } }

theorem test_BootSequence_steps :
    State.reset.boot.porLow = true ∧ released.boot.porLow = false ∧ released.ctl.strapInst = 5 ∧ released.ctl.strapMfr = 0x7FF ∧
      released.bootRuns = true ∧ (run (.bootStepAdvance .none) released).boot.step = 2 ∧
      (run (.bootStepAdvance .none) (booting .apply 4)).boot.state = .align ∧
      (let t := run (.bootStepAdvance .none) (booting .apply 4)
       t.power.waking = 0xFFFFFF ∧ t.power.woken = 0xFFFFFF ∧ Tbl.get 0 t.power.alignFrom (islandCode .control) = t.time.now) := by
  decide +kernel

/-- Every island aligned in step 5, no port used. -/
def aligned5 : State := { booting .align 5 with power := up.power }

theorem test_BootSequence_train :
    aligned5.bootRuns = true ∧ aligned5.allAligned = true ∧ (run (.bootStepAdvance .none) aligned5).boot.state = .train ∧
      ((run (.bootStepAdvance .none) aligned5).port 39).reg.st = .unused ∧
      (let s := run (.bootStepAdvance .none) aligned5
       s.bootRuns = true ∧ s.trained = true ∧ (run (.bootStepAdvance .none) s).boot.state = .done ∧
         ((run (.bootStepAdvance .none) s).queue 0).st = .disabled) := by decide +kernel

/-- What a device answers, and one that does not. -/
def sfdp (ok : Bool) : Sfdp :=
  { responds := ok, signature := 0x50444653, bfpt := [0, 0x3FFFFFF, 0, 0, 0, 0, 0, 0x200C, 0], addr4 := none }

theorem test_BootSequence_sfdp :
    (booting .nvm 2).bootRuns = true ∧ (booting .nvm 2).boot.sfdpDone = false ∧ (whySfdp (sfdp false)).isSome = true ∧
      whySfdp (sfdp true) = none ∧ sfdpDensity (sfdp true) = 8388608 ∧ (sfdpInfo (sfdp true)).erase = [(12, 0x20)] ∧
      (run (.bootStepAdvance (.header (sfdp false) [])) (booting .nvm 2)).boot.state = .identOnly := by decide +kernel

/-- Boot waits for the header of a slot. -/
def reads (slot : Bool) : State := { booting .nvm 2 with boot := { (booting .nvm 2).boot with sfdpDone := true, region := 0x100000, slot := slot } }

theorem test_BootSequence_badHeader :
    (whyHeader (List.replicate 288 0) 0x100000).isSome = true ∧
      (let a := run (.bootStepAdvance (.header (sfdp true) (List.replicate 288 0))) (reads false)
       a.boot.slot = true ∧ a.boot.step = 2 ∧ a.boot.compA = 0xF ∧ some a.boot.reasonA = whyHeader (List.replicate 288 0) 0x100000) ∧
      (run (.bootStepAdvance (.header (sfdp true) (List.replicate 288 0))) (reads true)).boot.state = .identOnly := by
  decide +kernel

theorem test_BootSequence_align :
    (run .bootAlignTimeout (booting .align 5)).boot.slot = true ∧ (run .bootAlignTimeout (booting .align 5)).boot.reasonA = 0xA ∧
      (run .bootAlignTimeout (booting .align 5)).time.now = 100 * msPs ∧
      (run (.bootRetry 1) (booting .identOnly 5)).boot.state = .nvm ∧ answers (.bootRetry 1) up rspDenied := by decide +kernel

theorem test_Resets :
    (run .warmReset up).boot.warmLow = true ∧ (run .warmReset up).boot.scrub = true ∧ (run .warmReset up).tab = .reset ∧
      (run .zeroize unsealed).boot.zeroizing = true ∧ (run .zeroize State.reset) = State.reset ∧
      (run (.testScanEnEdge true) up).boot.scan = true ∧ (run (.testScanEnEdge true) up).boot.scrub = true ∧
      (run .warmReset State.reset).boot.warmLow = true := by decide +kernel

theorem test_Resets_cold :
    (let s := run .zeroize unsealed
     s.boot.scrub = true ∧ s.inReset = false ∧ (run .zeroizeScrubDone s).boot = { BootSt.reset with porLow := false, sealBroken := true, zeroAt := some 6400 }) ∧
      (let s := run .zeroizeScrubDone (run .warmReset up)
       s.boot.warmLow = true ∧ s.boot.scrub = false ∧ s.boot.state = .por ∧ (run .warmResetRelease s).boot.warmLow = false ∧
         (run .warmResetRelease s).time = { up.time with now := 108800 }) ∧
      (let s := run .warmReset up
       s.inReset = true ∧ (run .zeroizeScrubDone s).boot.scrub = false ∧ (run .warmResetRelease s).boot.scrub = true) := by
  decide +kernel

/-- The low byte of CTL_VERSION is the build's; the rest is fixed. -/
theorem ctlVersion_high : ctlVersion.toNat / 256 = 0x20100 := by
  have : ∀ b : BitVec 8, (0x02010000 ||| b.setWidth 32 : BitVec 32).toNat / 256 = 0x20100 := by decide +kernel
  exact this Config.build

/-- A header of three components (configuration, training and sequencer microcode) of which each admits every version. -/
def entry (type len off : Nat) : List Byte :=
  natBytes type 1 ++ natBytes 1 1 ++ natBytes 0 2 ++ natBytes 7 4 ++ natBytes 0 4 ++ natBytes 0xFFFFFF00 4 ++ natBytes off 4 ++
    natBytes len 4 ++ natBytes 0 4 ++ natBytes 0 4
def entries : List Byte := entry 1 0x23800 0x1000 ++ entry 2 4 0x25000 ++ entry 3 4 0x26000
def hdr28 : List Byte :=
  natBytes 0x5958494D 4 ++ natBytes 2 2 ++ natBytes 3 1 ++ natBytes 0 1 ++ natBytes 0x27000 4 ++ natBytes 0x1234 4 ++ natBytes 0 12
def header : List Byte := hdr28 ++ natBytes (crc32 (hdr28 ++ entries)).toNat 4 ++ entries ++ List.replicate 160 0

/-- The first words of a configuration block: engine 5, steward 9, thermal and gate control in their ranges. -/
def config : List Byte :=
  natBytes 0x59584346 4 ++ natBytes 2 2 ++ natBytes 0 2 ++ natBytes 5 2 ++ natBytes 9 2 ++ List.replicate 0xF4 0 ++
    natBytes 1000 4 ++ natBytes 0x00640000 4 ++ natBytes (0x00100000 + 0x10000 + 100 * 256 + 90) 4

theorem test_BootSequence_header :
    whyHeader header 0x100000 = none ∧ (wellFormed (.bootStepAdvance (.header (sfdp true) header))) = true ∧
      (reads false).bootRuns = true ∧ (reads false).prov.busy = none := by
  decide +kernel

theorem test_BootSequence_window : whyWindow (compTable header) = none := by
  have h (c : Comp) : c.admits = decide (c.min.toNat / 256 ≤ 0x20100 ∧ 0x20100 ≤ c.max.toNat / 256) := by
    rw [Comp.admits, ctlVersion_high]
  simp only [whyWindow, h]
  decide +kernel

/-- Bytes beyond the end read 0. -/
theorem slice_past (b : List Byte) (off len : Nat) (h : b.length ≤ off) : slice b off len = List.replicate len 0 := by
  simp [slice, List.drop_eq_nil_of_le h]

/-- Zero bytes are zero entries. -/
theorem halves_zero (n : Nat) : halves (List.replicate (2 * n) 0) = List.replicate n 0 := by
  induction n with
  | zero => rfl
  | succ n ih =>
    rw [show 2 * (n + 1) = 2 * n + 1 + 1 by omega, List.replicate_succ, List.replicate_succ, halves, ih, List.replicate_succ]
    rfl

theorem test_BootSequence_routes : (cfgRoutes config).all routeOk = true := by
  rw [cfgRoutes, slice_past _ _ _ (by decide +kernel), show 0x20000 = 2 * 65536 by rfl, halves_zero, List.all_replicate]
  decide +kernel

theorem test_BootSequence_components :
    whyComponents [] [config] = none ∧ (booting .nvm 3).bootRuns = true ∧ (booting .nvm 3).boot.comps = [] := by
  refine ⟨?_, by decide +kernel, by decide +kernel⟩
  have h : configOk config = true := by
    simp only [configOk, Bool.and_eq_true, test_BootSequence_routes]
    decide +kernel
  simp [whyComponents, whyCrc, h]

theorem test_BootSequence_badComponents :
    (whyComponents [] [[]]).isSome = true ∧
      (run (.bootStepAdvance (.components [[]])) (booting .nvm 3)).boot.slot = true ∧
      (run (.bootStepAdvance (.components [[]])) (booting .nvm 3)).boot.reasonA = 9 := by
  refine ⟨by decide +kernel, by decide +kernel, by decide +kernel⟩

/-! ### Islands, power, temperature, Hearth, sequencers (05, 13 to 15) -/

/-- Gating is allowed, and Trace and the Anvil islands are off. -/
def gated : State := { up with power := { up.power with
  on := 0x1FE0FF, aligned := 0x1FE0FF, autoAnvil := true, autoHearth := true, autoTrace := true } }

theorem test_GatingAndWake :
    gated.mayGate (.hearth 0) = true ∧ (run (.islandGate (.hearth 0)) gated).power.on = 0x0000FF ∧ up.mayGate (.anvil 0) = false ∧
      idle (.islandGate (.anvil 0)) up ∧ (anvils.find? fun j => !gated.isOn j) = some (.anvil 0) ∧
      (let s := run .laneOccupancyWake gated
       s.power.waking = 0x000100 ∧ (run (.islandWake (.anvil 0)) s).power.on = 0x1FE1FF ∧
         (run (.islandWake (.anvil 0)) s).power.wakes = 1) ∧
      idle (.islandWake (.anvil 0)) gated ∧ idle .laneOccupancyWake up := by decide +kernel

/-- Anvil 0 is powered and not aligned, with 14 failures in a row. -/
def aligning : State := { up with power := { up.power with aligned := 0xFFFEFF, retries := [(8, 14)] } }

theorem test_AlignmentChecks :
    aligning.linksRun = true ∧ aligning.isReady (.anvil 0) = false ∧ aligning.isOn (.anvil 0) = true ∧
      (run (.alignFrameCheck (.anvil 0) true) aligning).power.aligned = 0xFFFFFF ∧
      (let s := run (.alignFrameCheck (.anvil 0) false) aligning
       s.alignFails (.anvil 0) = 15 ∧ s.power.event = 0 ∧ bit (run (.alignFrameCheck (.anvil 0) false) s).power.event 2 = true) := by
  decide +kernel

/-- Thresholds are configured: 90 and 100 degrees, 4 of hysteresis. -/
def warm (level : BitVec 2) (t : Byte) : State := { up with power := { up.power with
  throttleC := 90, critC := 100, hystC := 4, level := level, temps := List.replicate 26 t
  coolSince := some 6400 } }

theorem test_ThermalLevel :
    (run (.sensorSample (List.replicate 26 89)) (warm 0 0)).power.level = 0 ∧
      (run (.sensorSample (List.replicate 26 90)) (warm 0 0)).power.level = 1 ∧
      (run (.sensorSample (List.replicate 26 100)) (warm 0 0)).power.level = 2 ∧
      (run (.sensorSample (List.replicate 26 0)) (warm 1 0)).power.level = 1 ∧ (run .thermalHystExpiry (warm 2 96)).power.level = 1 ∧
      (run .thermalHystExpiry (warm 2 96)).time.now = 6400 + msPs ∧
      (run .thermalHystExpiry (warm 1 86)).power.level = 0 ∧ (run .thermalHystExpiry (warm 1 87)).power.level = 1 ∧
      idle .thermalHystExpiry up ∧ (run (.sensorSample (List.replicate 26 96)) { warm 2 100 with power := { (warm 2 100).power with coolSince := none } }).power.coolSince = some 6400 := by decide +kernel

/-- An island reset of Anvil 1 has been asked for. -/
def resetting : State := run (.islandReset 0x109) { up with tng := { up.tng with order := 1 } }

theorem test_IslandResets_refused :
    islandOfCode 9 = some (.anvil 1) ∧ resetting.ctl.islBusy = true ∧ resetting.ctl.islCode = 9 ∧
      answers (.islandReset 0x109) resetting rspError ∧ resettable .tongs = false ∧ answers (.islandReset 0x118) up rspError ∧
      islandOfCode 0x3F = none ∧ answers (.islandReset 0x13F) up rspError ∧
      (let s := { up with hrt := { up.hrt with ingots := [(0, true)] } }
       answers (.islandReset 0x110) s rspError) := by decide +kernel

/-- A heat that adds: it runs and holds its slot. -/
def adder : Heat :=
  let h := running (heatOf { kind := .reduce, endp := .drain } { count := 4, slot := 7 })
  { h with dp := { h.dp with slotHeld := true } }

theorem test_IslandResets_start :
    (run .islandResetStart resetting).ctl.islStarted = true ∧ (run .islandResetStart resetting).power.aligned = 0xFFFDFF ∧
      (let s := { resetting with power := { resetting.power with on := 0xFFFDFF } }
       s.isOn (.anvil 1) = false ∧ bit (run .islandResetStart s).power.waking 9 = true) ∧
      (let s := resetting.setHeat 20 (some adder)
       s.holdsUnit adder (.anvil 1) = true ∧ (run .islandResetStart s).ctl.islStarted = false) := by decide +kernel

theorem test_IslandResets_fault :
    resettable (.anvil 1) = true ∧ up.ctl.islBusy = false ∧ (run (.islandFault (.anvil 1) 0 []) up).ctl.islBusy = true ∧
      (run (.islandFault .tongs 0 [20]) (withHeat adder)).heat 20 ≠ some adder ∧
      (run (.islandFault (.hearth 2) 0 []) up).hrt.resetting = true := by decide +kernel

/-- A slot of partition 1, slot 7, whose only set has a state, with ingots 0 and 1. -/
def slotOf (st : SetState) : Slot :=
  { part := 1, gen := 3, kind := .fp32, e := 4, width := 0, sets := [{ st := st, cells := [], blank := .fp 0, ingots := [0] }], fill := 0, bias := none
    biasFmt := .fp32, biasBad := false, biasIngots := [] }

/-- Hearth with the slot, and ingot 5 awaiting scrub. -/
def slotted (st : SetState) : State :=
  let s : State := { up with hrt := { up.hrt with ingots := [(0, true), (5, true)], scrub := [5], patrolLine := 0x3FFFF } }
  s.setSlot 1 7 (some (slotOf st))

/-- One bit, or the lowest two bits, of the first word of a stripe flip. -/
def flip1 (stripe : BitVec 15) : Flip := ⟨1, stripe, 0, 1⟩
def flip2 (stripe : BitVec 15) : Flip := ⟨1, stripe, 0, 3⟩

theorem test_PatrolAndScrub :
    (slotted .empty).hearthServes = true ∧ (run (.patrolRead []) (slotted .empty)).hrt.patrolLine = 0 ∧
      (slotted .empty).hrt.resetting = false ∧ (slotted .empty).hrt.upsets = [] ∧
      (run (.scrubDone 1) (slotted .empty)).hrt.ingots = [(0, true)] ∧ (run (.scrubDone 1) (slotted .empty)).hrt.scrub = [] ∧
      (run (.scrubDone 0) (slotted .empty)).hrt.scrub = [5] ∧
      gated.hrt.patrol = true ∧ (run (.patrolRead [flip2 0]) { up with hrt := { up.hrt with patrol := false } }).hrt.uncorr = 0 := by
  decide +kernel

theorem test_PatrolAndScrub_errors :
    (let s := { slotted .empty with hrt := { (slotted .empty).hrt with patrolLine := 40 } }
     (flip2 5).stripe.toNat = s.hrt.patrolLine.toNat / 8 ∧ 5 ∈ s.hrt.scrub ∧ (run (.patrolRead [flip2 5]) s).hrt.uncorr = 0) ∧
      (let t := run (.patrolRead [flip2 6]) { up with hrt := { up.hrt with patrolLine := 48 } }
       t.hrt.scrub = [6] ∧ t.hrt.ingots = [(6, true)] ∧ t.hrt.uncorr = 1 ∧ t.hrt.logValid = true) ∧
      (let t := run (.patrolRead [flip1 6]) { up with hrt := { up.hrt with patrolLine := 48 } }
       t.hrt.scrub = [] ∧ t.hrt.corr = 1 ∧ t.hrt.upsets = []) ∧
      (let s : State := { up with power := { up.power with aligned := 0 } }
       s.hearthServes = false ∧ idle (.scrubDone 1) s) ∧
      (let s : State := { up with hrt := { up.hrt with resetting := true, scrub := [3] } }
       (run (.scrubDone 0) s).hrt.scrub = [] ∧ (run (.scrubDone 0) s).hrt.resetting = false) := by decide +kernel

/-- The open set of the slot holds 1.5 as its element 3. -/
def words : State := up.setSlot 1 7 (some { slotOf .opened with
  sets := [{ st := .opened, cells := [(3, { val := .fp 0x3FC00000, present := true })], blank := .fp 0, ingots := [2] }] })

theorem test_PatrolAndScrub_words :
    (words.slot 1 7).map (fun sl => ((words.setByte 1 7 sl 0 15).1, (words.setByte 1 7 sl 0 14).1)) = some (0x3F, 0xC0) ∧
      (let s : State := words.flips [⟨0, 2, 1, 4⟩]
       ones (s.upset (wordKey 2 0 1)) = 1 ∧ (s.readWord (wordKey 2 0 1) false).2 = true ∧
         (s.readWord (wordKey 2 0 1) false).1.hrt.corr = 1) ∧
      (let s : State := words.flips [⟨0, 2, 1, 6⟩]
       (s.readWord (wordKey 2 0 1) false).2 = false ∧ (s.readWord (wordKey 2 0 1) false).1.hrt.uncorr = 1) := by decide +kernel

/-- The standby store loads: for a REIMAGE_STAGE heat in context 4080, or after a fault. -/
def loading (stage : Option Nat) (fails : Nat) : State :=
  { up.setHeat 4080 (some (steward .reimageStage {})) with seq := { up.seq with
    standby := .loading, stage := stage, fails := fails, loadVer := 0x300, loadIfrev := 2 } }

theorem test_SequencerStores_load :
    (run (.standbyLoadDone true) (loading none 0)).seq.standby = .ready ∧
      (run (.standbyLoadDone true) (loading (some 4080) 0)).seq.stagedVer = 0x300 ∧
      (run (.standbyLoadDone false) (loading none 0)).seq.fails = 1 ∧
      (run (.standbyLoadDone false) (loading none 1)).seq.standby = .failed ∧
      ((run (.standbyLoadDone false) (loading (some 4080) 1)).heat 4080).map (·.run.phase) = some (.ended .malformed) := by
  decide +kernel

/-- A REIMAGE_ACTIVATE waits for the boundary. -/
def quiescing : State :=
  { up.setHeat 4080 (some (steward .reimageActivate {})) with seq := { up.seq with
    standby := .staged, stagedVer := 0x300, stagedIfrev := 2, hold := some (4080, 9000) } }

theorem test_SequencerStores_activate :
    quiescing.seqBusy = false ∧ (run .reimageQuiesce quiescing).seq.standby = .loading ∧
      (run .reimageQuiesce quiescing).boot.seqVer = 0x300 ∧ idle .reimageQuiesce up ∧
      (run .reimageActivateTimeout quiescing).seq.standby = .loading ∧
      (let s : State := { quiescing with time := { quiescing.time with now := 9500 } }
       idle .reimageQuiesce s ∧ (run .reimageActivateTimeout s).time.now = 9500 ∧ (run .reimageActivateTimeout s).seq.standby = .staged) ∧
      idle .reimageActivateTimeout up := by decide +kernel

/-- Little-endian bytes. -/
def le (n v : Nat) : List Byte := (List.range n).map fun k => BitVec.ofNat 8 (v / 256 ^ k)

/-- An entry of the header's table. -/
def compEntry (type rev ver off len crc : Nat) : List Byte :=
  le 1 type ++ le 1 rev ++ le 2 0 ++ le 4 ver ++ le 4 0 ++ le 4 0xFFFFFF00 ++ le 4 off ++ le 4 len ++ le 4 crc ++ le 4 0

/-- A header of three components with its CRC-32: the microcode is the bytes 1, 2, 3, 4. -/
def hdr : List Byte :=
  le 4 0x5958494D ++ le 2 2 ++ le 1 3 ++ le 1 0 ++ le 4 0x27000 ++ le 4 77 ++ le 12 0 ++ le 4 0xFCA62B5C ++
    compEntry 1 0 1 0x1000 0x23800 0 ++ compEntry 2 1 0x300 0x25000 4 0xB63CFBCD ++ compEntry 3 1 1 0x26000 4 0

theorem test_SequencerStores_fault :
    up.seq.fatal = false ∧ up.seq.standby = .ready ∧ (run .seqFault up).seq.takeovers = 1 ∧ (run .seqFault up).seq.standby = .loading ∧
      (run .seqFault (loading none 0)).seq.reload = true ∧
      (let s := run .seqFault (loading none 0)
       s.prov.busy = none ∧ (run (.nvmReloadDone (hdr, [])) s).seq.fatal = true) ∧
      (run (.nvmReloadDone (hdr, [1, 2, 3, 4])) up).seq = up.seq := by decide +kernel

/-- A fault while the standby loads: the store reloads, at a region of 1 MiB. -/
def reloading : State :=
  let s := run .seqFault (loading none 0)
  { s with boot := { s.boot with region := 0x100000, seqBootVer := 0x300, seqBootCrc := 0xB63CFBCD } }

/-- The window of every component admits every version of the hardware. -/
theorem test_SequencerStores_window : whyWindow (compTable hdr) = none := by
  have e : compTable hdr = [⟨1, 0, 1, 0, 0xFFFFFF00, 4096, 0x23800, 0⟩, ⟨2, 1, 0x300, 0, 0xFFFFFF00, 0x25000, 4, 0xB63CFBCD⟩,
    ⟨3, 1, 1, 0, 0xFFFFFF00, 0x26000, 4, 0⟩] := by decide +kernel
  have h : ctlVersion.toNat / 256 ≤ 16777215 := by have := ctlVersion.isLt; omega
  rw [e]
  simp [whyWindow, Comp.admits, Comp.used, compOf, List.findIdx_cons, h]

theorem test_SequencerStores_reload :
    whyHeader hdr 0x100000 = none ∧ reloading.reloadOk hdr [1, 2, 3, 4] = true ∧ reloading.seq.reload = true ∧
      reloading.prov.busy = none ∧ reloading.reloadOk hdr [1, 2, 3, 5] = false := by
  have a : whyHeader hdr reloading.boot.region = none := by decide +kernel
  have b : crc32 (slice [1, 2, 3, 5] 0 4) ≠ (0xB63CFBCD : W32) := by decide +kernel
  have c : crc32 (slice [1, 2, 3, 4] 0 4) = (0xB63CFBCD : W32) := by decide +kernel
  have d : compOf (compTable hdr) 2 = some ⟨2, 1, 0x300, 0, 0xFFFFFF00, 0x25000, 4, 0xB63CFBCD⟩ := by decide +kernel
  have e : reloading.boot.seqBootVer = 0x300 ∧ reloading.boot.seqBootCrc = 0xB63CFBCD ∧ reloading.seq.reload = true ∧
    reloading.prov.busy = none := by decide +kernel
  have w := test_SequencerStores_window
  refine ⟨by decide +kernel, ?_, e.2.2.1, e.2.2.2, ?_⟩
  · simp only [State.reloadOk, a, w, d, c, e.1, e.2.1]; decide
  · simp only [State.reloadOk, a, w, d, Option.isNone_none, Bool.true_and]; exact (by simp only [b, decide_false, Bool.false_and])

/-! ### Queue pages and chains (07) -/

/-- Queue 8 as `f` makes it. -/
def queued (f : Queue → Queue) : State := up.modQueue 8 f

theorem test_Doorbells_refused :
    up.pageRefused 0x44 8 true = none ∧ up.pageRefused 0x45 8 true = some causeOwner ∧
      up.pageRefused 0x44 9 true = some causeUnassigned ∧ (run (.doorbell 0x45 8 1) up).tng.dbReject = 1 ∧
      (queued fun x => { x with st := .halted }).pageRefused 0x44 8 true = none ∧
      pumps (.doorbell 0x44 8 1) (queued fun x => { x with st := .halted }) ∧
      pumps (.doorbell 0x44 8 1) (queued fun x => { x with st := .disabled, log2 := 3 }) := by decide +kernel

theorem test_Doorbells_range :
    (up.queue 8).takesDoorbell = true ∧ ((run (.doorbell 0x44 8 16) up).queue 8).reason = reasonDbRange ∧
      ((run (.doorbell 0x44 8 0x20001) up).queue 8).st = .halted ∧
      ((run (.doorbell 0x44 8 3) (queued fun x => { x with tail := 4 })).queue 8).reason = reasonDbBackward ∧
      ((run (.doorbell 0x44 8 15) up).queue 8).pendTail = some 15 ∧
      ((run (.doorbell 0x44 8 0x8001000F) up).queue 8).st = .halted ∧
      (let x := (run (.doorbell 0x44 8 0x80010000) up).queue 8
       x.pendTail = some 0x10000 ∧ x.pendInval = true) := by decide +kernel

theorem test_Doorbells_apply :
    (let s := queued fun x => { x with pendTail := some 5, pendInval := true, cache := [(0, 1)] }
     (run (.pendingTailApply 8) s).queue 8 = { ring with tail := 5 }) ∧ idle (.pendingTailApply 8) up ∧
      idle (.pendingTailApply 8) (queued fun x => { x with st := .halted, pendTail := some 5 }) := by decide +kernel

theorem test_QueueControl_enable :
    up.pageRefused 0x44 8 false = none ∧
      ((run (.queueEnable 0x44 8 3) (queued fun x => { x with st := .disabled })).queue 8).st = .active ∧
      ((run (.queueEnable 0x44 8 1) (queued fun x => { x with st := .disabled, log2 := 17 })).queue 8).cfgErr = true ∧
      ((run (.queueEnable 0x44 8 1) (queued fun x => { x with st := .draining })).queue 8).st = .active ∧
      ((run (.queueDisable 0x44 8 0) up).queue 8).st = .disabled ∧
      ((run (.queueDisable 0x44 8 0) (queued fun x => { x with heats := [20], cache := [(0, 1)] })).queue 8).st = .draining := by
  decide +kernel

theorem test_QueueControl_others :
    ((run (.queueHold 0x44 8 3) up).queue 8).hold = true ∧
      ((run (.queueInval 0x44 8 9) (queued fun x => { x with cache := [(0, 1)] })).queue 8).cache = [] ∧
      ((run (.queueReset 0x44 8 4) (queued fun x => { x with st := .disabled, head := 3, tail := 5 })).queue 8).tail = 0 ∧
      ((run (.queueReset 0x44 8 4) (queued fun x => { x with st := .halted, head := 3 })).queue 8).head = 3 ∧
      (let s := up.modQueue 0 fun x => { x with st := .halted, head := 3, reason := 4 }
       s.pageRefused 9 0 false = none ∧ (s.queue 0).idle = true ∧ ((run (.queueReset 9 0 4) s).queue 0).st = .disabled) := by
  decide +kernel

theorem test_QueueControl_ring :
    pumps (.ringConfigWrite 0x44 8 .cfg 5) up ∧
      (let s := queued fun x => { x with st := .disabled, head := 3 }
       ((run (.ringConfigWrite 0x44 8 .cfg 5) s).queue 8).log2 = 5 ∧ ((run (.ringConfigWrite 0x44 8 .lo 0x2003F) s).queue 8).base = 0x20000 ∧
         ((run (.ringConfigWrite 0x44 8 .hi 7) s).queue 8).base = 0x700010000) := by decide +kernel

theorem test_PickPort :
    up.pageRefused 1 8 false = some causeOwner ∧ (run (.queueHold 1 8 3) up).tng.dbRid = 1 ∧
      (run (.registerWrite (.pick 0x40 0x0F 0x44 3)) up).queue 8 = (run (.doorbell 0x44 8 3) up).queue 8 ∧
      (run (.pickPortRead 0x41 0xFF 9) up).ctl.rspCode = rspOkay ∧ up.ownsQueue 0x44 8 = true ∧
      (run (.pickPortRead 0x42 0xFF 0x44) up).ctl.pickData = 0x10000 ∧
      (run (.pickPortRead 0x42 0xFF 1) up).tng.dbCause = causeOwner ∧ (run (.pickPortRead 0x42 0xFF 1) up).ctl.pickData = 0 := by
  decide +kernel

theorem test_MalformedHalts :
    up.partOfQueue 8 = some 1 ∧ (up.part 1).state = .active ∧ up.partOfQueue 0 = none ∧
      ((up.malformed 8 reasonChain none).part 1).state = .halted ∧ ((up.malformed 0 reasonChain none).queue 0).st = .halted ∧
      (up.malformed 8 reasonChain none).queue 0 = up.queue 0 := by decide +kernel

/-- A NOP of queue 8, its completion record at 0x9000, and its translation. -/
def nopEntry : Payload := payloadAt [(0x31F, 0), (0x9000, 40)]
/-- Translations of the ring and of the records. -/
def pages : List XEnt :=
  [{ space := .asid 7, vpage := 0x10, size := 0, ppage := 0x110, write := false },
   { space := .asid 7, vpage := 0x9, size := 0, ppage := 0x109, write := true }]
/-- One entry waits in the ring. -/
def oneWaits : State := { queued fun x => { x with tail := 1 } with wld := { up.wld with cache := pages } }

theorem test_FetchAndValidate_fetch :
    (up.queue 8).toFetch = none ∧ (oneWaits.queue 8).toFetch = some 0 ∧ oneWaits.xlateHit (.asid 7) 0x10 false = pages.head? ∧
      ((run (.descriptorFetch 8) oneWaits).queue 8).fetching = [0] ∧ idle (.descriptorFetch 8) up ∧
      (let s := queued fun x => { x with tail := 1 }
       s.xlateHit (.asid 7) 0x10 false = none ∧ s.spaceOf 8 = .asid 7 ∧
         (s.askXlate { page := false, space := .asid 7, vpage := 0x10, write := false, owner := .fetch 8 0 }).isSome = true ∧
         (run (.descriptorFetch 8) s).wld.xl.length = 1) := by decide +kernel

/-- The NOP under validation. -/
def under (e : Payload) : State := { queued fun x => { x with tail := 1, under := [e] } with wld := { up.wld with cache := pages } }

theorem test_FetchAndValidate_validate :
    ((under nopEntry).queue 8).whole = true ∧ cmplOk 0x9000 = true ∧
      ((run (.chainValidate 8) (under nopEntry)).queue 8).ready = some ({ kind := .nop }, parseWords nopEntry [nopEntry], 1) ∧
      ((run (.chainValidate 8) (under nopEntry)).queue 8).cmplPa = 0x109000 ∧
      ((run (.chainValidate 8) (under (payloadAt [(0x3FF, 0), (0x9000, 40)]))).queue 8).reason = reasonKind ∧
      pumps (.chainValidate 8) (queued fun x => { x with st := .disabled }) := by decide +kernel

theorem test_FetchAndValidate_chain :
    (let s := queued fun x => { x with tail := 1, cache := [(0, payloadAt [(0x21F, 0)])] }
     entFirst (payloadAt [(0x21F, 0)]) = false ∧ ((run (.chainValidate 8) s).queue 8).reason = reasonChain) := by decide +kernel

/-! ### Dispatch of each kind, and heats of the steward (01, 02, 07, 13) -/

/-- The context that queue `q` would take for its chain, and the block once the chain has entered it, where it has its turn. -/
def turnAt (s : State) (q : Nat) (k : Kind) : Option (Nat × State) :=
  match (s.queue q).ready, s.nextGrant with
  | some (d, w, n), some (r, g) =>
    if (s.queue q).st = .active ∧ d.kind = k ∧ s.powered k = true ∧ r = q then
      (g.freeCtx q).map fun c =>
        (c, if (g.enter q c d w n).power.level ≠ 0 || (g.enter q c d w n).anvilOut then (g.enter q c d w n).perturb c
            else g.enter q c d w n)
    else none
  | _, _ => none

/-- What it computes is a turn as the statements speak of it. -/
theorem turnAt_turn {s u : State} {q c : Nat} {k : Kind} (h : turnAt s q k = some (c, u)) :
    ∃ d w n, s.turn q k d w n c u := by
  unfold turnAt at h
  split at h
  · rename_i d w n r g h1 h2
    split at h
    · rename_i h3
      obtain ⟨h4, h5, h6, rfl⟩ := h3
      rw [Option.map_eq_some_iff] at h
      obtain ⟨x, hx, he⟩ := h
      cases he
      exact ⟨d, w, n, h4, h1, h5, h6, g, h2, hx, rfl⟩
    · cases h
  · cases h

/-- A plan of two ranks, this engine rank 0 and root, in entry 0. -/
def plan2 : Plan :=
  { part := 1, id := 2, addr := 0x40000, digest := 0xABCD, size := 2, rankmapOff := 0x40, rank := 0, parent := [0xFFFF, 0]
    children := [[1], []], rings := [[], []], boardBase := [0, 0], boardSize := [2, 2], root := 0, algo := [0, 0, 1, 0, 0, 1, 1, 0, 0, 0, 1, 1, 1], reqs := [], dests := []
    eps := [(1, 6)], circs := [], lost := [], ready := true, leaving := none }

/-- A chain of queue 8, or of queue 0, waits for dispatch. -/
def waits (q : Nat) (d : Desc) (w : Words) : State :=
  (up.modQueue q fun x => { x with ready := some (d, w, 1) }).setPlan 0 (some plan2)

/-- Words of a heat of two elements in memory. -/
def words2 : Words := { count := 2, slot := 7, src := 0x20000, dst := 0x30000, cmpl := 0x9000 }
/-- The descriptor of a heat of plan 2 with memory at both ends. -/
def desc2 (k : Kind) : Desc := { kind := k, plan := 2, srcMode := .linear, dstMode := .linear, endp := .drain }

theorem test_turns :
    [Kind.allreduce, .reduceScatter, .allgather, .reduce, .broadcast, .alltoall, .rotate, .topk, .softmax, .barrier, .send, .recv,
      .partialWrite, .nop, .planLoad, .planUnload, .preload, .drainSlot].all fun k => (turnAt (waits 8 (desc2 k) words2) 8 k).isSome := by
  decide +kernel

theorem test_stewardTurns :
    [Kind.partCreate, .partReset, .keySet, .quotaSet, .routeSwap, .drainVc, .cableAdopt, .reimageStage, .reimageActivate,
      .planRevoke].all fun k => (turnAt (waits 0 { kind := k } {}) 0 k).isSome := by decide +kernel

/-- The kind, phase and number of flows of the heat that a dispatch leaves in context `c`. -/
def leaves (c : Nat) (i : Instr) (s : State) : Option (Kind × Phase × Nat) :=
  ((run i s).heat c).map fun h => (h.id.d.kind, h.run.phase, h.dp.outs.length + h.dp.ins.length)

theorem test_Dispatch :
    (let s := waits 8 (desc2 .reduce) words2
     let t := run (.reduce 8) s
     (t.queue 8).head = 1 ∧ (t.queue 8).heats = [0] ∧ t.tng.order = 1 ∧ idle (.allreduce 8) s ∧
       leaves 0 (.reduce 8) s = some (.reduce, .slot, 1)) ∧
      (let s := { waits 8 (desc2 .reduce) words2 with power := { up.power with on := 0xFFE0FF, aligned := 0xFFE0FF } }
       s.powered .reduce = false ∧ bit (run (.reduce 8) s).power.waking 8 = true ∧ (run (.reduce 8) s).heat 0 = none) ∧
      idle (.reduce 8) (queued fun x => { x with st := .disabled, ready := some (desc2 .reduce, words2, 1) }) := by decide +kernel

theorem test_Dispatch_other :
    (let s := (waits 8 (desc2 .nop) words2).modQueue 0 fun x => { x with ready := some ({ kind := .keySet }, {}, 1) }
     s.nextGrant.map (·.1) = some 0 ∧ s.powered .nop = true ∧ idle (.nop 8) s) := by decide +kernel

/-- What a start of a heat of kind `k` over plan 2 leaves of its phase. -/
def begins (p : Option Plan) (k : Kind) (w : Words) : Option Phase :=
  let s := (up.setPlan 0 p).setHeat 20 (some (running (heatOf (desc2 k) w)))
  ((s.beginGroup 20 (some 1) (desc2 k) w).heat 20).map (·.run.phase)

theorem test_GroupHeats :
    begins none .reduce words2 = some (.ended .planInvalid) ∧
      ({ plan2 with algo := [] } : Plan).serves .allgather = false ∧ begins (some { plan2 with algo := [] }) .allgather words2 = some (.ended .planInvalid) ∧
      atDispatch plan2 (desc2 .reduce) { words2 with w6 := 2 } (up.part 1).weldPorts = false ∧
      begins (some plan2) .reduce { words2 with w6 := 2 } = some (.ended .malformed) ∧
      (let p := { plan2 with lost := [0], reqs := [(1, 0, 0, 4)] }
       needsLost p (desc2 .reduce) words2 = true ∧ begins (some p) .reduce words2 = some (.ended .portLost)) ∧
      plan2.serves .reduce = true ∧ atDispatch plan2 (desc2 .reduce) words2 (up.part 1).weldPorts = true ∧ needsLost plan2 (desc2 .reduce) words2 = false ∧
      begins (some plan2) .reduce words2 = some .slot := by decide +kernel

/-- The plan with a ring of the two ranks. -/
def planRing : Plan := { plan2 with rings := [[(1, 1)], [(0, 0)]] }

/-- The conditions under which a group heat runs hold at a turn of kind `k`, over plan `p`; the phase that the dispatch leaves. -/
def groupRuns (p : Plan) (k : Kind) (i : Instr) : Bool × Option Phase :=
  let s := (waits 8 (desc2 k) words2).setPlan 0 (some p)
  ((turnAt s 8 k).any fun x => x.2.partOfQueue 8 = some 1 && x.2.planKey 1 2 = some 0 && x.2.plan 0 = some p && p.serves k &&
      atDispatch p (desc2 k) words2 (x.2.part 1).weldPorts && !needsLost p (desc2 k) words2 &&
      p.eps.all fun e => x.2.inBitmap 1 e.2,
    ((run i s).heat 0).map (·.run.phase))

theorem test_GroupHeats_run :
    ([(Kind.allreduce, Instr.allreduce 8), (.reduceScatter, .reduceScatter 8), (.reduce, .reduce 8), (.topk, .topk 8),
      (.softmax, .softmaxMerge 8)].all fun e => groupRuns plan2 e.1 e.2 = (true, some .slot)) ∧
      ([(Kind.allgather, Instr.allgather 8), (.broadcast, .broadcast 8), (.alltoall, .alltoall 8), (.barrier, .barrier 8),
        (.send, .send 8), (.recv, .recv 8), (.partialWrite, .partialWrite 8)].all fun e => (groupRuns plan2 e.1 e.2).1) ∧
      (groupRuns planRing .rotate (.rotate 8)).1 = true := by decide +kernel

theorem test_LocalHeats :
    up.partOfQueue 8 = some 1 ∧ leaves 0 (.nop 8) (waits 8 (desc2 .nop) words2) = some (.nop, .ended .ok, 0) ∧
      leaves 0 (.planLoad 8) (waits 8 (desc2 .planLoad) words2) = some (.planLoad, .ended .planInvalid, 0) ∧
      leaves 0 (.planLoad 8) (waits 8 { desc2 .planLoad with plan := 3 } words2) = some (.planLoad, .run, 0) ∧
      leaves 0 (.planUnload 8) (waits 8 { desc2 .planUnload with plan := 3 } words2) = some (.planUnload, .ended .planInvalid, 0) ∧
      ((run (.planUnload 8) (waits 8 (desc2 .planUnload) words2)).plan 0) = none ∧
      leaves 0 (.preloadSlot 8) (waits 8 (desc2 .preload) words2) = some (.preload, .slot, 0) ∧
      leaves 0 (.drainSlot 8) (waits 8 (desc2 .drainSlot) words2) = some (.drainSlot, .slot, 0) := by decide +kernel

/-- A PARTITION_CREATE of partition 2: key 0x033, generation 1, queues 16 and 17, barrier objects 512 and 513. -/
def create2 : Words := { src := 0x50000, w6 := 0x0001_0000_0010_3302, w7 := 0x0055_0008, ext1 := 0x0002_0200_0002_0010 }

/-- What a steward's command leaves of its heat: the phase, what it waits for, and the streams. -/
def ends (i : Instr) (s : State) : Option (Phase × Nat × Nat) :=
  ((run i s).heat 4080).map fun h => (h.run.phase, h.run.due, h.dp.streams.length)
/-- A steward chain of kind `k` on `s`. -/
def ask (k : Kind) (w : Words) (s : State := up) : State := s.modQueue 0 fun x => { x with ready := some ({ kind := k }, w, 1) }

theorem test_PartitionCreate :
    up.createCheck create2 = .go ∧ ends .partitionCreate (ask .partCreate create2) = some (.run, 0, 1) ∧
      up.createCheck { create2 with w6 := 0x0010_2102 } = .refuse ∧
      ends .partitionCreate (ask .partCreate { create2 with w6 := 0x0010_2102 }) = some (.ended .malformed, 0, 0) ∧
      chain.createCheck create2 = .refuse ∧
      (let s := { up with tab := { up.tab with released := [(0x033, 6400)] } }
       s.createCheck create2 = .wait (6400 + 160 * msPs) ∧
         ends .partitionCreate (ask .partCreate create2 s) = some (.run, 6400 + 160 * msPs, 0)) := by decide +kernel

/-- A PARTITION_UPDATE of partition 1. -/
def update1 : Words := { src := 0x50000, w6 := 0x0001_0230_2101, w7 := 0x0044_0007, ext1 := 0x0008_0100_0004_0008 }

theorem test_PartitionCreate_applies :
    up.createCheck update1 = .go ∧ bit update1.w6 32 = true ∧ ends .partitionUpdate (ask .partCreate update1) = some (.run, 0, 1) ∧
      (let h := steward .partCreate create2
       let s := up.setHeat 4080 (some h)
       let t := s.createApply 4080 h [7, 9]
       s.createCheck h.id.w = .go ∧ (t.part 2).key = 0x033 ∧ (t.part 2).bitmap = [7, 9] ∧ (t.queue 17).st = .disabled ∧
         (t.part 2).requester = 0x55 ∧ (t.part 1) = part1) ∧
      (let h := steward .partCreate update1
       ((up.setHeat 4080 (some h)).createApply 4080 h [7, 9]).part 1 = { part1 with bitmap := [7, 9] }) ∧
      (let s := up.setHeat 4081 (some (steward .partReset { w6 := 2 }))
       ends .partitionCreate (ask .partCreate create2 s) = some (.queued, 0, 0)) := by decide +kernel

/-- Partition 1 ended a reset at `t`. -/
def wasReset (t : Nat) : State := up.modPart 1 fun p => { p with lastReset := some t }

theorem test_PartitionReset_starts :
    ends .partitionReset (ask .partReset { w6 := 3 }) = some (.ended .malformed, 0, 0) ∧
      ends .partitionRelease (ask .partReset { w6 := 0x103 }) = some (.ended .malformed, 0, 0) ∧
      ends .partitionReset (ask .partReset { w6 := 1 } (wasReset 0)) = some (.run, 10 * msPs, 0) ∧
      ((run .partitionReset (ask .partReset { w6 := 1 } (withHeat adder))).part 1).state = .resetting ∧
      ((run .partitionRelease (ask .partReset { w6 := 0x101 } (withHeat adder))).part 1).state = .releasing ∧
      ((run .partitionReset (ask .partReset { w6 := 1 })).part 1).gen = 4 := by decide +kernel

theorem test_PartitionReset_finishes :
    (let s := up.setHeat 4080 (some (steward .partReset { w6 := 1 }))
     s.heat 4080 = some (steward .partReset { w6 := 1 }) ∧ (steward .partReset { w6 := 1 }).live = true ∧
       ((s.resetFinish 4080 1 false).part 1).gen = 4 ∧ ((s.resetFinish 4080 1 false).queue 8).st = .disabled ∧
       (s.resetFinish 4080 1 true).part 1 = Part.free ∧ (s.resetFinish 4080 1 true).tab.released = [(0x021, 6400)] ∧
       ((s.resetFinish 4080 1 true).heat 4080).map (·.run.phase) = some (.ended .ok)) := by decide +kernel

theorem test_KeysQuotasPlans :
    (run .keySet (ask .keySet { w6 := 0x10021, w7 := 0x8000000001 })).route.keys = [(0x021, true), (39 * 4096 + 0x021, true)] ∧
      (let w : Words := { w6 := 0x0050_2002_0010_0001, w7 := 0x0001_0002_0003 }
       ((up.runs 0).quotaFits w.partIdx (quotaOf w)) = true ∧ ((run .quotaSet (ask .quotaSet w)).part 1).quota = quotaOf w) ∧
      ends .quotaSet (ask .quotaSet { w6 := 2 }) = some (.ended .quotaExceeded, 0, 0) ∧
      ends .planRevoke (ask .planRevoke { w6 := 2 }) = some (.ended .malformed, 0, 0) ∧
      (let s := up.setPlan 0 (some plan2)
       s.tab.plans = [(0, some plan2)] ∧ (run .planRevoke (ask .planRevoke { w6 := 0x201 } s)).plan 0 = none ∧
         ends .planRevoke (ask .planRevoke { w6 := 0x201 } s) = some (.ended .ok, 0, 0)) := by decide +kernel

theorem test_RouteChanges :
    up.route.hold = none ∧ (run .drainVc (ask .drainVc { w6 := 0x0005_0002_003C, w7 := 3 })).route.hold.map (·.deadline) =
        some (6400 + 5 * msPs) ∧
      ends .drainVcRelease (ask .drainVc { w6 := 0x100 }) = some (.ended .ok, 0, 0) ∧
      (up.runs 4080).swapDrained = false ∧ ends .routeSwap (ask .routeSwap {}) = some (.ended .malformed, 0, 0) ∧
      (up.runs 4080).swapForced = false ∧ ends .routeSwapForced (ask .routeSwap { w6 := 1 }) = some (.ended .malformed, 0, 0) := by
  decide +kernel

/-- The engine is drained, and its partition halted. -/
def drained : State :=
  let s := up.modPart 1 fun p => { p with state := .halted }
  let h : Hold :=
    { vcs := 0xCF, ports := 0xFFFFFFFFFF, quietUs := 0, drained := true, heat := none, deadline := 0, lastSeen := 0, waiting := [] }
  { s with route := { s.route with hold := some h } }

theorem test_RouteChanges_swap :
    (drained.runs 4080).swapForced = true ∧ (run .routeSwapForced (ask .routeSwap { w6 := 1 } drained)).route.swap =
        some (4080, true, 0) ∧
      (drained.runs 4080).swapDrained = true ∧ ends .routeSwap (ask .routeSwap {} drained) = some (.run, 6400 + 16 * 6400, 0) ∧
      drained.releaseHold.route.hold = none := by decide +kernel

/-- Port 4 quarantined as foreign, ports 6 and 7 swapped. -/
def cabled : State :=
  let s := up.modPort 4 fun x => { x with reg := { x.reg with st := .quarantine, qreason := 1, peerId := 0x77, peerPort := 9, plan := 0x80000000 } }
  let s := s.modPort 6 fun x => { x with reg := { x.reg with st := .swapped, other := 7, plan := 0x80000046 } }
  s.modPort 7 fun x => { x with reg := { x.reg with st := .swapped, other := 6, plan := 0x80000087 } }

theorem test_CablesAndImages_adopt :
    ((run .cableAdopt (ask .cableAdopt { w6 := 4 } cabled)).port 4).reg.st = .adopted ∧
      ((run .cableAdoptPair (ask .cableAdopt { w6 := 0x10706 } cabled)).port 6).reg.plan = 0x80000087 ∧
      ((run .cableAdoptPair (ask .cableAdopt { w6 := 0x10706 } cabled)).port 7).reg.plan = 0x80000046 ∧
      ends .cableAdopt (ask .cableAdopt { w6 := 3 } cabled) = some (.ended .malformed, 0, 0) := by decide +kernel

/-- Live reimage is permitted, and a microcode staged. -/
def staged : State := { up with
  boot := { up.boot with cfg := { up.boot.cfg with reimageEn := true } }, seq := { up.seq with standby := .staged } }

theorem test_CablesAndImages_reimage :
    bit staged.ctl.permits 3 = true ∧ (run .reimageActivate (ask .reimageActivate { w6 := 7 } staged)).seq.hold =
        some (4080, 6400 + 7 * msPs) ∧
      ends .reimageActivate (ask .reimageActivate { w6 := 7 }) = some (.ended .malformed, 0, 0) ∧
      ((run .reimageStage (ask .reimageStage { count := 4096, src := 0x1000 })).heat 4080).map (·.dp.streams.map (·.total)) =
        some [4096] := by decide +kernel

/-- A heat of two elements of slot 7 that waits for the slot, its result held here. -/
def slotHeat (endp : EndPol) : Heat :=
  let h := inPhase .slot (heatOf { desc2 .reduce with endp := endp } words2)
  { h with dp := { h.dp with
    segs := [{ lo := 0, n := 2, ins := [.own], node := 0, start := true, fin := true }], ranges := [(0, 2)] } }

theorem test_SlotsAndStaging_obtain :
    (let s := withHeat (slotHeat .drain)
     let t := run (.slotObtain 20) s
     s.slotBehind 20 (slotHeat .drain) = false ∧ s.slot 1 7 = none ∧ (t.slot 1 7).map (·.sets.map (·.st)) = some [.active] ∧
       (t.heat 20).map (·.run.phase) = some .run ∧ t.hrt.ingots = [(0, true)]) ∧
      ((run (.slotObtain 20) (withHeat (slotHeat .shadow))).slot 1 7).map (·.sets.length) = some 2 ∧
      (let s := (withHeat (slotHeat .drain)).modPart 1 fun p => { p with quota := { p.quota with slots := 0 } }
       ((run (.slotObtain 20) s).heat 20).map (·.run.phase) = some (.ended .quotaExceeded)) := by decide +kernel

/-- The heat waits for a slot whose set has a state. -/
def onSlot (st : SetState) : State :=
  ((slotted st).setHeat 20 (some (slotHeat .drain))).modQueue 8 fun x => { x with heats := [20] }

theorem test_SlotsAndStaging_sets :
    (slotOf .empty).kind = (slotHeat .drain).id.d.slotKind ∧ (slotOf .empty).width = slotWidth (slotHeat .drain).id.d words2 ∧
      ((run (.slotObtain 20) (onSlot .empty)).slot 1 7).map (·.sets.map (·.st)) = some [.active] ∧
      ((run (.slotObtain 20) (onSlot .poisoned)).heat 20).map (·.run.phase) = some .run ∧ idle (.slotObtain 20) (onSlot .active) ∧
      ((run (.slotObtain 20) (onSlot .opened)).heat 20).map (·.run.phase) = some (.ended .malformed) ∧
      (let s := { onSlot .empty with power := gated.power }
       bit (run (.slotObtain 20) { s with power := { s.power with on := 0xFF } }).power.waking 13 = true) ∧
      idle (.slotObtain 20) { onSlot .empty with hrt := { (onSlot .empty).hrt with resetting := true } } := by decide +kernel

/-- The heat's set drains, and everything has been written. -/
def draining (endp : EndPol) : State :=
  let h := running (heatOf { desc2 .reduce with endp := endp, dstMode := .none } words2)
  (slotted .draining).setHeat 20 (some { h with dp := { h.dp with slotHeld := true, added := true, drained := true } })

theorem test_SlotsAndStaging_drain :
    ((draining .drain).heat 20).map (·.drainOver) = some true ∧
      ((run (.setDrainDone 20) (draining .drain)).slot 1 7).map (·.sets.map (·.st)) = some [.empty] ∧
      (run (.setDrainDone 20) (draining .drainFree)).slot 1 7 = none ∧
      (run (.setDrainDone 20) (draining .drainFree)).hrt.scrub = [5, 0] ∧ pumps (.setDrainDone 20) (onSlot .draining) := by decide +kernel

/-- A stream of the heat waits for a staging pair, in a partition that may have `n`. -/
def starved (n : Nat) : State :=
  let h := running (heatOf (desc2 .send) words2)
  (withHeat { h with dp := { h.dp with streams :=
    [{ id := .src, write := false, place := .mem 0x20000 [], esize := 4, total := 8, wait := .staging }] } }).modPart 1 fun p =>
      { p with quota := { p.quota with staging := n } }

theorem test_SlotsAndStaging_staging :
    ((starved 1).heat 20).map ((starved 1).stagingFree ·) = some true ∧
      ((run (.stagingPairGrant 20 .src) (starved 1)).heat 20).map (·.dp.streams.map (·.staged)) = some [true] ∧
      idle (.stagingPairGrant 20 .src) (starved 0) ∧ (up.use 1).staging = 0 := by decide +kernel

/-- A heat that has ended with OK. -/
def finished : State := withHeat (inPhase (.ended .ok) (heatOf { desc2 .nop with notify := true } words2))

theorem test_CompletionRecords :
    (finished.heat 20).map (finished.mayComplete 20 ·) = some true ∧ (finished.ports.all fun e => !e.2.degraded) ∧
      (run (.heatCompletion 20) finished).heat 20 = none ∧
      (run (.heatCompletion 20) finished).wld.pick.map (fun p => (p.addr, p.last)) = [(0x9008, false), (0x9000, true)] ∧
      ((run (.heatCompletion 20) finished).queue 8).heats = [] ∧ idle (.heatCompletion 20) (withHeat adder) ∧
      (let s := finished.modQueue 8 fun x => { x with st := .draining }
       ((run (.heatCompletion 20) s).queue 8).st = .disabled) := by decide +kernel

theorem test_CompletionRecords_events :
    (let s := run (.heatCompletion 20) finished
     let t := run (.pickWriteResponse false) (run (.pickWriteResponse false) s)
     t.tng.evts = [(8, true)] ∧ t.tng.evtNow = some 8 ∧ (run .completionEvent t).tng.evts = [] ∧
       (run .completionEvent t).tng.evtLast = 8 ∧
       (run (.pickWriteResponse false) (run (.pickWriteResponse true) s)).tng.evts = [] ∧
       (run (.pickWriteResponse true) s).wld.memPick = 1) ∧ idle (.pickWriteResponse false) up ∧ idle .completionEvent up := by
  decide +kernel

/-! ### Billets, circuits, time, barriers (09 to 11) -/

/-- A heat of two ranks that receives two elements from rank 1 under tag 40 and sends two to it under tag 41. -/
def flowing (k : Kind) (f : FlowIn → FlowIn) (g : FlowOut → FlowOut) : Heat :=
  let h := running (heatOf (desc2 k) words2)
  { h with
    grp := { h.grp with size := 2, peers := [(1, some 33)], eps := [(1, 6)], need := [1] }
    dp := { h.dp with
      hasDst := true, dcount := 4
      ins := [f { peer := 1, index := 1, tag := 40, peerTag := some 50, runs := [.data 2 2] }]
      outs := [g { peers := [1], tags := [41], peerTags := [(1, 51)], runs := [.data 0 2] }] } }

/-- The heat in context 20 with its tags. -/
def flows (h : Heat) : State := ((withHeat h).setTag 40 (.recv 20 0)).setTag 41 (.send 20 0)

/-- A billet of the partition, to a tag. -/
def toTag (t : BitVec 12) (kind : BitVec 4) (vc : BitVec 3) (seq : BitVec 13) (data : Payload) : Billet :=
  { billet kind vc 0x021 seq data with tag := t }

theorem test_BilletsWithoutHeat :
    idle (.data 3 (billet kCommit 1 0x021 0 0) []) up ∧ idle (.mask 3 (billet kData 2 0x021 0 0)) up ∧
      up.isSlag (billet kData 2 0x022 0 0) = true ∧ (run (.data 3 (billet kData 2 0x022 0 0) []) up).tng.slagBillet = 1 ∧
      (run (.ready 3 (billet kReady 0 0x022 0 0)) up).tng.slagBillet = 1 ∧ up.isSlag (billet kData 2 0x021 0 0) = false ∧
      up.inFlow (billet kData 2 0x021 0 0) = none ∧ (run (.data 3 (billet kData 2 0x021 0 0) []) up).tng.tagDrop = 1 ∧
      (run (.commit 3 (billet kCommit 1 0x021 0 0)) up).tng.tagDrop = 1 ∧
      (run (.beacon 3 (billet kBeacon 0 0x021 0 0)) up).tng.tagDrop = 1 := by decide +kernel

/-- What flow 0 of context 20 is after a command: the sequence expected, billets held, the refusal. -/
def expects (i : Instr) (s : State) : Option (Nat × Nat × Option Nat) :=
  ((run i s).heat 20).bind fun h => (h.dp.ins[0]?).map fun x => (x.next, x.held.length, x.refused)

theorem test_DataBillets :
    (let s := flows (flowing .allgather id id)
     let d := toTag 40 kData 2 0 0x3F80000040000000
     (s.inFlow d).map (fun x => (x.1, x.2.1)) = some (20, 0) ∧ (flowing .allgather id id).paused = false ∧
       ((s.inFlow d).map fun x => x.2.2.1.notYet x.2.2.2) = some false ∧
       (s.applyItem 20 0 { mask := false, data := d.data } false).isSome = true ∧ expects (.data 3 d []) s = some (1, 0, none) ∧
       expects (.data 3 { d with seq := 5 } []) s = some (0, 0, none)) := by decide +kernel

/-- A billet held at the head of the flow. -/
def early1 (n : Nat) : State :=
  flows (flowing .reduce (fun x => { x with held := List.replicate n { mask := false, data := 0 }, runs := [.part 0 0 2 false] }) id)

theorem test_DataBillets_early :
    expects (.data 3 (toTag 40 kData 2 0 7) []) (early1 1) = some (1, 2, none) ∧
      expects (.data 3 (toTag 40 kData 2 0 7) []) (early1 8) = some (0, 8, some 0) ∧
      (run (.data 3 (toTag 40 kData 2 0 7) []) (early1 8)).hrt.reorderHolds = 1 ∧
      expects (.mask 3 (toTag 40 kMask 2 0 7)) (early1 8) = some (1, 9, none) ∧
      (let h := flowing .reduce id id
       idle (.data 3 (toTag 40 kData 2 0 7) []) (flows { h with run := { h.run with pausedAt := some 0 } })) := by decide +kernel

/-- Two billets have been sent. -/
def sending : State := flows (flowing .allgather id fun x => { x with next := 2, items := [⟨false, 1⟩, ⟨false, 2⟩] })

/-- What the sent flow is after a command. -/
def sent (i : Instr) (s : State) : Option (Nat × Nat × Bool) :=
  ((run i s).heat 20).bind fun h => (h.dp.outs[0]?).map fun x => (x.committedBy 1, x.next, x.stopped)

theorem test_FlowControlAndReady_flow :
    (sending.outFlow (toTag 41 kCommit 1 0 0)).isSome = true ∧ sent (.commit 3 (toTag 41 kCommit 1 0 0)) sending = some (1, 2, false) ∧
      sent (.hold 3 (toTag 41 kHold 1 0 1)) sending = some (0, 1, true) ∧
      (let s := run (.hold 3 (toTag 41 kHold 1 0 1)) sending
       ((s.heat 20).bind fun h => (h.dp.outs[0]?).map fun x => (x.next, x.stopped)) = some (1, true)) := by decide +kernel

/-- A heat that waits for rank 1's READY, with the digest of its plan. -/
def meeting : Heat :=
  let h := flowing .allgather id id
  { h with grp := { h.grp with digest := 0xABCD, peers := [(1, none)], rank := 0 } }

/-- The READY that rank 1 would send of the same heat, and of another. -/
def readyOf (h : Heat) (seq : BitVec 13) : Billet :=
  { toTag 0 kReady 0 seq ({ h with grp := { h.grp with rank := 1, peers := [(0, none)] } }.readyData 33 6 0) with vc := if bit seq 0 then 1 else 0 }

theorem test_FlowControlAndReady_ready :
    (let s := flows meeting
     (s.counterpart (some 1) (readyOf meeting 0).data).map (·.1) = some 20 ∧ meeting.agrees (readyOf meeting 0).data = true ∧
       ((run (.ready 3 (readyOf meeting 0)) s).heat 20).map (·.peerCtx 1) = some (some 33) ∧
       ((run (.readyReply 3 (readyOf meeting 1)) s).heat 20).map (·.peerCtx 1) = some (some 33) ∧
       ((run (.readyReply 3 (readyOf meeting 3)) s).heat 20).map (·.run.phase) = some (.ended .planInvalid) ∧
       up.counterpart (some 1) (readyOf meeting 0).data = none ∧ idle (.ready 3 (readyOf meeting 0)) up) ∧
      (let other := { meeting with id := { meeting.id with w := { words2 with count := 3 } } }
       meeting.agrees (readyOf other 0).data = false ∧
         ((run (.ready 3 (readyOf other 0)) (flows meeting)).heat 20).map (·.run.phase) = some (.ended .planInvalid)) := by
  decide +kernel

theorem test_HeatBillets_beacon :
    (let s := flows (flowing .allgather id id)
     let b := toTag 40 kBeacon 0 0 (payloadAt [(1, 0), (7, 2)])
     (s.beaconFlow b).map (fun x => (x.1, x.2.2)) = some (20, 1) ∧
       ((run (.beacon 3 b) s).heat 20).map (·.run.seen) = some [(1, 7, 6400)] ∧
       ((run (.beacon 3 b) s).heat 20).map (·.newCount 1 7) = some false ∧
       ((run (.beacon 3 b) s).heat 20).map (·.newCount 1 (7 + 32767)) = some true ∧
       ((run (.beacon 3 b) s).heat 20).map (·.newCount 1 (7 + 32768)) = some false) := by decide +kernel

/-- A BARRIER heat, its release told or not. -/
def barrierHeat (t : Option W64) (released : Bool) : Heat :=
  let h := flowing .barrier (fun x => { x with runs := [] }) fun x => { x with runs := [] }
  { h with grp := { h.grp with releaseT := t, released := released, up := some 1 }, run := { h.run with due := 9000 } }

theorem test_HeatBillets_barrier :
    (let s := flows (barrierHeat none false)
     ((run (.barrierArrive 3 (toTag 40 kBarrier 0 0 0)) s).heat 20).map (·.grp.arrived) = some [1] ∧
       ((run (.barrierRelease 3 (toTag 40 kBarrier 0 1 0)) s).heat 20).map (·.grp.released) = some true ∧
       ((run (.barrierRelease 3 (toTag 40 kBarrier 0 1 (payloadAt [(99, 16)]))) s).heat 20).map (·.grp.releaseT) = some (some 99) ∧
       idle (.barrierRelease 3 (toTag 40 kBarrier 0 1 0)) (flows (barrierHeat (some 99) false))) := by decide +kernel

theorem test_HeatBillets_counts :
    (let h := flowing .alltoall id id
     let h := { h with dp := { h.dp with recvLeft := 1 } }
     let s := flows h
     Tbl.get none h.dp.recvCnt 1 = none ∧ 5 % h.pc.countSpan = 0 ∧
       ((run (.counts 3 (toTag 40 kCounts 1 0 5)) s).heat 20).map (·.dp.recvCnt) = some [(1, some 5)]) := by decide +kernel

/-- Port 3 is in service, and endpoint 6 beyond it; the partition's key passes. -/
def routed : State :=
  let s := up.modPort 3 fun x => { x with reg := { x.reg with st := .active, width := 8, laneUse := 0xFF } }
  { s with route := { s.route with bank0 := [(6, 0x8003), (7, 0x8004), (8, 0xC003)], keys := [(2 * 4096 + 0x021, true)] } }

theorem test_Ingress :
    (let d := { toTag 40 kData 2 0 1 with dest := 6 }
     onCircuit d = false ∧ routed.route.forceUntil = none ∧ routed.keyPasses 2 0x021 = true ∧ kindOnVc d = true ∧
       routed.lookup 6 = .out 3 false false ∧ routed.lookup 7 = .portdown ∧ routed.lookup 9 = .noroute ∧ routed.lookup 5 = .here ∧
       ((run (.billetIngress 2 d) routed).port 3).tx.queue = [d] ∧
       ((run (.billetIngress 2 { d with dest := 8 }) routed).port 3).tx.queue = [{ d with dest := 8, vc := 3 }] ∧
       (run (.billetIngress 2 { d with dest := 7 }) routed).route.portdown = 1 ∧
       (run (.billetIngress 2 { d with dest := 9 }) routed).route.noroute = 1 ∧
       (run (.billetIngress 2 { d with kind := kCommit }) routed).route.kindDrop = 1 ∧
       ((run (.billetIngress 1 d) routed).port 1).reg.keyIn = 1 ∧
       ((run (.billetIngress 2 { d with dest := 5 }) routed).port 2).rx.inbox.length = 1 ∧
       (run (.billetIngress 2 { d with dest := 5, gen := 9 }) routed).tng.slagBillet = 1 ∧
       idle (.billetIngress 2 { d with vc := 4 }) routed) := by decide +kernel

/-- A circuit of the partition, in by port 2 under label 77. -/
def circ1 (out : Option (Fin 40)) (deliver : Bool) (tag : Option (BitVec 12)) : Circ :=
  { ingress := some 2, upLabel := 77, out := out, slots := [0, 1], deliver := deliver, tag := tag, key := 0x021, gen := 3, dateline := true
    newring := false, srcEp := 6, dstEp := 5, digest := 0xABCD, req := 0 }

theorem test_Ingress_circuit :
    (let d := { toTag 40 kData 4 0 1 with dest := 77 }
     (routed.circEntry 2 d) = none ∧ (run (.circuitForward 2 d) routed).route.noroute = 1 ∧
       ((run (.circuitForward 2 d) (routed.setCirc 9 (some (circ1 (some 3) false none)))).port 3).tx.queue =
         [{ d with dest := 9, vc := 5 }] ∧
       ((run (.circuitForward 2 d) (routed.setCirc 9 (some (circ1 none true (some 40))))).port 2).rx.inbox.length = 1 ∧
       (run (.circuitForward 2 d) (routed.setCirc 9 (some (circ1 none true none)))).route.noroute = 1 ∧
       idle (.circuitForward 2 { d with vc := 2 }) routed) := by decide +kernel

/-- A CIRCUIT billet of a subtype from engine 6 to an engine. -/
def circuit (sub : BitVec 13) (dst : BitVec 16) (w : Nat) : Billet :=
  toTag 0 kCircuit 0 sub ({ src := 6, dst := dst, w := w, kind := 1, digest := 0xABCD, req := 0, label := 77 } : CircMsg).data

theorem test_Circuits_setup :
    isCircuitSub (circuit 0 5 2) circSetup = true ∧ Tbl.free routed.route.circ 1024 = some 0 ∧
      ((run (.circuitSetup 2 (circuit 0 5 2)) routed).circ 0).map (fun e => (e.deliver, e.upLabel)) = some (true, 77) ∧
      ((run (.circuitSetup 2 (circuit 0 6 2)) routed).circ 0).map (fun e => (e.out, e.slots)) = some (some 3, [0, 1]) ∧
      (run (.circuitSetup 2 (circuit 0 6 300)) routed).circ 0 = none ∧ (routed.freeSlots 3 300).length = 256 ∧
      (run (.circuitSetup 2 (circuit 0 7 2)) routed).route.portdown = 1 ∧
      (run (.circuitSetup 2 (circuit 0 9 2)) routed).route.noroute = 1 ∧
      (run (.circuitSetup 2 { circuit 0 5 2 with gen := 9 }) routed).tng.slagBillet = 1 ∧
      idle (.circuitSetup 2 (circuit 1 5 2)) routed := by decide +kernel

theorem test_Circuits_release :
    (let s := routed.setCirc 9 (some (circ1 (some 3) false none))
     s.findCirc (CircMsg.of (circuit 3 5 2).data) = some 9 ∧ (run (.circuitRelease 2 (circuit 3 5 2)) s).circ 9 = none ∧
       ((run (.circuitRelease 2 (circuit 3 6 2)) s).port 3).tx.queue.length = 1 ∧
       (run (.circuitRelease 2 { circuit 3 5 2 with gen := 9 }) s).tng.slagBillet = 1) := by decide +kernel

/-- A PLAN_LOAD that waits for the circuit of its only request, whose plan stands in entry 0. -/
def loadingPlan : State :=
  let h := running (heatOf (desc2 .planLoad) words2)
  (withHeat { h with grp := { h.grp with sentUp := true, digest := 0xABCD, planKey := 0 }, run := { h.run with due := 9000 } }).setPlan 0
    (some { plan2 with ready := false, reqs := [(0, 1, 2, 1)] })

theorem test_Circuits_replies :
    (loadingPlan.loadFor (circuit 1 5 0)).map (·.1) = some 20 ∧
      ((run (.circuitConfirm 2 (circuit 1 5 0)) loadingPlan).plan 0).map (·.ready) = some true ∧
      ((run (.circuitConfirm 2 (circuit 1 5 0)) loadingPlan).heat 20).map (·.run.phase) = some (.ended .ok) ∧
      ((run (.circuitRefuse 2 (circuit 2 5 0)) loadingPlan).heat 20).map (·.run.phase) = some (.ended .noSlots) ∧
      (run (.circuitRefuse 2 (circuit 2 5 0)) loadingPlan).plan 0 = none ∧ up.loadFor (circuit 1 5 0) = none ∧
      ((run (.circuitSetupTimeout 20) loadingPlan).heat 20).map (·.run.phase) = some (.ended .noSlots) ∧
      (run (.circuitSetupTimeout 20) loadingPlan).time.now = 9000 := by decide +kernel

theorem test_Circuits_waits :
    (let s := loadingPlan.setPlan 0 (some { plan2 with ready := false, reqs := [(0, 1, 2, 1), (0, 1, 2, 2)] })
     ((run (.circuitConfirm 2 (circuit 1 5 0)) s).plan 0).map (·.ready) = some false) := by decide +kernel

/-- A role of time. -/
def timed (role : BitVec 2) (exch : Option W64) : State :=
  { routed with time := { routed.time with role := role, upstream := 6, exch := exch, now := 64000, offset := 100 } }
/-- A TIME billet. -/
def time (sub : BitVec 13) (fs : List (Nat × Nat)) : Billet := billet kTime 0 0 sub (payloadAt fs)

theorem test_TimeExchange_pulse :
    (let s := { up with time := { up.time with running := false, now := 64000 } }
     (run .epochPulse s).epoch = 1048576 ∧ (run .epochPulse s).time.running = true) ∧
      (let s := { up with time := { up.time with now := 6400 * 1048576 } }
       s.epoch = 2097152 ∧ (run .epochPulse s).epoch = 2097152 ∧ (run .epochPulse s).time.slip = 0) ∧
      (let s := { up with time := { up.time with now := 6400 * 1048577 } }
       (run .epochPulse s).epoch = 2097152 ∧ (run .epochPulse s).time.slip = 1) := by decide +kernel

theorem test_TimeExchange_billets :
    ((run (.timeReq 2 (time 0 [(5, 0), (6, 40)])) (timed 1 none)).port 3).tx.queue.length = 1 ∧
      idle (.timeResp 2 (time 1 [(5, 0)])) (timed 0 none) ∧ (timed 1 (some 5)).time.role = roleLead ∧
      (run (.timeResp 2 (time 1 [(5, 0)])) (timed 1 (some 5))).time.pend.length = 1 ∧
      (run (.timeResp 2 (time 1 [(5, 0)])) (timed 1 (some 5))).time.exch = none ∧
      ((run (.timeQuery 2 (time 2 [(6, 40)])) (timed 1 none)).port 3).tx.queue.length = 1 ∧
      (run (.timeState 2 (time 0xB [(77, 24)])) (timed roleMember none)).time.locked = true ∧
      (run (.timeState 2 (time 0xB [(77, 24)])) (timed roleMember none)).time.lastOffset = 77 ∧
      idle (.timeState 2 (time 3 [(77, 24)])) (timed 1 none) := by decide +kernel

theorem test_TimeExchange_timers :
    (run .timeExchangePeriod (timed 1 none)).time.exch.isSome = true ∧ (run .timeExchangePeriod (timed 1 (some 5))).time.lost = 1 ∧
      (run .timeRespTimeout (timed 1 (some 5))).time.lost = 1 ∧ (run .timeRespTimeout (timed 1 (some 5))).time.exch = none ∧
      ((run .memberQueryPeriod (timed roleMember none)).port 3).tx.queue.length = 1 ∧ idle .memberQueryPeriod (timed 1 none) ∧
      idle .timeExchangePeriod (timed 0 none) ∧ idle .timeRespTimeout (timed 0 none) ∧
      theta 100 205 300 400 0 = 2 ∧ theta 100 100 300 305 0 = -2 := by decide +kernel

/-- Barrier object 256 in a state. -/
def barred (b : Bar) : State := up.setBar 256 b

theorem test_Barriers_arrive :
    up.barRefused 0x44 256 = none ∧ up.barRefused 0x45 256 = some causeOwner ∧ (run (.arrive 0x45 256 1) up).tng.dbReject = 1 ∧
      (run (.arrive 0x44 256 3) up).tng.barBadwr = 1 ∧ (run (.arm 0x44 256 0x10000) up).tng.barBadwr = 1 ∧
      (run (.arrive 0x44 256 1) up).bar 256 = { Bar.clean with count := 1 } ∧
      (run (.arrive 0x44 256 1) (barred { Bar.clean with count := 2, target := 3, armed := true })).bar 256 =
        { Bar.clean with target := 3, releases := 1 } ∧
      (run (.arrive 0x44 256 1) (barred { Bar.clean with count := 0xFFFF })).tng.barOver = 1 := by decide +kernel

theorem test_Barriers_arm :
    (run (.arm 0x44 256 3) (barred { Bar.clean with held := true })).tng.barHeld = 1 ∧
      (run (.arm 0x44 256 0) (barred { Bar.clean with count := 2, releases := 4 })).bar 256 = Bar.clean ∧
      (run (.arm 0x44 256 3) (barred { Bar.clean with count := 2 })).bar 256 = { Bar.clean with count := 2, target := 3, armed := true } ∧
      (run (.arm 0x44 256 3) (barred { Bar.clean with count := 3 })).bar 256 = { Bar.clean with target := 3, releases := 1 } := by
  decide +kernel

/-- A ROTATE heat of two steps whose object has released the first. -/
def rotating : Heat :=
  let h := flowing .rotate id id
  { h with
    id := { h.id with w := { words2 with w6 := 8 } }
    grp := { h.grp with released := true }, run := { h.run with obj := some 256, due := 9000 }, dp := { h.dp with stepNo := 1, stepGo := 1 } }

theorem test_Barriers_wake :
    ((run (.barrierWake 20) (flows (barrierHeat (some 0) true))).heat 20).map (·.run.phase) = some (.ended .ok) ∧
      (run (.barrierWake 20) (flows (barrierHeat (some 0) true))).time.now = 9000 ∧ idle (.barrierWake 20) (flows (barrierHeat none false)) ∧
      ((run (.instepRelease 20) (flows (barrierHeat (some 1048600) false))).heat 20).map (·.run.phase) = some (.ended .ok) ∧
      (run (.instepRelease 20) (flows (barrierHeat (some 1048600) false))).machineTime = 10486000 ∧
      idle (.instepRelease 20) (flows (barrierHeat none false)) ∧ (rotating.dp.stepNo < rotating.id.w.steps) ∧ rotating.live = true ∧
      rotating.dp.stepNo = rotating.dp.stepGo := by decide +kernel

/-! ### Ports (10) -/

/-- Port 3 as `f` makes it. -/
def ported (f : Port → Port) : State := up.modPort 3 f
/-- Port 3 in a state. -/
def inState (st : PState) (f : Port → Port := id) : State := ported fun x => { f x with reg := { (f x).reg with st := st } }

theorem test_LinkControl :
    gives (.linkEnable 3 1) up (up.answer rspError 0).pumpAll ∧
      ((run (.linkEnable 3 0x50001) (inState .disabled)).port 3).reg.st = .detect ∧
      ((run (.linkEnable 3 0x50001) (inState .disabled)).port 3).reg.reprobeMs = 5 ∧
      (let s := { inState .disabled with power := { up.power with on := 0xFFFFFE, aligned := 0xFFFFFE } }
       s.isReady (portIsland 3) = false ∧ (run (.linkEnable 3 0x50001) s).power.waking = 1) ∧
      ((run (.linkDisable 3 0x50000) (inState .align)).port 3).reg.st = .disabled ∧
      ((run (.linkProbe 3 0x50003) (inState .absent)).port 3).tr.single = true ∧
      ((run (.linkRestore 3 0x50005) (inState .active fun x => { x with reg := { x.reg with width := 4 } })).port 3).reg.st = .retrain := by
  decide +kernel

theorem test_LinkControl_allot :
    ((run (.creditAllotWrite 3 4000) up).port 3).tr.allot = [(4, 4000)] ∧ answers (.creditAllotWrite 3 4001) up rspError := by
  decide +kernel

/-- A training word (R242) of the partner: endpoint 6, port 9. -/
def word (phase verdict chunk : Nat) (agreed ready : Bool) (ok use : Byte) : BitVec 256 :=
  let w : BitVec 256 := assemble 256 [(0x59585457, 224), (phase, 220), (b2n agreed, 219), (b2n ready, 218), (verdict, 216), (6, 200), (9, 194),
    (ok.toNat, 184), (use.toNat, 176), (chunk, 172), (7, 160)]
  w ||| (trainCrc w).setWidth 256

theorem test_Training_timers :
    phaseMs (up.port 3).reg.st = some 100 ∧ (up.port 3).tr.gap = false ∧
      (let s := run (.trainPhaseTimeout 3) up
       (s.port 3).tr.gap = true ∧ (s.port 3).reg.attempt = 1 ∧ s.time.now = 100 * msPs ∧
         ((run (.attemptGapEnd 3) s).port 3).reg.st = .detect ∧ ((run (.attemptGapEnd 3) s).port 3).tr.gap = false) ∧
      (let s := inState .detect fun x => { x with reg := { x.reg with attempt := 3 }, tr := { x.tr with gap := true } }
       ((run (.attemptGapEnd 3) s).port 3).reg.st = .absent ∧ ((run (.attemptGapEnd 3) s).port 3).reg.event = true) ∧
      ((run (.reprobeTimer 3) (inState .absent)).port 3).tr.single = true := by decide +kernel

/-- All eight lanes have signal and decoded a group. -/
def laned (x : Port) : Port := { x with tr := { x.tr with sig := 0xFF, marked := 0xFF } }

theorem test_Training_words :
    (TWord.of (word 2 0 0 true false 0xFF 0xFF)).map (·.phase) = some 2 ∧
      ((run (.trainingWord 3 (word 2 0 0 true false 0xFF 0xFF)) (inState .align laned)).port 3).reg.st = .ident ∧
      ((run (.trainingWord 3 (word 2 0 0 true false 0x0F 0xFF)) (inState .align laned)).port 3).reg.laneUse = 0x0F ∧
      ((run (.trainingWord 3 (word 2 0 0 true false 0x0F 0xFF)) (inState .align laned)).port 3).reg.st = .align ∧
      ((run (.trainingWord 3 (word 4 0 10 true true 0xFF 0xFF)) (inState .credit)).port 3).tr.partnerAllot = [(120, 7)] ∧
      TWord.of 0 = none ∧ pumps (.trainingWord 3 0) (inState .align) ∧
      (let s := inState .credit fun x => { x with tr := { x.tr with sendReady := true, partnerReady := true, partnerAllot := [(4, 9)] } }
       ((run (.periodBoundary 3 (.lanes [])) s).port 3).reg.st = .active ∧ ((run (.periodBoundary 3 (.lanes [])) s).port 3).tx.credit = [(4, 9)]) := by
  decide +kernel

/-- Port 3 in IDENT, planned for an endpoint's port. -/
def planned (e : W32) : State := inState .ident fun x => { x with reg := { x.reg with plan := e } }
/-- What the check of port 3 makes of the partner's word. -/
def check (verdict : Nat) (s : State) : PState × BitVec 4 :=
  let r := ((run (.trainingWord 3 (word 3 verdict 0 true false 0xFF 0xFF)) s).port 3).reg
  (r.st, r.qreason)

theorem test_Training_cabling :
    (planned 0x80000189).verdictOf 3 6 9 = (0, 0) ∧ check 1 (planned 0x80000189) = (.credit, 0) ∧
      check 0 (planned 0x80000189) = (.ident, 0) ∧ check 2 (planned 0x80000189) = (.quarantine, 4) ∧
      (planned 0x80000149).verdictOf 3 5 9 = (0, 0) ∧ (planned 0x80000189).verdictOf 3 5 9 = (3, 0) ∧
      (planned 0x80000141).verdictOf 3 6 9 = (1, 0) ∧ check 1 (planned 0x80000141) = (.quarantine, 1) ∧
      (let s := (planned 0x80000141).modPort 4 fun x => { x with reg := { x.reg with plan := 0x80000189 } }
       s.verdictOf 3 6 9 = (2, 4) ∧ check 1 s = (.quarantine, 2)) ∧
      (let s := (planned 0x80000141).modPort 4 fun x => { x with reg := { x.reg with
          plan := 0x80000189, st := .quarantine, qreason := 2, other := 3 } }
       check 1 s = (.swapped, 2)) := by decide +kernel

theorem test_PortLoss :
    up.heatList = [] ∧ ((run (.retrainTimeout 3) (inState .retrain)).port 3).reg.st = .lost ∧
      (let k : Kept := { fseq := 0, pos := [], sentAt := 0 }
       let s := inState .active fun x => { x with tx := { x.tx with kept := [k], queue := [billet kData 2 0 0 0] } }
       ((run (.ackProgressTimeout 3) s).port 3).reg.st = .lost ∧ (run (.ackProgressTimeout 3) s).route.portdown = 1) ∧
      ((run (.rxSilenceTimeout 3) (inState .active)).port 3).reg.st = .lost ∧
      (let s := up.modPort 34 fun x => { x with reg := { x.reg with st := .active } }
       ((run (.fdiStateChange 2 .linkError) s).port 34).reg.st = .lost) ∧
      pumps (.rxSilenceTimeout 3) (inState .align) ∧
      ((run (.portLossDone 3) (inState .lost)).port 3).reg.st = .detect := by decide +kernel

theorem test_PortLoss_heats :
    (let s := ((inState .active).setCirc 9 (some (circ1 (some 3) false none))).setHeat 20
        (some (flowing .allgather id fun x => { x with circuits := [9] }))
     s.heatList.length = 1 ∧ (s.heat 20).map (s.heatOver 3 ·) = some true ∧
       ((run (.rxSilenceTimeout 3) s).heat 20).map (·.run.phase) = some (.ended .portLost) ∧
       (run (.rxSilenceTimeout 3) s).circ 9 = none) := by decide +kernel

/-- Port 3 ACTIVE on eight lanes. -/
def active3 : State := inState .active fun x =>
  { laned x with reg := { x.reg with width := 8, laneUse := 0xFF } }

theorem test_PortLoss_lanes :
    State.reset.linksRun = false ∧ ((run (.laneSignalChange 3 2 true) State.reset).port 3).tr.sig = 4 ∧
      ((run (.laneSignalChange 3 2 false) active3).port 3).reg.st = .retrain ∧ putBit ((active3.port 3).tr.sig) 2 false ≠ 0 ∧
      ((run (.laneSignalChange 3 2 true) (inState .detect laned)).port 3).reg.st = .align ∧
      ((run (.fdiStateChange 2 .active) up).port 34).reg.st = .ident ∧ (up.port 34).reg.st = .detect ∧
      (let s := up.modPort 34 fun x => { x with reg := { x.reg with st := .active } }
       ((run (.fdiStateChange 2 .retrain) s).port 34).reg.st = .retrain ∧ ((run (.sibX32Change 2 true) s).port 34).tr.use = 0x0F) ∧
      ((run (.sibX32Change 2 true) up).port 34).rx.x32 = true ∧
      (let s := inState .retrain fun x => { x with tr := { x.tr with sendAgreed := true, partnerAgreed := true, use := 0x0F } }
       ((run (.periodBoundary 3 (.lanes [])) s).port 3).reg.width = 4) := by decide +kernel

/-- A frame of the partner's with one billet, acknowledging FSEQ 0, and 3 credits of pair 4. -/
def frame (fseq : BitVec 12) (pos : List Billet) : Frame :=
  { pos := pos, fseq := fseq, ack := 0, credit := creditField 4 3, crc := frameCrc pos fseq 0 (creditField 4 3), fecBad := false }
/-- A frame's positions with one billet. -/
def one (b : Billet) : List Billet := [b, idleBillet, idleBillet, idleBillet]

theorem test_Frames_receive :
    frameGood (frame 0 (one (billet kTime 0 0 0 0))) = true ∧ (frame 0 (one idleBillet)).wf = true ∧
      (let k : Kept := { fseq := 0, pos := [], sentAt := 0 }
       let s := active3.modPort 3 fun x => { x with tx := { x.tx with kept := [k] } }
       let t := run (.frameReceive 3 (some (frame 0 (one (billet kTime 0 0 0 0))))) s
       (t.port 3).rx.e = 1 ∧ (t.port 3).rx.buf.length = 1 ∧ (t.port 3).tx.kept = [] ∧ (t.port 3).tx.credit = [(4, 3)]) ∧
      ((run (.frameReceive 3 (some (frame 7 (one (billet kTime 0 0 0 0))))) active3).port 3).reg.discard = 1 ∧
      ((run (.frameReceive 3 (some (frame 7 (one idleBillet)))) active3).port 3).reg.discard = 0 ∧ frameIdle (one idleBillet) = true ∧
      ((run (.frameReceive 3 (some ({ frame 0 (one idleBillet) with crc := 0 } : Frame))) active3).port 3).reg.discard = 1 ∧
      (let s := inState .retrain id
       ((run (.frameReceive 3 (some (frame 0 (one (billet kTime 0 0 0 0))))) s).port 3).rx.e = 1 ∧
         pumps (.frameReceive 3 (some (frame 0 (one (billet kTime 0 0 0 0))))) (inState .credit id)) ∧
      pumps (.frameReceive 3 (some (frame 0 (one idleBillet)))) up ∧ pumps (.frameReceive 3 none) up ∧
      (let s := up.modPort 34 fun x => { x with reg := { x.reg with st := .active } }
       ((run (.frameReceive 34 (some ({ frame 0 (one idleBillet) with fecBad := true } : Frame))) s).port 34).reg.st = .lost) := by decide +kernel

/-- A billet waits for the wire. -/
def sendable : State := active3.modPort 3 fun x =>
  { x with tx := { x.tx with queue := [{ billet kTime 0 0 0 0 with dest := 6 }], credit := [(0, 1)] } }

theorem test_Frames_send :
    (let t := run (.frameSend 3) sendable
     (t.port 3).tx.queue = [] ∧ (t.port 3).tx.nextSeq = 1 ∧ (t.port 3).tx.kept.length = 1 ∧ (t.port 3).tx.slotNow = 1 ∧
       ((t.port 3).tx.last.map frameGood) = some true ∧
       (let s := run (.replayTimeout 3) t
        (s.port 3).tx.resend = [0] ∧ (s.port 3).reg.replays = 1 ∧ ((run (.frameSend 3) s).port 3).tx.resend = [] ∧
          ((run (.frameSend 3) s).port 3).tx.nextSeq = 1)) ∧
      ((run (.frameSend 3) active3).port 3).tx.kept = [] ∧ ((run (.frameSend 3) up).port 3).tx.slotNow = 1 ∧ pumps (.replayTimeout 3) active3 := by
  decide +kernel

/-- 63 replays from the same FSEQ, and a full replay buffer. -/
def replayed : State := active3.modPort 3 fun x =>
  { x with tx := { x.tx with kept := [{ fseq := 5, pos := [], sentAt := 0 }], replayFseq := some (5, 63) } }
def full : State := active3.modPort 3 fun x =>
  { x with tx := { x.tx with kept := List.replicate (replayRoom 3) { fseq := 5, pos := [], sentAt := 0 } } }

theorem test_Frames_replay :
    ((run (.replayTimeout 3) replayed).port 3).reg.st = .lost ∧ replayed.heatList = [] ∧
      ((run (.frameSend 3) full).port 3).tx.last.map (fun f => frameIdle f.pos) = some true := by decide +kernel

/-- The generator polynomial of RS(544,514) as IEEE 802.3 tabulates it. -/
theorem test_LaneCoding_generator : rsGen =
    [523, 834, 128, 158, 185, 127, 392, 193, 610, 788, 361, 883, 503, 942, 385, 495, 720, 94, 132, 593, 249, 282, 565, 108, 1, 552,
      230, 187, 552, 575, 1] := by decide +kernel

theorem test_LaneCoding_codeword : (rsSyndromes ([5] ++ rsParity [5])).all (· = 0) := by decide +kernel

theorem test_LaneCoding_read :
    (let as := List.replicate 32 ({ vc := 4, cls := 1, valid := true, total := 9 } : Audit)
     (markerGroup 5 0xF0 7 as).length = 5 ∧ readGroup 2 (markerGroup 5 0xF0 7 as) =
       some { phy := 2, lane := 5, found := true, laneUse := 0xF0, period := 7, audits := as, corr := 0, bad := [] }) ∧
      (let f := frame 9 (one (billet kTime 0 0 3 5))
       (frameBytes f).length = 296 ∧ frameOf ((frameBytes f).map fun b => (b, false)) = f ∧
         cutFrames 3 ((frameBytes f).map (fun b => (b, false)) ++ [(1, false)]) = ([f], [(1, false)])) ∧
      (billetBytes (billet kData 2 0x021 5 77)).length = 72 ∧
      billetOf (billetBytes (billet kData 2 0x021 5 77)) = billet kData 2 0x021 5 77 ∧
      scramble (scramble [5, 6, 7]) = [5, 6, 7] ∧ scramble [5] ≠ [5] := by decide +kernel

/-- Port 3 has decoded a frame from its lanes. -/
def decoded3 : State := active3.modPort 3 fun x => { x with rx := { x.rx with frames := [frame 0 (one (billet kTime 0 0 0 0))] } }

theorem test_Frames_decoded :
    ((run (.frameReceive 3 none) decoded3).port 3).rx.e = 1 ∧ ((run (.frameReceive 3 none) decoded3).port 3).rx.frames = [] ∧
      ((run (.frameReceive 3 none) decoded3).port 3).rx.buf.length = 1 := by decide +kernel

/-- A DRAIN_VC in context 4080 holds what `ports` names. -/
def holding (ports : BitVec 40) : State :=
  let h : Hold :=
    { vcs := 0xFF, ports := ports, quietUs := 2, drained := false, heat := some 4080, deadline := 9000000, lastSeen := 1000, waiting := [] }
  let s := up.setHeat 4080 (some (steward .drainVc {}))
  { s with route := { s.route with hold := some h } }

theorem test_DrainsAndSwaps_drain :
    ((setBits (3 : BitVec 40)).all fun p => (holding 3).route.hold.any fun h => (holding 3).portQuiet h p) ∧
      (run .drainVcQuiet (holding 3)).route.hold.map (·.drained) = some true ∧ (run .drainVcQuiet (holding 3)).time.now = 2001000 ∧
      ((run .drainVcQuiet (holding 3)).heat 4080).map (·.run.phase) = some (.ended .ok) ∧
      (run .drainVcTimeout (holding 3)).route.hold = none ∧ (run .drainVcTimeout (holding 3)).time.now = 9000000 ∧
      pumps .drainVcQuiet up ∧ pumps .drainVcTimeout up := by decide +kernel

/-- A swap in context 4080 is pending, port 3 adopted, a billet queued. -/
def swapping (force : Bool) : State :=
  let s := (inState .adopted fun x => { x with tx := { x.tx with queue := [billet kData 2 0 0 0] } }).setHeat 4080
    (some (let h := steward .routeSwap {}; { h with run := { h.run with due := 108800 } }))
  { s with route := { s.route with bank1 := [(6, 1)], swap := some (4080, force, 2) } }

theorem test_DrainsAndSwaps_swap :
    (run .swapEdge (swapping false)).bank false = [(6, 1)] ∧ (run .swapEdge (swapping false)).route.swap = none ∧
      ((run .swapEdge (swapping false)).port 3).tr.swapDone = true ∧ ((run .swapEdge (swapping false)).port 3).tx.queue.length = 1 ∧
      ((run .swapEdge (swapping true)).port 3).tx.queue = [] ∧ (run .swapEdge (swapping true)).route.forceUntil = some 2108800 ∧
      (run .forcedSwapQuietEnd (run .swapEdge (swapping true))).route.forceUntil = none ∧
      (run .forcedSwapQuietEnd (run .swapEdge (swapping true))).time.now = 2108800 ∧ pumps .swapEdge up ∧ idle .forcedSwapQuietEnd up ∧
      (let s := (swapping false).modPort 3 fun x => { x with reg := .reset }
       (List.range 40).all fun p => decide ((s.port p).reg.st ≠ .adopted)) := by
  decide +kernel

/-! ### Weld, memory, translations, timers (08, 12, 16) -/

/-- A heat of context 20 with one stream. -/
def streamed (x : Stream) : Heat :=
  let h := running (heatOf { kind := .send } words2)
  { h with dp := { h.dp with streams := [x] } }
/-- Its state: the source comes in by weld port 3 under tag 9. -/
def weldIn1 (beats : List Nat) : State :=
  withHeat (streamed { id := .src, write := false, place := .weld 3 9, esize := 4, total := 512, granted := 32, beats := beats, staged := true })

/-- The source stream of context 20 after a command. -/
def source (i : Instr) (s : State) : Option Stream := ((run i s).heat 20).bind fun h => h.dp.streams[0]?

theorem test_StreamsAndMemory_weldIn :
    (weldIn1 [32]).lateOf (.weld 3 9) = false ∧ (source (.weldGrant 20) (weldIn1 [32])).map (·.beats) = some [32, 96] ∧
      idle (.weldGrant 20) up ∧
      (let s := { up with wld := { up.wld with late := [(3, 9, 2)] } }
       (run (.weldInBeat 3 9 0 0 true) s).wld.late = [] ∧ (run (.weldInBeat 3 9 0 0 false) s).wld.late = [(3, 9, 2)]) ∧
      up.weldFor 3 9 = none ∧ (run (.weldInBeat 3 9 0 0 true) up).wld.noTag = 1 ∧
      ((weldIn1 [64]).weldFor 3 9).map (fun x => (x.1, x.2.2.1)) = some (20, 0) ∧
      (source (.weldInBeat 3 9 5 0 false) (weldIn1 [64])).map (fun x => (x.pos, x.beats, x.buf.length)) = some (128, [32], 128) := by
  decide +kernel

theorem test_StreamsAndMemory_weldOut :
    (let h := streamed { id := .dst, write := true, place := .weld 3 9, esize := 4, total := 512, buf := List.replicate 128 (some 1), staged := true, wait := .grant }
     let s := withHeat h
     let s := { s with wld := { s.wld with out := [(3, 9, 1, 0, false, 20)] } }
     h.live = true ∧ h.run.wdogStopped = false ∧ (run (.weldOutBeat 3) s).wld.out = [] ∧
       (source (.weldOutBeat 3) s).map (fun x => (x.pos, x.written)) = some (128, 128) ∧
       ((run (.weldOutBeat 3) s).heat 20).map (·.run.wdog) = some (6400 + 10000 * usPs) ∧ idle (.weldOutBeat 4) s) := by decide +kernel

/-- The heat of context 20 reads 64 bytes, or writes them, and request 5 is out for it. -/
def memory (write : Bool) (r : MemReq → MemReq) : State :=
  let s := withHeat (streamed
    { id := .src, write := write, place := .mem 0x20000 [], esize := 4, total := 512, staged := true, wait := .mem 5
      buf := if write then List.replicate 64 (some 1) else [] })
  { s with wld := { s.wld with mem := [(5, some (r { write := write, line := 0x20000, space := .asid 7, owner := .stream 20 .src }))] } }

theorem test_StreamsAndMemory_responses :
    idle (.memoryResponse 5 0 0) up ∧
      (run (.memoryResponse 5 0 0) (memory false fun r => { r with slag := true })).tng.slagMem = 1 ∧
      ((run (.memoryResponse 5 1 0) (memory false id)).heat 20).map (·.run.phase) = some (.ended .xlateFail) ∧
      (run (.memoryResponse 5 1 0) (memory false id)).wld.memData = 1 ∧
      (source (.memoryResponse 5 0 0) (memory false fun r => { r with drop := true })).map (·.buf) = some [] ∧
      (source (.memoryResponse 5 0 7) (memory false id)).map (fun x => (x.pos, x.buf.length)) ≠ some (0, 0) ∧
      (source (.memoryResponse 5 0 0) (memory true id)).map (·.pos) ≠ some 0 ∧
      (let s := { queued fun x => { x with tail := 1, fetching := [0] } with wld := { up.wld with
          mem := [(5, some { write := false, line := 0x10000, space := .asid 7, owner := .fetch 8 0 })] } }
       ((run (.memoryResponse 5 0 nopEntry) s).queue 8).fetching = []) := by decide +kernel

/-- Context 20 waits for the translation of its source, or is paused for its page. -/
def faulting (page : Bool) : State :=
  let s := withHeat (let h := streamed
                       { id := .src, write := false, place := .mem 0x20000 [], esize := 4, total := 512, staged := true
                         wait := if page then .page 5 else .xlate 5 }
                     if page then { h with run := { h.run with pausedAt := some 400, wdogStopped := true, wdog := 7 } } else h)
  { s with wld := { s.wld with
      xl := [(5, some { page := page, space := .asid 7, vpage := 0x20, write := false, owner := .stream 20 .src })] } }

/-- What is left to wait for, when the pause began, and the watchdog. -/
def waiting (i : Instr) (s : State) : Option (Option Nat × Nat × Bool × Nat) :=
  ((run i s).heat 20).map fun h => (h.run.pausedAt, h.run.pausedTotal, h.run.wdogStopped, h.run.wdog)

theorem test_Translations :
    ((faulting false).heat 20).bind (·.streamIdx .src) = some 0 ∧ (faulting false).trc.enable = false ∧
      (faulting false).trc.asking = none ∧
      (run (.xlateReply 5 0 0 0x777) (faulting false)).wld.cache =
        [{ space := .asid 7, vpage := 0x20, size := 0, ppage := 0x777, write := false }] ∧
      ((faulting false).heat 20).bind (faulting false).capPs = some (1000 * msPs) ∧
      waiting (.xlateReply 5 1 0 0) (faulting false) = some (some 6400, 0, true, 10000 * usPs) ∧
      (run (.xlateReply 5 1 0 0) (faulting false)).wld.faults = 1 ∧
      (run (.xlateReply 5 1 0 0) (faulting false)).wld.xl.length = 1 ∧
      waiting (.pageReqReply 5 0) (faulting true) = some (none, 6000, false, 6407) ∧
      ((run (.pageReqReply 5 1) (faulting true)).heat 20).map (·.run.phase) = some (.ended .xlateFail) ∧
      (run (.pageReqReply 5 1) (faulting true)).wld.fails = 1 := by decide +kernel

theorem test_Translations_invalidate :
    (let s := { up with wld := { up.wld with cache := pages } }
     (run (.xlateInvalidate 2 7 0x10 0x10) s).wld.cache.length = 1 ∧ (run (.xlateInvalidate 1 7 0 0) s).wld.cache = [] ∧
       (run (.xlateInvalidate 1 8 0 0) s).wld.cache = pages) ∧
      (let s := { up with wld := { up.wld with invs := List.replicate 16 (0, 0, 0, 0) } }
       idle (.xlateInvalidate 0 0 0 0) s) ∧ (run (.throttleInputChange 2) up).wld.level = 2 := by decide +kernel

/-- The heat of two flows, two billets applied of which one is reported; paused or not. -/
def timing (f : Heat → Heat) : State := flows (f (flowing .allgather (fun x => { x with next := 2, applied := 2, reported := 1, lastAt := 400 }) id))

theorem test_Timers :
    (((run (.commitQuietTimer 40) (timing id)).heat 20).bind fun h => h.dp.ins[0]?).map (·.reported) = some 2 ∧
      (run (.commitQuietTimer 40) (timing id)).time.now = 400 + 2 * usPs ∧ idle (.commitQuietTimer 41) (timing id) ∧
      (let s := timing fun h => { h with run := { h.run with pausedAt := some 400, lastBeacon := 400, beacons := 1 } }
       ((run (.beaconPeriod 20) s).heat 20).map (·.run.beacons) = some 2 ∧ (run (.beaconPeriod 20) s).time.now = 400 + 50 * usPs ∧
         idle (.beaconPeriod 20) (timing id)) ∧
      (let s := timing fun h => { h with run := { h.run with seen := [(1, 7, 400)] } }
       ((run (.beaconCountForget 20 1) s).heat 20).map (·.run.seen) = some [] ∧
         (run (.beaconCountForget 20 1) s).time.now = 400 + msPs ∧ idle (.beaconCountForget 20 2) s) ∧
      (let s := timing fun h => { h with run := { h.run with pausedAt := some 400, wdogStopped := true, wdog := 9 } }
       (run (.pauseCapReached 20) s).time.now = 400 + 1000 * msPs ∧
         ((run (.pauseCapReached 20) s).heat 20).map (fun h => (h.run.capped, h.run.wdog)) = some (true, 409 + 1000 * msPs)) ∧
      idle (.pauseCapReached 20) (timing id) ∧
      (run (.tagHoldExpiry 40) (up.setTag 40 (.held 1 9000))).tag 40 = .free ∧ idle (.tagHoldExpiry 40) up := by decide +kernel

theorem test_Timers_steward :
    (let wait (k : Kind) : State := up.setHeat 4080 (some (let h := steward k {}; { h with run := { h.run with due := 9000 } }))
     (run (.keyReuseWaitEnd 4080) (wait .partCreate)).time.now = 9000 ∧
       ((run (.resetSpacingEnd 4080) (wait .partReset)).heat 4080).map (·.run.phase) = some (.ended .malformed) ∧
       (up.part 0).state = .free ∧ (up.createCheck { w6 := 0x100000000 } = .refuse) ∧ idle (.keyReuseWaitEnd 20) up ∧ idle (.resetSpacingEnd 20) up) := by
  decide +kernel

theorem test_WatchdogAndAbort :
    (timing id).heatList.map (·.1) = [20] ∧
      ((run (.watchdogExpiry 20) (timing id)).heat 20).map (·.run.phase) = some (.ended .abortTimeout) ∧
      (run (.watchdogExpiry 20) (timing id)).time.now = 6400 + 10000 * usPs ∧
      (run (.watchdogExpiry 20) (timing id)).quench.valid = true ∧ (run (.watchdogExpiry 20) (timing id)).quench.seq = 1 ∧
      idle (.watchdogExpiry 20) (timing fun h => { h with run := { h.run with wdogStopped := true } }) ∧ up.inReset = false ∧ up.boot.state = .done ∧
      answers (.tngAbort 0) up rspError ∧
      (let s := { timing id with tng := { up.tng with abortQueue := 8 } }
       ((run (.tngAbort 0) s).heat 20).map (·.run.phase) = some (.ended .abortTimeout) ∧ (run (.tngAbort 0) s).quench.seq = 1 ∧
         (run (.tngAbort 0) s).time.now = 6400) := by decide +kernel

/-! ### Trace (09, 12) -/

/-- Trace has a buffer of 16 entries at 0x40000; a write of TRC_REC_CTL waits for page 0x40, whose translation is there or not. -/
def tracing (f : TrcSt → TrcSt) : State := { up with trc := f { up.trc with base := 0x40000, log2 := 4 } }
def asking (v : W32) : State :=
  tracing fun x => { x with pendWrite := v, asking := some 0x40
                            xl := [{ space := .steward, vpage := 0x40, size := 0, ppage := 0x140, write := bit v 31 }] }
/-- A recording is in progress. -/
def recording (f : TrcSt → TrcSt) : State := tracing fun x => f { x with enable := true, active := true, part := 1 }
/-- No recording or replay is permitted. -/
def unpermitted : State := { up with ctl := { up.ctl with permits := 0xB } }
/-- Trace is gated. -/
def traceGated : State := { up with power := { up.power with on := 0x0FFFFF, aligned := 0x0FFFFF } }

theorem test_RecordAndReplay_begin :
    bit unpermitted.ctl.permits 2 = false ∧ (run (.recordEnable 0x80000001) unpermitted).ctl.rspCode = rspDenied ∧
      (run (.replayStart 0x40000001) unpermitted).ctl.rspCode = rspDenied ∧
      (run (.replayStart 0x60000001) up).ctl.rspCode = rspDenied ∧ (tracing id).isReady .trace = true ∧
      (tracing id).recording = false ∧ Tbl.free (tracing id).wld.xl 256 = some 0 ∧
      ((run (.recordEnable 0x80000001) (tracing id)).wld.xl.map fun e => e.2.map fun r => (r.vpage, r.write)) = [some (0x40, true)] ∧
      (run (.recordEnable 0x80000001) (tracing id)).trc.asking = some 0x40 := by decide +kernel

theorem test_RecordAndReplay_start :
    (let s := [8, 9, 10, 11].foldl (fun s q => s.modQueue q fun x => { x with st := .disabled }) (tracing id)
     (s.replayOk 0x40000001) = true ∧ (run (.replayStart 0x40000001) s).trc.asking = some 0x40) ∧
      traceGated.isReady .trace = false ∧ (run (.recordEnable 0x80000001) traceGated).trc.pendWrite = 0x80000001 ∧
      (run (.recordEnable 0x80000001) traceGated).power.waking ≠ 0 := by decide +kernel

theorem test_RecordAndReplay_translated :
    (asking 0x80000001).tracePages.2 < 0x41 ∧ (asking 0x80000001).traceNext.trc.active = true ∧
      (asking 0x80000001).traceNext.trc.issued + (asking 0x80000001).traceNext.trc.queue.length = 1 ∧
      (asking 0x40000001).traceNext.trc.replay = true ∧ (asking 0x40000001).traceNext.trc.part = 1 ∧
      (run (.recordDisable 3) (recording id)).trc.active = false ∧ (run (.recordDisable 3) (recording id)).trc.part = 3 ∧
      (run (.recordDisable 3) up).trc.part = 3 ∧ (run (.recordEnable 0xA0000003) (recording id)).trc.all = true ∧
      (recording id).recording = true := by decide +kernel

/-- Entries of the queue of Trace. -/
def waitingEntries (n issued : Nat) : State := recording fun x => { x with queue := List.replicate n 7, issued := issued }

theorem test_RecordAndReplay_queue :
    ((waitingEntries 256 0).traceEntry 5).trc.drop = 1 ∧ ((waitingEntries 256 0).traceEntry 5).trc.incomplete = true ∧
      ((waitingEntries 2 13).traceEntry 5).trc.full = true ∧ ((waitingEntries 2 13).traceEntry 5).trc.active = false ∧
      ((waitingEntries 2 12).traceEntry 5).trc.active = true ∧ ((waitingEntries 2 12).traceEntry 5).trc.queue = [7, 7, 5] := by
  decide +kernel

/-- A replay of partition 1 whose next entry has a code and fields. -/
def replaying (code : Nat) (fs : List (Nat × Nat)) (f : TrcSt → TrcSt := id) : State :=
  tracing fun x => f { x with replay := true, active := true, part := 1, t0 := 10, entries := [(4, traceWord 20 code fs)] }

theorem test_RecordAndReplay_entries :
    (run .replayEntryDue (replaying 1 [(8, 72), (1, 54)])).trc.entries = [] ∧
      ((run .replayEntryDue (replaying 1 [(8, 72), (1, 54)])).queue 8).pendTail = some 1 ∧
      (run .replayEntryDue (replaying 5 [(8, 72), (2, 68)])).trc.entries = [] ∧
      ((run .replayEntryDue (replaying 6 [(256, 70)])).bar 256).count = 1 ∧
      ((run .replayEntryDue (replaying 6 [(256, 70), (1, 69), (9, 53)])).bar 256).target = 9 ∧
      (let s := replaying 1 [(8, 72), (1, 54)] fun x => { x with incomplete := true, gap := some 2 }
       (run .replayEntryDue s).trc.divReason = 4 ∧ (run .replayEntryDue s).trc.divIndex = 2 ∧ (run .replayEntryDue s).trc.replay = false) ∧
      idle .replayEntryDue (recording id) ∧ idle .replayDivergeTimeout (recording id) := by decide +kernel

theorem test_RecordAndReplay_diverge :
    (let s := replaying 3 [(8, 72), (5, 55)]
     s.overdue = some (3, 4, 30 + 1562500) ∧ s.time.running = true ∧ (s.queue 8).d 5 < (s.queue 8).size ∧ s.heatList = [] ∧
       (run .replayDivergeTimeout s).trc.divReason = 3 ∧ (run .replayDivergeTimeout s).trc.divIndex = 4 ∧
       (run .replayDivergeTimeout s).trc.diverged = true) := by decide +kernel

theorem test_RecordAndReplay_gap :
    (let s := replaying 3 [(8, 72), (5, 55)] fun x => { x with incomplete := true, gap := some 3, readAll := true }
     s.trc.atGap = some 3 ∧ s.replayOver.trc.divReason = 4 ∧ s.replayOver.trc.divIndex = 3 ∧ s.replayOver.trc.replay = false) ∧
      (let s := replaying 2 [(8, 72), (5, 55), (1, 14)]
       (s.setHeat 20 (some { adder with id := { adder.id with idx := 5 } })).overdue = some (1, 4, 30 + 1562500)) := by
  decide +kernel

/-- Telemetry runs; the last sample's first billet still waits at port 3, and port 0 has sent. -/
def sampling : State :=
  let b : Billet := { dest := 6, key := 0, kind := kTelemetry, vc := 7, gen := 0, tag := 0, seq := 4, data := 0 }
  let s := routed.modPort 3 fun x => { x with tx := { x.tx with queue := [b] } }
  let s := s.modPort 0 fun x => { x with te := { x.te with frames := 4, sent := 8, stall := 3 } }
  { s with trc := { s.trc with
      teleEnable := true, teleValid := true, teleInterval := 10, teleDest := 6, sample := 5, teleAt := 6710892800, sampled := [b] } }

theorem test_Telemetry :
    answers (.telemetryEnable 0x80000000) up rspError ∧ (run (.telemetryEnable 0x80000005) up).trc.teleEnable = true ∧
      (run (.telemetryEnable 0x80000005) traceGated).trc.telePend = 0x80000005 ∧ sampling.route.hold = none ∧
      (run .telemetrySample sampling).epochPs = 672 * 10 * usPs ∧ (run .telemetrySample sampling).trc.teleDrop = 1 ∧
      (run .telemetrySample sampling).trc.sampled.length = 10 ∧
      ((run .telemetrySample sampling).port 3).tx.queue.length = 10 ∧
      ((run .telemetrySample sampling).trc.sampled.head?.map fun b => (pAt b.data 8 2, pAt b.data 12 4)) = some (32767, 3) ∧
      idle .telemetrySample up := by decide +kernel

/-! ### Arithmetic, and the block as a whole -/

theorem test_AssayOrderFree :
    Assay.start.acc.natAbs + ([({ acc := -5, st := .pinf, negz := false } : Assay)].map fun p => p.acc.natAbs).sum < 2 ^ 319 ∧
      [AOp.exact 3, AOp.fp 0x3F800000].Perm [AOp.fp 0x3F800000, AOp.exact 3] := ⟨by decide +kernel, .swap ..⟩

theorem test_MaxMinAndTopk :
    isNan nanW = true ∧ isNan 0 = false ∧ (anvilMax nanW 0).1 = nanW ∧ (anvilMax 0x3F800000 negInf).1 = 0x3F800000 ∧
      ([(0x40000000, 1), (0x3F800000, 0)] : List (W32 × W32)).Pairwise (fun x y => topkBefore y x = false) ∧
      topkKeep 2 [(0x40000000, 1), (0x3F800000, 0)] [(0x40400000, 9), (0x3F800000, 5)] = [(0x40400000, 9), (0x40000000, 1)] := by
  decide +kernel

/-- The scrub of a zeroize is over, and a warm reset is released after its scrub. -/
def scrubbed : State := { locked with boot := { locked.boot with scrub := true, zeroizing := true, state := .por } }
def warmHeld : State := { locked with boot := { locked.boot with warmLow := true, state := .por } }

theorem test_PolicyLock_release :
    (run .powerOnReset locked).ctl.lock = false ∧ scrubbed.inReset = false ∧ (run .zeroizeScrubDone scrubbed).ctl.lock = false ∧
      (run .zeroizeScrubDone scrubbed).ctl.tagWritten = false ∧ warmHeld.boot.scan = false ∧
      (run .warmResetRelease warmHeld).ctl.lock = false ∧ (run .warmResetRelease warmHeld).ctl.tagWritten = false := by
  decide +kernel

theorem test_MaxMinAndTopk_values :
    expOf 0x3F800000 ≠ 255 ∧ fixed (anvilMax 0x3F800000 0xC0000000).1 = 2 ^ 149 ∧ fixed (anvilMin 0x3F800000 0xC0000000).1 = -2 ^ 150 ∧
      anvilMax 0x7F800001 0 = (nanW, Flags.inv true) ∧ anvilMax 0x7FC00001 0 = (nanW, Flags.none) := by decide +kernel

/-- The queue that reset leaves has nothing at its front; with a command there, the step is the command. -/
theorem test_StepTakesFront :
    step { up with pending := [.epochRead] } = exec .epochRead up ∧ up.pending = [] ∧
      step State.reset = .next { State.reset with time := { State.reset.time with now := 6400 } } := ⟨rfl, rfl, rfl⟩

theorem test_ResetHoldsInv_registers :
    State.reset.boot.step = 1 ∧ State.reset.ctl.permits = 0xF ∧ (State.reset.part 3).wdogUs = 10000 ∧ State.reset.epoch = 0 := by
  decide +kernel

theorem test_decode : decodeTableWord 32 0x80000001 = none ∧ State.reset.withFetchWord 32 0x80000001 = State.reset := by
  decide +kernel

/-! ### WellFormed: a command that its row does not name is refused -/

theorem test_wf_written :
    wellFormed (.queueEnable 0 8 1) = true ∧ wellFormed (.queueEnable 0 8 0) = false ∧ wellFormed (.queueDisable 0 8 1) = false ∧
      wellFormed (.queueInval 0 8 1) = false ∧ wellFormed (.queueReset 0 8 8) = false ∧ wellFormed (.islandReset 0x9) = false ∧
      wellFormed (.linkEnable 3 0) = false ∧ wellFormed (.linkDisable 3 1) = false ∧ wellFormed (.linkProbe 3 1) = false ∧
      wellFormed (.linkRestore 3 1) = false ∧ wellFormed (.diagEnable 0) = false ∧ wellFormed (.diagClear 1) = false ∧
      wellFormed (.recordEnable 1) = false ∧ wellFormed (.recordDisable 0x80000000) = false ∧ wellFormed (.replayStart 1) = false ∧
      wellFormed (.provRequest 2) = false ∧ wellFormed (.provClose 1) = false ∧ wellFormed (.tapUnlock 1) = false ∧
      wellFormed (.nvmErase 2) = false ∧ wellFormed (.nvmProgram 1) = false ∧ wellFormed (.bootRetry 0) = false ∧
      wellFormed (.registerWrite (.ymb 0x34 1)) = true ∧ wellFormed (.registerWrite (.ymb 0xC0 1)) = false ∧
      wellFormed (.registerWrite (.ymb 0x040110 1)) = false := by decide +kernel

theorem test_wf_billets :
    wellFormed (.ready 0 (billet kReady 0 0x021 0 0)) = true ∧ wellFormed (.ready 0 (billet kReady 0 0x021 1 0)) = false ∧
      wellFormed (.readyReply 0 (billet kReady 0 0x021 0 0)) = false ∧ wellFormed (.data 0 (billet kMask 2 0x021 0 0) []) = false ∧
      wellFormed (.mask 0 (billet kData 2 0x021 0 0)) = false ∧ wellFormed (.commit 0 (billet kHold 1 0x021 0 0)) = false ∧
      wellFormed (.hold 0 (billet kCommit 1 0x021 0 0)) = false ∧ wellFormed (.resume 0 (billet kHold 1 0x021 0 0)) = false ∧
      wellFormed (.beacon 0 (billet kHold 1 0x021 0 0)) = false ∧ wellFormed (.barrierArrive 0 (billet kBarrier 0 0x021 1 0)) = false ∧
      wellFormed (.barrierRelease 0 (billet kBarrier 0 0x021 0 0)) = false ∧ wellFormed (.counts 0 (billet kHold 1 0x021 0 0)) = false ∧
      wellFormed (.circuitSetup 0 (billet kCircuit 0 0x021 1 0)) = false ∧ wellFormed (.circuitConfirm 0 (billet kCircuit 0 0x021 0 0)) = false ∧
      wellFormed (.circuitRefuse 0 (billet kCircuit 0 0x021 0 0)) = false ∧ wellFormed (.circuitRelease 0 (billet kCircuit 0 0x021 0 0)) = false ∧
      wellFormed (.circuitForward 0 (billet kData 2 0x021 0 0)) = false ∧ wellFormed (.billetIngress 0 (billet kData 4 0x021 0 0)) = false ∧
      wellFormed (.timeReq 0 (billet kTime 0 0 1 0)) = false ∧ wellFormed (.timeResp 0 (billet kTime 0 0 0 0)) = false ∧
      wellFormed (.timeQuery 0 (billet kTime 0 0 0 0)) = false ∧ wellFormed (.timeState 0 (billet kTime 0 0 0 0)) = false ∧
      wellFormed (.mgmtNotice 0 (billet kTime 7 0 1 0)) = false := by decide +kernel

theorem test_wf_lengths :
    (let l : LanePeriod := { phy := 0, words := List.replicate 1360 0, skew := 0 }
     wellFormed (.periodBoundary 0 (.lanes [l])) = true ∧ wellFormed (.periodBoundary 0 (.lanes [{ l with words := [] }])) = false ∧
       wellFormed (.periodBoundary 0 (.lanes [l, l])) = false ∧ wellFormed (.periodBoundary 0 (.beat 0)) = false) ∧
      wellFormed (.frameReceive 0 (some (frame 0 []))) = false ∧ wellFormed (.laneSignalChange 34 0 true) = false ∧
      wellFormed (.sensorSample []) = false ∧ wellFormed (.bootStepAdvance (.header (sfdp true) [])) = false ∧
      wellFormed (.bootStepAdvance .none) = true := by decide +kernel

/-- A plan of three ranks on one ring, whose ALLREDUCE is RING. -/
def ringPlan (r : Nat) : Plan :=
  { part := 1, id := 3, addr := 0, digest := 1, size := 3, rankmapOff := 64, rank := r, parent := [0xFFFF, 0, 0],
    children := [[1, 2], [], []], rings := [[(1, 2)], [(2, 0)], [(0, 1)]], boardBase := [0, 0, 0], boardSize := [1, 1, 1],
    root := 0, algo := [1, 0, 0, 0, 0, 0, 0, 0, 0, 0, 0, 0, 0], reqs := [], eps := [], circs := [], dests := [], lost := [], ready := true,
    leaving := none }

/-- R59, R414: the start value of chunk 2 enters at rank 0, the first of its chain, and comes to ranks 1 and 2 with the partial. -/
theorem test_ring_start :
    (List.range 3).map (fun r => ((progOf (ringPlan r) { kind := .allreduce } { count := 3 }).segs.map fun g => (g.start, g.carry))) =
      [[(false, true), (false, true), (true, false)], [(true, false), (false, true), (false, true)],
       [(false, true), (true, false), (false, true)]] := by decide +kernel

/-- R59, R76, R128: a partial that carries the start value +0 and no contribution. The first contribution that is present, -0, is then
added to +0. -/
theorem test_start_in_partial :
    (let c : PC := { d := { kind := .allreduce }, w := {}, rank := 1, size := 3, node := 1 }
     let g : Seg := { lo := 0, n := 1, ins := [.flow 0, .own], node := 1, start := false, fin := false, carry := true }
     (c.combine g 1 0 { cnt := 1 } (some (.fp negZero))).1.val = .fp 0 ∧
       (c.combine { g with carry := false } 1 0 { cnt := 1 } (some (.fp negZero))).1.val = .fp negZero) ∧
    (let c : PC := { d := { kind := .allreduce, assay := true }, w := {}, rank := 1, size := 3, node := 1 }
     let g : Seg := { lo := 0, n := 1, ins := [.flow 0, .own], node := 1, start := false, fin := false, carry := true }
     let pl := c.applyPart Plane.empty 0 g 0 0 (.asy { acc := 0, st := .finite, negz := false }) false {}
     c.cell pl 0 g 0 = { val := .asy { acc := 0, st := .finite, negz := false }, present := false, cnt := 1 }) := by decide +kernel

/-! ### Boundary cases: holds, swaps, wakes, plans, resets -/

/-- A hold in force whose DRAIN_VC waits in context 4081, on every port, with a billet kept. -/
def kept (drained : Bool) (heat : Option Nat) (ws : List Billet) (s : State) : State :=
  let h : Hold :=
    { vcs := 0xFF, ports := 0xFFFFFFFFFF, quietUs := 2, drained := drained, heat := heat, deadline := 9000000, lastSeen := 1000, waiting := ws }
  { s.setHeat 4081 (some (steward .drainVc {})) with route := { s.route with hold := some h } }

theorem test_RouteChanges_earlierHold :
    (let s := run .drainVc (ask .drainVc { w6 := 0x0005_0002_003C, w7 := 3 } (kept false (some 4081) [] up))
     (s.heat 4081).map (·.run.phase) = some (.ended .abortTimeout) ∧ s.route.hold.map (·.heat) = some (some 4080) ∧
       s.route.hold.map (·.ports) = some 3 ∧ s.route.hold.map (·.waiting) = some []) ∧
      (let s := run .drainVc (ask .drainVc { w6 := 0x0005_0002_003C, w7 := 3 } (kept true none [{ billet kTelemetry 7 0 0 0 with dest := 6 }] routed))
       s.route.hold.map (·.drained) = some false ∧ (s.port 3).tx.queue.length = 1) ∧
      (let s := (kept false (some 4081) [] up).releaseHold
       s.route.hold = none ∧ (s.heat 4081).map (·.run.phase) = some (.ended .abortTimeout)) := by decide +kernel

theorem test_RouteChanges_swapEnds :
    (let b : Billet := { billet kTelemetry 7 0 0 0 with dest := 6 }
     let s := kept true none [b] (swapping false)
     let s := s.modPort 7 fun x => { x with reg := { x.reg with st := .active } }
     let s := { s with route := { s.route with bank1 := [(6, 0x8007)] } }
     (run .swapEdge s).route.hold = none ∧ ((run .swapEdge s).port 7).tx.queue = [b] ∧ (run .swapEdge s).bank false = [(6, 0x8007)] ∧
       ((run .swapEdge s).heat 4080).map (·.run.phase) = some (.ended .ok)) ∧
      (let s := kept false (some 4081) [] (swapping true)
       let s := s.modPort 3 fun x => { x with rx := { x.rx with inbox := [billet kData 2 0 0 0, billet kData 4 0 0 0] } }
       ((run .swapEdge s).heat 4081).map (·.run.phase) = some (.ended .abortTimeout) ∧ (run .swapEdge s).route.swapDrop = 2 ∧
         ((run .swapEdge s).port 3).rx.inbox.length = 1) ∧
      (let b : Billet := { billet kTelemetry 7 0 0 0 with dest := 6 }
       let s := kept false (some 4081) [b] routed
       (run .drainVcTimeout s).route.hold = none ∧ ((run .drainVcTimeout s).port 3).tx.queue = [b] ∧
         ((run .drainVcTimeout s).heat 4081).map (·.run.phase) = some (.ended .abortTimeout)) := by decide +kernel

theorem test_CablesAndImages_malformed :
    ends .cableAdopt (ask .cableAdopt { w6 := 4 } (cabled.modPort 4 fun x => { x with reg := { x.reg with qreason := 3 } })) =
        some (.ended .malformed, 0, 0) ∧
      ends .cableAdoptPair (ask .cableAdopt { w6 := 0x10704 } cabled) = some (.ended .malformed, 0, 0) ∧
      ends .cableAdoptPair (ask .cableAdopt { w6 := 0x10706 } (cabled.modPort 7 fun x => { x with reg := { x.reg with other := 5 } })) =
        some (.ended .malformed, 0, 0) := by decide +kernel

/-- The plan of partition 1 in entry 0, with a circuit that this rank reserved, which the PLAN_UNLOAD in context 20 takes away. -/
def leaving : State :=
  let s := withHeat (running (heatOf (desc2 .planUnload) words2))
  let p : Plan := { plan2 with reqs := [(0, 1, 2, 1)], circs := [(0, 9)], leaving := some 20, ready := false }
  (s.setPlan 0 (some p)).setCirc 9 (some { circ1 (some 3) false none with ingress := none })

theorem test_LocalHeats_unload :
    (leaving.leavingPlan 20).map (·.1) = some 0 ∧ (leaving.unloadStep 20).plan 0 = none ∧ (leaving.unloadStep 20).circ 9 = none ∧
      ((leaving.unloadStep 20).heat 20).map (·.run.phase) = some (.ended .ok) ∧
      (((withHeat (running (heatOf (desc2 .planUnload) words2))).unloadStep 20).heat 20).map (·.run.phase) = some (.ended .ok) := by
  decide +kernel

theorem test_LocalHeats_unloadWaits :
    (let y := running (heatOf (desc2 .reduce) words2)
     let y := { y with grp := { y.grp with digest := 0xABCD, planKey := 0 } }
     let z := running (heatOf (desc2 .planUnload) words2)
     let s := (leaving.setHeat 20 (some { z with id := { z.id with order := 5 } })).setHeat 21 (some y)
     let s := s.modQueue 8 fun x => { x with heats := [21, 20] }
     (s.leavingPlan 20).map (fun x => y.ranOver x.2) = some true ∧ s.unloadStep 20 = s) := by decide +kernel

theorem test_KeysQuotasPlans_revoke :
    (let y := running (heatOf (desc2 .reduce) words2)
     let y := { y with grp := { y.grp with digest := 0xABCD, planKey := 0 } }
     let s := (up.setPlan 0 (some plan2)).setPlan 4 (some { plan2 with id := 5, digest := 1 })
     let s := (s.setHeat 20 (some y)).modQueue 8 fun x => { x with heats := [20] }
     y.uses plan2 = true ∧ ((s.revokeOne 0).heat 20).map (·.run.phase) = some (.ended .planInvalid) ∧ (s.revokeOne 0).plan 0 = none ∧
       (s.revokeOne 0).plan 4 = s.plan 4 ∧
       (let t := run .planRevoke (ask .planRevoke { w6 := 0x10001 } s)
        t.plan 0 = none ∧ t.plan 4 = none ∧ ((t.heat 4080).map (·.run.phase)) = some (.ended .ok)) ∧
       ends .planRevoke (ask .planRevoke { w6 := 0x901 } s) = some (.ended .malformed, 0, 0) ∧
       (run .planRevoke (ask .planRevoke { w6 := 0x501 } s)).plan 4 = none) := by decide +kernel

theorem test_KeysQuotasPlans_fits :
    up.quotaFits 1 part1.quota = true ∧ up.quotaFits 2 part1.quota = false ∧ up.quotaFits 1 { part1.quota with pins := 16385 } = false ∧
      (withHeat adder).quotaFits 1 { part1.quota with heats := 0 } = false ∧
      (let s := up.setPart 2 { part1 with quota := { part1.quota with slots := 65533 } }
       s.quotaFits 1 { part1.quota with slots := 3 } = true ∧ s.quotaFits 1 { part1.quota with slots := 4 } = false) := by decide +kernel

theorem test_PartitionReset_begins :
    (let s := (withHeat adder).setHeat 4080 (some (steward .partReset { w6 := 1 }))
     let t := s.resetBegin 4080 1 false
     (t.part 1).state = .resetting ∧ (t.queue 8).st = .halted ∧ (t.queue 8).heats = [20] ∧
       (t.heat 20).map (·.run.phase) = some (.ended .partitionReset) ∧ t.quench.seq = s.quench.seq + 1 ∧
       (t.quench.record.head?.map fun e => (fieldN e 80 4, fieldN e 72 8)) = some (causePartReset, 1) ∧
       ((s.resetBegin 4080 1 true).quench.record.head?.map fun e => (fieldN e 80 4, fieldN e 72 8)) = some (causeRelease, 1)) ∧
      (let s := (withHeat { adder with run := { adder.run with wdog := 6500 } }).setHeat 4080 (some (steward .partReset { w6 := 1 }))
       ((s.resetBegin 4080 1 false).heat 20).map (·.run.phase) = some (.ended .abortTimeout)) ∧
      (let s := up.setHeat 4080 (some (steward .partReset { w6 := 1 }))
       s.seqStopped = false ∧ ((s.resetBegin 4080 1 false).heat 4080).map (·.run.phase) = some (.ended .ok) ∧
         ((s.resetBegin 4080 1 false).part 1).gen = 4 ∧ (s.resetBegin 4080 1 true).part 1 = Part.free) := by decide +kernel

theorem test_PartitionReset_cleared :
    (let s := (slotted .active).setHeat 4080 (some (steward .partReset { w6 := 1 }))
     let s := (s.setPlan 0 (some plan2)).setCirc 9 (some (circ1 (some 3) false none))
     let t := s.resetFinish 4080 1 false
     (s.slot 1 7).isSome = true ∧ t.slot 1 7 = none ∧ t.plan 0 = none ∧ t.circ 9 = none ∧
       t.part 1 = { s.part 1 with state := .active, gen := 4, lastReset := some 6400, haltAt := none }) := by decide +kernel

/-- The heat waits for its slot while Hearth bank 0 wakes. -/
def slotWakes : State :=
  let s := withHeat (slotHeat .drain)
  { s with power := { s.power with on := 0xFFDFFF, aligned := 0xFFDFFF } }

theorem test_SlotsAndStaging_wake :
    (let t := run (.slotObtain 20) slotWakes
     t.power.waking = 0x2000 ∧ t.power.woken = 0x2000 ∧ (t.heat 20).map (·.run.waking) = some true ∧
       (t.heat 20).map (·.run.wdogStopped) = some true) ∧
      (let h := slotHeat .drain
       let s := withHeat { h with run := { h.run with waking := true, wdogStopped := true } }
       s.slotServes = true ∧ s.hearthWaking = false ∧ (s.wakeOver.heat 20).map (·.run.waking) = some false ∧
         run (.slotObtain 20) s = run (.slotObtain 20) s.wakeOver) ∧
      (let s := withHeat (slotHeat .drain)
       let s := { s with power := { s.power with aligned := 0xFFDFFF } }
       (run (.slotObtain 20) s).heat 20 = s.heat 20) := by decide +kernel

/-! ### Boundary cases: billets, time, ports, translations, timers, Trace -/

theorem test_BilletsWithoutHeat_holds :
    (let b := toTag 40 kData 2 0 1
     let s := up.modPort 3 fun x => { x with rx := { x.rx with inbox := [b] } }
     let h : Hold :=
       { vcs := 4, ports := 8, quietUs := 2, drained := false, heat := none, deadline := 0, lastSeen := 1000, waiting := [] }
     let t : State := { s with route := { s.route with hold := some h } }
     (t.undeliver 3 b).route.hold.map (·.lastSeen) = some 6400 ∧ ((t.undeliver 3 b).port 3).rx.inbox = [] ∧ up.undeliver 3 b = up ∧
       up.reached b = none ∧ gives (.data 3 b []) t ((t.undeliver 3 b).cameBy 3 b).tagDrop) := by decide +kernel

theorem test_DataBillets_slow :
    (let b := toTag 40 kData 2 0 0x3F80000040000000
     let s := (flows (flowing .allgather id id)).modPort 3 fun x => { x with rx := { x.rx with inbox := [b], slow := [b] } }
     let t := run (.data 3 b []) s
     (t.heat 20).map (·.run.timing) = some true ∧ (t.port 3).rx.slow = [] ∧ (t.port 3).rx.inbox = []) := by decide +kernel

/-- Four billets of one element each have been sent, and read from memory. -/
def sentSrc (f : Heat → Heat) : State :=
  let h := flowing .allgather id fun x => { x with next := 2, items := [⟨false, 1⟩, ⟨false, 2⟩] }
  let x : Stream := { id := .src, write := false, place := .mem 0x20000 [], esize := 4, total := 128, pos := 128, wait := .done }
  flows (f { h with dp := { h.dp with streams := [x] } })

theorem test_FlowControl_goBack :
    (let s := sentSrc id
     let h := (s.heat 20).getD meeting
     ((h.dp.outs[0]?).any fun x => x.next = 2 && decide (h.pc.srcFrom h.dp x 0 128 < 128)) = true ∧
       ((s.goBack 20 0 0).heat 20).map (fun h => (h.dp.outs.map (·.next), h.dp.streams.map (·.wait))) = some ([0], [.idle]) ∧
       (let p := sentSrc fun h => { h with run := { h.run with pausedAt := some 0 } }
        ((p.goBack 20 0 0).heat 20).map (fun h => (h.dp.outs.map (·.next), h.dp.streams.map (·.pos))) = some ([0], [128]))) := by
  decide +kernel

theorem test_HeatBillets_children :
    (let h := barrierHeat none false
     let h := { h with grp := { h.grp with up := none } }
     let s := flows h
     h.kids = [1] ∧
     (h.ep 1).isSome = true ∧ (h.tagTo 1).isSome = true ∧ s.route.hold = none ∧ s.heldBack (billet kBarrier 0 0 0 0) = false ∧
       gives (.barrierRelease 3 (toTag 40 kBarrier 0 1 0)) s
         ((h.kids.foldl (fun x k => x.sendBarrier 20 k true 0) (s.rearm 20)).barrierRelease 20 0).pumpAll) := by decide +kernel

theorem test_TimeExchange_state :
    (let x : PendOff := { offset := 7, locked := none, left := 2 }
     let s := timed roleLead none
     let s := { s with time := { s.time with pend := [x] } }
     (let t := run (.timeQuery 2 (time 2 [(6, 40)])) s
      (t.port 3).tx.queue.map (fun b => (pAt b.data 24 4, pAt b.data 32 8)) = [(7, (1 + 2) * 2 ^ 20)]) ∧
       s.time.applyDue.pend = [{ x with left := 1 }]) ∧
      (let t := run (.timeState 2 (time 0xB [(77, 24), (4 * 2 ^ 20, 32)])) (timed roleMember none)
       (t.time.pend.map fun x => x.left) = [3]) := by decide +kernel

theorem test_LinkControl_unused :
    (let s := { inState .unused with power := { up.power with on := 0xFFFFFE, aligned := 0xFFFFFE } }
     s.isOn (portIsland 3) = false ∧ (run (.linkEnable 3 0x50001) s).power.waking = 1 ∧
       (run (.linkEnable 3 0x50001) s).ctl.ymbWait = some (.link 3 0x50001) ∧ ((run (.linkEnable 3 0x50001) s).port 3).reg.st = .unused) ∧
      (run (.linkEnable 3 0x50001) (inState .unused)).ctl.ymbWait = none := by decide +kernel

theorem test_Training_service :
    (let s := up.modPort 34 fun x => { x with
        reg := { x.reg with st := .credit, width := 8 }, rx := { x.rx with x32 := true, part := [(1, false)] }
        tr := { x.tr with sendReady := true, partnerReady := true, offer := [(4, 9)] } }
     let t := run (.periodBoundary 34 (.beat 0)) s
     (t.port 34).reg.st = .active ∧ (t.port 34).reg.width = 4 ∧ (t.port 34).rx.pools = [(4, 9)] ∧ (t.port 34).rx.part = []) := by
  decide +kernel

theorem test_PortLoss_retrain :
    (let s := inState .retrain fun x => { x with
        tr := { x.tr with sendAgreed := true, partnerAgreed := true, use := 0x0F, sig := 0xFF }, rx := { x.rx with part := [(1, false)] } }
     ((run (.periodBoundary 3 (.lanes [])) s).port 3).reg.discard = 1 ∧ ((run (.periodBoundary 3 (.lanes [])) s).port 3).rx.part = [] ∧
       bit (s.port 3).tr.use ((s.port 3).tr.laneOf 7) = false ∧ ((run (.laneSignalChange 3 7 false) s).port 3).reg = (s.port 3).reg ∧
       ((run (.laneSignalChange 3 7 false) s).port 3).tr.sendAgreed = true) ∧
      (let h := inPhase .pin (flowing .broadcast id id)
       let h := { h with grp := { h.grp with planKey := 0 } }
       let s := (((inState .active).setCirc 9 (some { circ1 (some 3) true none with ingress := none })).setPlan 0
         (some { plan2 with reqs := [(0, 1, 2, Kind.broadcast.code)] })).setHeat 20 (some h)
       s.heatVia 3 h = false ∧ s.heatOver 3 h = true ∧
         ((run (.rxSilenceTimeout 3) s).heat 20).map (·.run.phase) = some (.ended .portLost)) := by decide +kernel

theorem test_Frames_pools :
    (let b := billet kData 2 0x021 0 0
     let s := active3.modPort 3 fun x => { x with rx := { x.rx with pools := [(active3.pairOfBillet b, 1)] } }
     let t := run (.frameReceive 3 (some (frame 0 [b, b, idleBillet, idleBillet]))) s
     (t.port 3).rx.e = 1 ∧ (t.port 3).rx.buf.length = 1) ∧
      (let x := (active3.port 3)
       ({ x with reg := { x.reg with st := .credit } } : Port).groupsSent 3 = ({ x with reg := { x.reg with st := .credit } } : Port).groupsSent 3 ∧
         (({ x with reg := { x.reg with st := .credit } } : Port).groupsSent 3).length = 8) := by decide +kernel

theorem test_Translations_none :
    up.trc.asking = none ∧ pumps (.xlateReply 9 0 0 0) up ∧ pumps (.pageReqReply 9 0) up ∧
      (let s := faulting true
       s.xlFull = false ∧ pumps (.xlateReply 9 0 0 0) s) := by decide +kernel

theorem test_Timers_paused :
    (let s := timing fun h => { h with run := { h.run with pausedAt := some 0 } }
     ((run (.commitQuietTimer 40) s).heat 20).map (·.dp.ins.map (·.reported)) = some [2]) ∧
      (let h := steward .partReset { w6 := 1 }
       let s := up.setHeat 4080 (some { h with run := { h.run with due := 9000 } })
       let t : State := { s with seq := { s.seq with reload := true } }
       idle (.resetSpacingEnd 4080) t ∧ ((run (.resetSpacingEnd 4080) s).part 1).gen = 4) := by decide +kernel

theorem test_WatchdogAndAbort_late :
    (let h := inPhase (.ended .partitionReset) adder
     let s := withHeat { h with run := { h.run with wdog := 6900, endAt := 6400 } }
     s.expiresNow ((s.heat 20).getD adder) = true ∧ ((run (.watchdogExpiry 20) s).heat 20).map (·.run.phase) = some (.ended .abortTimeout) ∧
       (run (.watchdogExpiry 20) s).quench.seq = s.quench.seq + 1) := by decide +kernel

theorem test_RecordAndReplay_earliest :
    (let e (t : Nat) (idx : Nat) : BitVec 128 := assemble 128 [(t, 88), (3, 84), (8, 72), (idx, 55)]
     let s := tracing fun x => { x with replay := true, part := 1, entries := [(0, e 500 3), (1, e 20 2)], readAll := true }
     s.overdue = some (3, 1, 20 + 1562500) ∧ s.entryWait (0, e 500 3) = some (3, 0, 500 + 1562500)) := by decide +kernel

theorem test_Telemetry_dest :
    (let s := { up with trc := { up.trc with teleEnable := true, teleInterval := 5 } }
     let t := run (.registerWrite (.ymb 0x1C0104 0x80000007)) s
     t.trc.teleAt = s.epochPs ∧ t.trc.teleValid = true ∧ t.trc.teleDest = 7 ∧ s.epochPs = 6710892800 ∧
       (run .telemetrySample t).time.now = 6400 + (1343 * 5000000 - 6710892800) ∧ (run .telemetrySample t).trc.sample = 1) := by
  decide +kernel

theorem test_GatingAndWake_contents :
    (let s := { up with
        power := { up.power with autoTrace := true }, trc := { up.trc with sample := 4 } }
     s.mayGate .trace = true ∧ (run (.islandGate .trace) s).trc.sample = 0) := by decide +kernel

theorem test_Resets_zeroize :
    (let s := run .zeroize unsealed
     s.boot.zeroAt = some 6400 ∧ (run .zeroize s).boot.zeroAt = some (6400 + msPs) ∧ (run .zeroize s).time.now = 6400 + msPs) ∧
      (let s := run .zeroizeScrubDone (run .warmReset up)
       s.boot.scrubbed = true ∧ (run .zeroize s).boot.scrub = false) := by decide +kernel

/-! ### Arithmetic of Anvil (03, 04, 06): values worked from the rules by hand -/

/-- R74's example, and R71's. -/
theorem test_Anvil_examples :
    anvilAdd 0x3F800000 0x33C00000 .rne 0 = (0x3F800001, Flags.inex true) ∧
      anvilAdd 0x3F800000 0x33C00000 .rtz 0 = (0x3F800000, Flags.inex true) ∧
      anvilAdd 0x3F800000 0x33C00000 .sr 0x4000 = (0x3F800001, Flags.inex true) ∧
      anvilAdd 0x7F7FFFFF 0x73000000 .rne 0 = (posInf, Flags.ovf) ∧ anvilAdd posInf negInf .rne 0 = (nanW, Flags.inv true) ∧
      anvilAdd 0x00000001 0x80000001 .rne 0 = (0, Flags.none) ∧ anvilAdd negZero negZero .rne 0 = (negZero, Flags.none) := by
  decide +kernel

/-- R89's largest codes and thresholds, R102, R105. -/
theorem test_Anvil_conversions :
    narrowElem .fp16 0x7F 0x477FE000 .rne .ieee 0 = (0x7BFF, Flags.none) ∧
      narrowElem .fp16 0x7F 0x477FF000 .rtz .ieee 0 = (0x7C00, Flags.ovf) ∧
      narrowElem .e4m3 0x7F 0x43E80000 .rne .sat 0 = (0x7E, Flags.sat) ∧
      narrowElem .e4m3 0x80 0x44600000 .rne .sat 0 = (0x7E, Flags.none) ∧
      narrowElem .mxint8 0x7F 0xC0000000 .rne .sat 0 = (0x81, Flags.sat) ∧
      sharedScale .e4m3 [0x44600000, 0x3F800000] = 0x80 ∧ (expand16 .bf16 0x3F80).1 = 0x3F800000 ∧
      (int4Szp 0x3F800000 8 15 .sat).1 = 0x4E := by decide +kernel

/-- R141's table, R142's values, and a merge of R143: at equal maxima 1.0 + 2.0. -/
theorem test_Anvil_softmax :
    expTbl 0 = 0x4000000000000000 ∧ expTbl 32 = 0x5A827999FCEF3242 ∧ anvilExp negZero = (0x3F800000, Flags.none) ∧
      anvilExp 0x43200000 = (posInf, Flags.ovf) ∧
      (softmaxMerge 0x40000000 0x3F800000 [0x3F800000] 0x40000000 0x40000000 [0]).1 = (0x40000000, 0x40400000, [0x3F800000]) ∧
      anvilDiv 0x40C00000 0x40000000 = (0x40400000, Flags.none) ∧ anvilFma 0x40000000 0x40400000 0xC0C00000 = (0, Flags.none) := by
  decide +kernel

end Sys2Proof.Tests
end

section
/-! SUPPORT. Assay accumulation (R77, R78): `join` and `merge` are commutative and associative, so a fold of merges does not depend
on the order of its operands; and magnitudes that together stay below 2^319 keep every step of the fold in range. -/

namespace Sys2Proof.Machine

/-! ### The status (R77) -/

@[simp] theorem ASt.join_finite (x : ASt) : x.join .finite = x := by cases x <;> rfl

@[simp] theorem ASt.finite_join (x : ASt) : ASt.join .finite x = x := by cases x <;> rfl

@[simp] theorem ASt.join_self (x : ASt) : x.join x = x := by cases x <;> rfl

theorem ASt.join_comm (x y : ASt) : x.join y = y.join x := by cases x <;> cases y <;> rfl

theorem ASt.join_assoc (x y z : ASt) : (x.join y).join z = x.join (y.join z) := by
  cases x <;> cases y <;> cases z <;> rfl

/-- Two different statuses, neither of them finite, are NaN together. -/
theorem ASt.join_of_ne {x y : ASt} (hx : x ≠ .finite) (hy : y ≠ .finite) (hxy : x ≠ y) : x.join y = .nan := by
  cases x <;> cases y <;> simp_all [ASt.join]

/-! ### Merges and operands -/

theorem Assay.merge_right_comm (a p q : Assay) : (a.merge p).merge q = (a.merge q).merge p := by
  have hst : (a.st.join p.st).join q.st = (a.st.join q.st).join p.st := by
    rw [ASt.join_assoc, ASt.join_comm p.st, ASt.join_assoc]
  simp only [Assay.merge, hst, Int.add_right_comm, Bool.and_right_comm]

/-- The order in which partials are merged does not matter. -/
theorem Assay.foldl_merge_perm {l l' : List Assay} (h : l.Perm l') (a : Assay) : l.foldl Assay.merge a = l'.foldl Assay.merge a :=
  h.foldl_eq' (fun p _ q _ z => z.merge_right_comm p q) a

/-- Operands are applied as the accumulators they stand for. -/
theorem Assay.foldl_apply (a : Assay) (l : List AOp) : l.foldl Assay.apply a = (l.map AOp.toAssay).foldl Assay.merge a :=
  (List.foldl_map (f := AOp.toAssay) (g := Assay.merge)).symm

/-- The order in which operands are applied does not matter. -/
theorem Assay.foldl_apply_perm {l l' : List AOp} (h : l.Perm l') (a : Assay) : l.foldl Assay.apply a = l'.foldl Assay.apply a := by
  rw [foldl_apply, foldl_apply, foldl_merge_perm (h.map AOp.toAssay)]

/-! ### Encodings of FP32 as numbers -/

theorem isNan_iff (x : W32) : isNan x = true ↔ 0x7F800000 < x.toNat % 2 ^ 31 := by
  have h : isNan x = true ↔ expOf x = 255 ∧ fracOf x ≠ 0 := by simp [isNan]
  rw [h]
  simp only [expOf, fracOf, fieldN]
  omega

theorem eq_posInf_iff (x : W32) : x = posInf ↔ x.toNat = 0x7F800000 := BitVec.toNat_inj.symm

theorem eq_negInf_iff (x : W32) : x = negInf ↔ x.toNat = 0xFF800000 := BitVec.toNat_inj.symm

/-- The exponent field is all ones in the NaNs and the two infinities, and nowhere else. -/
theorem expOf_eq_255_iff (x : W32) : expOf x = 255 ↔ isNan x = true ∨ x = posInf ∨ x = negInf := by
  rw [isNan_iff, eq_posInf_iff, eq_negInf_iff]
  simp only [expOf, fieldN]
  omega

theorem isNan_of_expOf_ne {x : W32} (h : expOf x ≠ 255) : isNan x = false := by
  simp [isNan, h]

/-! ### One operand (R77) -/

theorem Assay.apply_nan (a : Assay) {x : W32} (h : isNan x = true) :
    a.apply (.fp x) = { acc := a.acc, st := a.st.join .nan, negz := false } := by
  have he : expOf x = 255 := (expOf_eq_255_iff x).2 (.inl h)
  have hz : x ≠ negZero := by rintro rfl; contradiction
  simp [Assay.apply, Assay.merge, AOp.toAssay, AOp.value, AOp.status, AOp.isNegz, h, he, hz]

theorem Assay.apply_posInf (a : Assay) : a.apply (.fp posInf) = { acc := a.acc, st := a.st.join .pinf, negz := false } := by
  have h : AOp.toAssay (.fp posInf) = { acc := 0, st := .pinf, negz := false } := by decide
  simp [Assay.apply, Assay.merge, h]

theorem Assay.apply_negInf (a : Assay) : a.apply (.fp negInf) = { acc := a.acc, st := a.st.join .ninf, negz := false } := by
  have h : AOp.toAssay (.fp negInf) = { acc := 0, st := .ninf, negz := false } := by decide
  simp [Assay.apply, Assay.merge, h]

theorem Assay.apply_fp_finite (a : Assay) {x : W32} (h : expOf x ≠ 255) :
    a.apply (.fp x) = { acc := a.acc + fixed x, st := a.st, negz := a.negz && decide (x = negZero) } := by
  obtain ⟨hn, hp, hm⟩ : isNan x ≠ true ∧ x ≠ posInf ∧ x ≠ negInf := by
    simpa only [ne_eq, expOf_eq_255_iff, not_or] using h
  simp [Assay.apply, Assay.merge, AOp.toAssay, AOp.value, AOp.status, AOp.isNegz, h, hn, hp, hm]

theorem Assay.apply_exact (a : Assay) (v : Int) : a.apply (.exact v) = { acc := a.acc + v, st := a.st, negz := false } := by
  simp [Assay.apply, Assay.merge, AOp.toAssay, AOp.value, AOp.status, AOp.isNegz]

/-- Every FP32 operand, by what it is. -/
theorem Assay.apply_fp (a : Assay) (x : W32) :
    a.apply (.fp x) = (
      if isNan x then { acc := a.acc, st := a.st.join .nan, negz := false }
      else if x = posInf then { acc := a.acc, st := a.st.join .pinf, negz := false }
      else if x = negInf then { acc := a.acc, st := a.st.join .ninf, negz := false }
      else { acc := a.acc + fixed x, st := a.st, negz := a.negz && decide (x = negZero) }) := by
  split
  case isTrue hn => exact a.apply_nan hn
  case isFalse hn =>
    split
    case isTrue hp => rw [hp, apply_posInf]
    case isFalse hp =>
      split
      case isTrue hm => rw [hm, apply_negInf]
      case isFalse hm => exact a.apply_fp_finite (by simp [expOf_eq_255_iff, hn, hp, hm])

/-! ### What is drained, and the range check (R78, R79) -/

/-- A status that is not finite is drained whatever ACC holds. -/
theorem Assay.drain_acc_of_st_ne (a : Assay) (n : Int) (mode : Rnd) (h : a.st ≠ .finite) :
    Assay.drain { a with acc := n } mode = a.drain mode := by
  obtain ⟨acc, st, negz⟩ := a
  cases st
  case finite => contradiction
  all_goals rfl

/-- A sum of less than 2^319 in magnitude passes the range check. -/
theorem Assay.mergeF_of_lt {a p : Assay} (h : a.acc.natAbs + p.acc.natAbs < 2 ^ 319) : a.mergeF p = (a.merge p, Flags.none) := by
  have hr : assayInRange (a.acc + p.acc) = true := by
    simp only [assayInRange, Bool.and_eq_true, decide_eq_true_eq]
    omega
  exact if_pos hr

@[simp] theorem Flags.or_none (f : Flags) : f.or Flags.none = f := by
  simp [Flags.or, Flags.none]

/-- The checked fold is the unchecked one, and raises nothing, while the magnitudes together stay below 2^319. -/
theorem Assay.foldl_mergeF_of_lt (l : List Assay) (a : Assay) (f : Flags)
    (h : a.acc.natAbs + (l.map fun p => p.acc.natAbs).sum < 2 ^ 319) :
    l.foldl (fun r p => ((r.1.mergeF p).1, r.2.or (r.1.mergeF p).2)) (a, f) = (l.foldl Assay.merge a, f) := by
  induction l generalizing a with
  | nil => rfl
  | cons p l ih =>
    simp only [List.map_cons, List.sum_cons] at h
    have hp : a.mergeF p = (a.merge p, Flags.none) := mergeF_of_lt (by omega)
    have hl : (a.merge p).acc.natAbs + (l.map fun p => p.acc.natAbs).sum < 2 ^ 319 := by
      have : (a.merge p).acc.natAbs ≤ a.acc.natAbs + p.acc.natAbs := Int.natAbs_add_le ..
      omega
    simp only [List.foldl_cons, hp, Flags.or_none, ih _ hl]

/-- Settles O55: merges commute, operands are merges, and a sum of small magnitudes stays in range. -/
theorem assayOrderFree : Obligations.AssayOrderFree := by
  refine ⟨Assay.apply_fp, Assay.apply_exact, fun _ _ => rfl, fun x y z => ?_, Assay.drain_acc_of_st_ne,
    fun a _ _ h => Assay.foldl_merge_perm h a, fun a l l' mode h => ?_, fun a l f h => Assay.foldl_mergeF_of_lt l a f h⟩
  · exact ⟨x.join_finite, x.finite_join, x.join_self, x.join_comm y, x.join_assoc y z, ASt.join_of_ne⟩
  · rw [Assay.foldl_apply_perm h]
    exact ⟨rfl, rfl⟩

end Sys2Proof.Machine
end

section
/-! SUPPORT. MAX and MIN (R75) choose by a key under which distinct encodings differ; the order of top-k records (R146) is that of
one number, so a merge of sorted lists is sorted. -/

namespace Sys2Proof.Machine

/-! ### The order of R75 -/

theorem signOf_eq (x : W32) : signOf x = decide (2 ^ 31 ≤ x.toNat) := by
  have h : x.msb = signOf x := BitVec.msb_eq_getLsbD_last x
  rw [← h, BitVec.msb_eq_decide]

theorem orderKey_eq (x : W32) : orderKey x = if 2 ^ 31 ≤ x.toNat then 2 ^ 31 - 1 - (x.toNat : Int) else (x.toNat : Int) := by
  have hm : (x &&& 0x7FFFFFFF).toNat = x.toNat % 2 ^ 31 := by
    rw [BitVec.toNat_and]
    exact Nat.and_two_pow_sub_one_eq_mod x.toNat 31
  simp only [orderKey, signOf_eq, decide_eq_true_eq, hm]
  split <;> omega

/-- Distinct encodings have distinct keys. -/
theorem orderKey_injective : Function.Injective orderKey := by
  intro a b h
  rw [orderKey_eq, orderKey_eq] at h
  apply BitVec.eq_of_toNat_eq
  split at h <;> split at h <;> omega

/-- The encodings that are no NaN lie between the infinities. -/
theorem orderKey_mem_of_not_nan {x : W32} (h : isNan x = false) : orderKey negInf ≤ orderKey x ∧ orderKey x ≤ orderKey posInf := by
  have hn : ¬ 0x7F800000 < x.toNat % 2 ^ 31 := by
    rw [← isNan_iff, h]
    exact Bool.false_ne_true
  have hneg : orderKey negInf = -0x7F800001 := by decide
  have hpos : orderKey posInf = 0x7F800000 := by decide
  rw [hneg, hpos, orderKey_eq]
  split <;> omega

/-- A greater magnitude field is a greater magnitude. -/
theorem magOf_mono {a b : W32} (h : a.toNat % 2 ^ 31 ≤ b.toNat % 2 ^ 31) : magOf a ≤ magOf b := by
  have ha : fracOf a < 2 ^ 23 := Nat.mod_lt _ (by decide)
  obtain ⟨he, hf⟩ : expOf a ≤ expOf b ∧ (expOf a = expOf b → fracOf a ≤ fracOf b) := by
    simp only [expOf, fracOf, fieldN]
    omega
  unfold magOf
  rcases Nat.eq_or_lt_of_le he with heq | hlt
  · rw [heq]
    split
    · exact hf heq
    · exact Nat.mul_le_mul_right _ (Nat.add_le_add_left (hf heq) _)
  · rw [if_neg (by omega : expOf b ≠ 0)]
    split
    case isTrue =>
      calc fracOf a ≤ 2 ^ 23 + fracOf b := by omega
        _ ≤ _ := Nat.le_mul_of_pos_right _ (Nat.two_pow_pos _)
    case isFalse ha0 =>
      have hpow : 2 ^ (expOf a - 1) * 2 ≤ 2 ^ (expOf b - 1) := by
        rw [← Nat.pow_succ]
        exact Nat.pow_le_pow_right (by decide) (by omega)
      calc (2 ^ 23 + fracOf a) * 2 ^ (expOf a - 1) ≤ 2 ^ 23 * (2 ^ (expOf a - 1) * 2) := by
            rw [Nat.mul_comm _ 2, ← Nat.mul_assoc]
            exact Nat.mul_le_mul_right _ (by omega)
        _ ≤ _ := Nat.mul_le_mul (by omega) hpow

/-- The order of R75 is that of the exact values. -/
theorem fixed_mono {a b : W32} (h : orderKey a ≤ orderKey b) : fixed a ≤ fixed b := by
  rw [orderKey_eq, orderKey_eq] at h
  simp only [fixed, signOf_eq, decide_eq_true_eq]
  split at h <;> split at h
  case isTrue.isTrue ha hb =>
    have := magOf_mono (a := b) (b := a) (by omega)
    simp only [ha, hb, if_true]
    omega
  case isTrue.isFalse ha hb =>
    simp only [ha, hb, if_true, if_false]
    omega
  case isFalse.isTrue => omega
  case isFalse.isFalse ha hb =>
    have := magOf_mono (a := a) (b := b) (by omega)
    simp only [ha, hb, if_false]
    omega

/-! ### The choice by a key, of which MAX and MIN are the two cases -/

/-- The operand with the greater key, the first where they are equal; the default NaN where one is NaN. -/
def pickBy (key : W32 → Int) (a b : W32) : W32 × Flags :=
  if isNan a || isNan b then (nanW, Flags.inv (isSnan a || isSnan b)) else (if key a < key b then b else a, {})

theorem anvilMax_eq_pickBy : anvilMax = pickBy orderKey := rfl

theorem anvilMin_eq_pickBy : anvilMin = pickBy (fun x => -orderKey x) := by
  funext a b
  simp only [anvilMin, pickBy, Int.neg_lt_neg_iff]

theorem neg_orderKey_injective : Function.Injective fun x => -orderKey x :=
  fun _ _ h => orderKey_injective (Int.neg_inj.1 h)

section
variable {key : W32 → Int} {a b : W32}

theorem pickBy_of_nan (h : isNan a = true ∨ isNan b = true) : pickBy key a b = (nanW, Flags.inv (isSnan a || isSnan b)) := by
  simp [pickBy, h]

theorem pickBy_of_not_nan (ha : isNan a = false) (hb : isNan b = false) :
    pickBy key a b = (if key a < key b then b else a, Flags.none) := by
  simp [pickBy, ha, hb, Flags.none]

theorem pickBy_of_le (ha : isNan a = false) (hb : isNan b = false) (h : key b ≤ key a) : pickBy key a b = (a, Flags.none) := by
  rw [pickBy_of_not_nan ha hb, if_neg (Int.not_lt.2 h)]

theorem pickBy_comm (hk : key.Injective) (a b : W32) : pickBy key a b = pickBy key b a := by
  simp only [pickBy, Bool.or_comm (isNan b), Bool.or_comm (isSnan b)]
  split
  · rfl
  · rcases Int.lt_trichotomy (key a) (key b) with h | h | h
    · rw [if_pos h, if_neg (Int.not_lt.2 (Int.le_of_lt h))]
    · rw [hk h]
    · rw [if_pos h, if_neg (Int.not_lt.2 (Int.le_of_lt h))]

/-- A choice is NaN where an operand is one. -/
theorem isNan_pickBy (key : W32 → Int) (a b : W32) : isNan (pickBy key a b).1 = (isNan a || isNan b) := by
  have hn : isNan nanW = true := by decide
  unfold pickBy
  split
  case isTrue h => rw [hn, h]
  case isFalse h =>
    simp only [Bool.or_eq_true, not_or, Bool.not_eq_true] at h
    split <;> simp [h]

theorem pickBy_assoc (key : W32 → Int) (a b c : W32) :
    (pickBy key (pickBy key a b).1 c).1 = (pickBy key a (pickBy key b c).1).1 := by
  by_cases h : (isNan a || isNan b || isNan c) = true
  · rw [pickBy_of_nan (a := (pickBy key a b).1) (by simpa [isNan_pickBy] using h),
      pickBy_of_nan (b := (pickBy key b c).1) (by simpa [isNan_pickBy, or_assoc] using h)]
  · simp only [Bool.or_eq_true, not_or, Bool.not_eq_true] at h
    obtain ⟨⟨ha, hb⟩, hc⟩ := h
    have hab : isNan (pickBy key a b).1 = false := by simp [isNan_pickBy, ha, hb]
    have hbc : isNan (pickBy key b c).1 = false := by simp [isNan_pickBy, hb, hc]
    rw [pickBy_of_not_nan hab hc, pickBy_of_not_nan ha hbc, pickBy_of_not_nan ha hb, pickBy_of_not_nan hb hc]
    by_cases h1 : key a < key b <;> by_cases h2 : key b < key c
    · simp only [h1, h2, Int.lt_trans h1 h2, if_true]
    · simp only [h1, h2, if_true, if_false]
    · simp only [h1, h2, if_true, if_false]
    · have h3 : ¬ key a < key c := Int.not_lt.2 (Int.le_trans (Int.not_lt.1 h2) (Int.not_lt.1 h1))
      simp only [h1, h2, h3, if_false]

/-- Without a NaN no flag is raised, and the choice is one of the operands. -/
theorem pickBy_mem (ha : isNan a = false) (hb : isNan b = false) :
    (pickBy key a b).2 = Flags.none ∧ ((pickBy key a b).1 = a ∨ (pickBy key a b).1 = b) := by
  rw [pickBy_of_not_nan ha hb]
  refine ⟨rfl, ?_⟩
  by_cases h : key a < key b
  · exact .inr (if_pos h)
  · exact .inl (if_neg h)

end

/-! ### MAX and MIN (R75) -/

theorem fixed_anvilMax {a b : W32} (ha : isNan a = false) (hb : isNan b = false) :
    fixed (anvilMax a b).1 = max (fixed a) (fixed b) := by
  rw [anvilMax_eq_pickBy, pickBy_of_not_nan ha hb]
  split
  case isTrue h => exact (Int.max_eq_right (fixed_mono (Int.le_of_lt h))).symm
  case isFalse h => exact (Int.max_eq_left (fixed_mono (Int.not_lt.1 h))).symm

theorem fixed_anvilMin {a b : W32} (ha : isNan a = false) (hb : isNan b = false) :
    fixed (anvilMin a b).1 = min (fixed a) (fixed b) := by
  rw [anvilMin_eq_pickBy, pickBy_of_not_nan ha hb]
  split
  case isTrue h => exact (Int.min_eq_right (fixed_mono (Int.le_of_lt (Int.neg_lt_neg_iff.1 h)))).symm
  case isFalse h => exact (Int.min_eq_left (fixed_mono (Int.neg_le_neg_iff.1 (Int.not_lt.1 h)))).symm

/-- An infinity against an operand that is no NaN. -/
theorem anvilMaxMin_inf {a : W32} (ha : isNan a = false) :
    (anvilMax a negInf).1 = a ∧ (anvilMin a posInf).1 = a ∧ (anvilMax a posInf).1 = posInf ∧ (anvilMin a negInf).1 = negInf := by
  obtain ⟨hlo, hhi⟩ := orderKey_mem_of_not_nan ha
  have hn : isNan negInf = false := by decide
  have hp : isNan posInf = false := by decide
  rw [anvilMax_eq_pickBy, anvilMin_eq_pickBy, pickBy_comm orderKey_injective a posInf,
    pickBy_comm neg_orderKey_injective a negInf, pickBy_of_le ha hn hlo, pickBy_of_le ha hp (Int.neg_le_neg hhi),
    pickBy_of_le hp ha hhi, pickBy_of_le hn ha (Int.neg_le_neg hlo)]
  exact ⟨rfl, rfl, rfl, rfl⟩

/-! ### The order of top-k records (R146) -/

/-- A record's place in the order of R146 as one number, the best lowest: NaN, then values from the greatest, then positions. -/
def topkRank (x : W32 × W32) : Int := (if isNan x.1 then -2 ^ 32 else -orderKey x.1) * 2 ^ 32 + x.2.toNat

theorem topkBefore_iff (x y : W32 × W32) : topkBefore x y = true ↔ topkRank x < topkRank y := by
  have hx : orderKey x.1 < 2 ^ 31 := by rw [orderKey_eq]; split <;> omega
  have hy : orderKey y.1 < 2 ^ 31 := by rw [orderKey_eq]; split <;> omega
  have hp := x.2.isLt
  have hq := y.2.isLt
  unfold topkBefore topkRank
  cases isNan x.1 <;> cases isNan y.1
  case false.false =>
    by_cases hk : orderKey x.1 = orderKey y.1
    · simp [hk, BitVec.lt_def]
    · simp only [Bool.false_eq_true, if_false, hk, decide_eq_true_eq]
      omega
  case false.true =>
    simp only [Bool.false_eq_true, if_false, if_true, false_iff]
    omega
  case true.false =>
    simp only [Bool.false_eq_true, if_false, if_true, Bool.not_false, Bool.true_or, true_iff]
    omega
  case true.true => simp [BitVec.lt_def]

theorem topkBefore_eq_false_iff (x y : W32 × W32) : topkBefore x y = false ↔ topkRank y ≤ topkRank x := by
  rw [← Int.not_lt, ← topkBefore_iff, Bool.not_eq_true]

/-! ### Merges of top-k lists (R148) -/

theorem topkMerge_perm (run inc : List (W32 × W32)) : (topkMerge run inc).Perm (run ++ inc) := by
  induction inc generalizing run with
  | nil => simp [topkMerge]
  | cons y t ih =>
    have hrun : run ++ y :: t =
        run.takeWhile (fun x => !topkBefore y x) ++ (run.dropWhile (fun x => !topkBefore y x) ++ y :: t) := by
      rw [← List.append_assoc, List.takeWhile_append_dropWhile]
    rw [hrun]
    exact (((ih _).cons y).trans List.perm_middle.symm).append_left _

/-- Of a list that is best first, what stands at or after the first record behind `y` is behind `y`. -/
theorem rank_le_of_mem_dropWhile {y x : W32 × W32} {run : List (W32 × W32)}
    (h : run.Pairwise fun x y => topkRank x ≤ topkRank y) (hx : x ∈ run.dropWhile fun x => !topkBefore y x) :
    topkRank y ≤ topkRank x := by
  induction run with
  | nil => simp at hx
  | cons z run ih =>
    obtain ⟨hz, hrun⟩ := List.pairwise_cons.1 h
    cases hb : topkBefore y z with
    | false => exact ih hrun (by simpa [hb] using hx)
    | true =>
      have hyz : topkRank y < topkRank z := (topkBefore_iff y z).1 hb
      have hx : x = z ∨ x ∈ run := by simpa [hb] using hx
      rcases hx with rfl | hx
      · exact Int.le_of_lt hyz
      · exact Int.le_trans (Int.le_of_lt hyz) (hz x hx)

theorem topkMerge_sorted {run inc : List (W32 × W32)} (hr : run.Pairwise fun x y => topkRank x ≤ topkRank y)
    (hi : inc.Pairwise fun x y => topkRank x ≤ topkRank y) : (topkMerge run inc).Pairwise fun x y => topkRank x ≤ topkRank y := by
  induction inc generalizing run with
  | nil => exact hr
  | cons y t ih =>
    obtain ⟨hy, ht⟩ := List.pairwise_cons.1 hi
    have hbefore : ∀ x ∈ run.takeWhile fun x => !topkBefore y x, topkRank x ≤ topkRank y := fun x hx =>
      (topkBefore_eq_false_iff y x).1 (by simpa only [Bool.not_eq_true'] using List.all_eq_true.1 List.all_takeWhile x hx)
    have hafter : ∀ x ∈ topkMerge (run.dropWhile fun x => !topkBefore y x) t, topkRank y ≤ topkRank x := fun x hx =>
      (List.mem_append.1 ((topkMerge_perm _ t).mem_iff.1 hx)).elim (rank_le_of_mem_dropWhile hr) (hy x)
    refine List.pairwise_append.2 ⟨hr.sublist (List.takeWhile_sublist _),
      List.pairwise_cons.2 ⟨hafter, ih (hr.sublist (List.dropWhile_sublist _)) ht⟩, fun x hx z hz => ?_⟩
    rcases List.mem_cons.1 hz with rfl | hz
    · exact hbefore x hx
    · exact Int.le_trans (hbefore x hx) (hafter z hz)

theorem topkKeep_length (k : Nat) (run inc : List (W32 × W32)) : (topkKeep k run inc).length = min k (run.length + inc.length) := by
  rw [topkKeep, List.length_take, (topkMerge_perm run inc).length_eq, List.length_append]

/-- What is kept is at least as good as what is dropped. -/
theorem topkKeep_best {run inc : List (W32 × W32)} (k : Nat) (hr : run.Pairwise fun x y => topkRank x ≤ topkRank y)
    (hi : inc.Pairwise fun x y => topkRank x ≤ topkRank y) :
    ∀ x ∈ topkKeep k run inc, ∀ y ∈ (topkMerge run inc).drop k, topkRank x ≤ topkRank y := by
  have hm := topkMerge_sorted hr hi
  rw [← List.take_append_drop k (topkMerge run inc)] at hm
  exact (List.pairwise_append.1 hm).2.2

/-- Settles O56: MAX and MIN choose by an injective key, and a top-k merge inserts by the order of one number. -/
theorem maxMinAndTopk : Obligations.MaxMinAndTopk := by
  unfold Obligations.MaxMinAndTopk
  simp only [topkBefore_eq_false_iff]
  refine ⟨fun a b => ?comm, fun a b c => ?assoc, fun a b h => ?nan, fun a b ha hb => ?flags, fun a b ha hb => ?value,
    by decide, by decide, fun _ => anvilMaxMin_inf, topkMerge_perm, fun _ _ => topkMerge_sorted,
    fun k run inc hr hi => ⟨topkKeep_length k run inc, topkKeep_best k hr hi⟩⟩
  case comm =>
    rw [anvilMax_eq_pickBy, anvilMin_eq_pickBy]
    exact ⟨pickBy_comm orderKey_injective a b, pickBy_comm neg_orderKey_injective a b⟩
  case assoc =>
    rw [anvilMax_eq_pickBy, anvilMin_eq_pickBy]
    exact ⟨pickBy_assoc _ a b c, pickBy_assoc _ a b c⟩
  case nan =>
    rw [anvilMax_eq_pickBy, anvilMin_eq_pickBy]
    exact ⟨pickBy_of_nan h, pickBy_of_nan h⟩
  case flags =>
    rw [anvilMax_eq_pickBy, anvilMin_eq_pickBy]
    obtain ⟨hmaxF, hmax⟩ := pickBy_mem (key := orderKey) ha hb
    obtain ⟨hminF, hmin⟩ := pickBy_mem (key := fun x => -orderKey x) ha hb
    exact ⟨hmaxF, hminF, hmax, hmin⟩
  case value =>
    have ha := isNan_of_expOf_ne ha
    have hb := isNan_of_expOf_ne hb
    exact ⟨fixed_anvilMax ha hb, fixed_anvilMin ha hb⟩

end Sys2Proof.Machine
end

section
/-! SUPPORT. The window on the route banks (R221, R398): which register's rule each of its accesses comes to, what a write of an
entry does to the two banks, and that an entry written is read back. -/

namespace Sys2Proof.Machine

/-! ### Up -/

/-- An answer leaves the YMB open for the next access. -/
theorem State.up_answer {s : State} (h : s.up) (code : BitVec 2) (data : W32) : (s.answer code data).up := ⟨h.1, h.2.1, rfl⟩

/-- While no access waits, OKAY with no data changes the response alone. -/
theorem State.okay_of_up {s : State} (h : s.up) :
    s.okay = { s with ctl := { s.ctl with rspCode := rspOkay, rspData := 0 } } := by
  obtain ⟨-, -, hw⟩ := h
  rw [State.okay, State.answer, if_pos rfl, ← hw]

/-! ### The registers of the window (R384, R389) -/

/-- The window at an entry of a bank. -/
def State.atEntry (s : State) (standby : Bool) (i : BitVec 16) : State :=
  { s with route := { s.route with tblStandby := standby, tblIndex := i } }

theorem State.up_atEntry {s : State} (h : s.up) (standby : Bool) (i : BitVec 16) : (s.atEntry standby i).up := h

theorem State.rteTblIdx_reached {s : State} {v : W32} (h : s.up) :
    s.ymbWrite 0x180008 v = (s.atEntry (bit v 16) (field v 0 16)).okay := by
  rw [State.ymbWrite, State.ymbAt_up h (by decide) (by decide)]; rfl

theorem State.rteTblData_reached {s : State} {v : W32} (h : s.up) : s.ymbWrite 0x18000C v = s.routeWrite v := by
  rw [State.ymbWrite, State.ymbAt_up h (by decide) (by decide)]; rfl

theorem exec_routeTableWrite {s : State} {v : W32} (h : s.up) : exec (.routeTableWrite v) s = .next (s.routeWrite v) :=
  congrArg Host.Outcome.next (State.rteTblData_reached h)

theorem exec_write_rteTblIdx {s : State} {v : W32} (h : s.up) :
    exec (.registerWrite (.ymb 0x180008 v)) s = .next (s.atEntry (bit v 16) (field v 0 16)).okay :=
  congrArg Host.Outcome.next (State.rteTblIdx_reached h)

theorem exec_routeTableRead {s : State} (h : s.up) : exec .routeTableRead s = .next s.routeGet :=
  congrArg Host.Outcome.next (State.ymbAt_up (a := 0x18000C) h (by decide) (by decide))

/-! ### Entries -/

/-- A write while the window names the active bank, or while a swap is pending, is refused. -/
theorem State.routeWrite_denied {s : State} {v : W32} (h : s.route.tblStandby = false ∨ s.route.swap.isSome = true) :
    s.routeWrite v = s.denied := by
  rw [State.routeWrite, if_pos]
  rcases h with h | h <;> simp [h]

/-- A write that is taken: INDEX advances, the active bank stays, and the standby bank, whichever of the two it is, has the entry
at the old INDEX. -/
theorem State.routeWrite_taken {s : State} {v : W32} (hb : s.route.tblStandby = true) (hs : s.route.swap = none) :
    ∃ b0 b1, s.routeWrite v =
        { s with route := { s.route with bank0 := b0, bank1 := b1, tblIndex := s.route.tblIndex + 1 } }.okay ∧
      (s.routeWrite v).bank false = s.bank false ∧
      (s.routeWrite v).bank true = Tbl.set 0 (s.bank true) s.route.tblIndex.toNat (field v 0 16) := by
  have hgo : ¬(!s.route.tblStandby || s.route.swap.isSome) = true := by simp [hb, hs]
  rw [State.routeWrite, if_neg hgo]
  cases ha : s.route.activeBank with
  | false => exact ⟨s.route.bank0, _, rfl, by simp [State.bank, State.okay, State.answer, ha]⟩
  | true => exact ⟨_, s.route.bank1, rfl, by simp [State.bank, State.okay, State.answer, ha]⟩

/-- A write, taken or refused, leaves the YMB open. -/
theorem State.up_routeWrite {s : State} {v : W32} (h : s.up) : (s.routeWrite v).up := by
  by_cases hd : s.route.tblStandby = false ∨ s.route.swap.isSome = true
  case pos => rw [State.routeWrite_denied hd]; exact State.up_answer h _ _
  case neg =>
    obtain ⟨hb, hs⟩ : s.route.tblStandby = true ∧ s.route.swap = none := by simpa using hd
    obtain ⟨b0, b1, ht, -, -⟩ := State.routeWrite_taken (v := v) hb hs
    rw [ht]
    exact State.up_answer (s := { s with route := _ }) h _ _

/-- A read answers the entry that the window is at. -/
theorem State.routeGet_atEntry (s : State) (standby : Bool) (i : BitVec 16) :
    (s.atEntry standby i).okay.routeGet.ctl.rspCode = rspOkay ∧
      (s.atEntry standby i).okay.routeGet.ctl.rspData = (Tbl.get 0 (s.bank standby) i.toNat).setWidth 32 := ⟨rfl, rfl⟩

/-- Settles O4: of the two banks a taken write changes only the standby one, and a table answers at an index what was set there. -/
theorem routeWindow : Obligations.RouteWindow := by
  unfold Obligations.RouteWindow
  refine ⟨fun s v hu hd => ?denied, fun s v hu hb hs => ?taken, fun s hu => exec_routeTableRead hu,
    fun s t u w v a hu hb hs ha hi ht hw hr => ?readBack⟩
  case denied => rw [exec_routeTableWrite hu, State.routeWrite_denied hd]; rfl
  case taken =>
    obtain ⟨b0, b1, ht, hact, hstb⟩ := State.routeWrite_taken (v := v) hb hs
    refine ⟨s.routeWrite v, exec_routeTableWrite hu, hact, hstb, ?_⟩
    rw [ht]
    exact State.okay_of_up (s := { s with route := _ }) hu
  case readBack =>
    obtain ⟨-, -, -, -, hstb⟩ := State.routeWrite_taken (v := v) hb hs
    have huw := State.up_routeWrite (v := v) hu
    have hue : ((s.routeWrite v).atEntry true s.route.tblIndex).okay.up :=
      State.up_answer (State.up_atEntry huw true s.route.tblIndex) rspOkay 0
    obtain rfl := Host.Outcome.next.inj ((exec_routeTableWrite hu).symm.trans ht)
    obtain rfl := Host.Outcome.next.inj ((exec_write_rteTblIdx huw).symm.trans hw)
    rw [ha, hi] at hr
    obtain rfl := Host.Outcome.next.inj ((exec_routeTableRead hue).symm.trans hr)
    obtain ⟨hcode, hdata⟩ := (s.routeWrite v).routeGet_atEntry true s.route.tblIndex
    exact ⟨hcode, by rw [hdata, hstb, Tbl.get_set_same]⟩

end Sys2Proof.Machine
end

section
/-! SUPPORT. SEAL_BROKEN (R336): which value of it each operation of boot, of the resets, of the sequencers' microcode and of
BOOT_CTL leaves, and that of all commands only SEAL_BREAK and power-on change it. The bit is read as `ctrl.rest.1.sealBroken`, the
form in which the lemmas of Laws/Frame rewrite. -/

namespace Sys2Proof.Machine

/-! ### The microcode of the sequencers (R339, R341, R342) -/

@[simp] theorem State.switch_seal (s : State) : s.switch.ctrl.rest.1.sealBroken = s.ctrl.rest.1.sealBroken := by
  simp [State.switch, State.boot_ctrl]

@[simp] theorem State.seqFaulted_seal (s : State) : s.seqFaulted.ctrl.rest.1.sealBroken = s.ctrl.rest.1.sealBroken := by
  unfold State.seqFaulted
  dsimp only
  (repeat' split) <;> simp [State.boot_ctrl]

@[simp] theorem State.reloaded_seal (s : State) (hdr ucode : List Byte) :
    (s.reloaded hdr ucode).ctrl.rest.1.sealBroken = s.ctrl.rest.1.sealBroken := by
  unfold State.reloaded
  (repeat' split) <;> simp [State.boot_ctrl]

@[simp] theorem State.quiesce_seal (s : State) : s.quiesce.ctrl.rest.1.sealBroken = s.ctrl.rest.1.sealBroken := by
  unfold State.quiesce
  (repeat' split) <;> simp

@[simp] theorem State.holdExpires_seal (s : State) : s.holdExpires.ctrl.rest.1.sealBroken = s.ctrl.rest.1.sealBroken := by
  unfold State.holdExpires
  (repeat' split) <;> simp

/-! ### Boot (R332, R334) -/

@[simp] theorem State.applyImage_seal (s : State) (cs : List Comp) (bytes : List (List Byte)) :
    (s.applyImage cs bytes).ctrl.rest.1.sealBroken = s.ctrl.rest.1.sealBroken := by
  simp [State.applyImage, State.boot_ctrl]

@[simp] theorem State.slotFails_seal (s : State) (reason comp : BitVec 4) :
    (s.slotFails reason comp).ctrl.rest.1.sealBroken = s.ctrl.rest.1.sealBroken := by
  unfold State.slotFails
  dsimp only
  split <;> rfl

@[simp] theorem State.headerRead_seal (s : State) (b : List Byte) :
    (s.headerRead b).ctrl.rest.1.sealBroken = s.ctrl.rest.1.sealBroken := by
  unfold State.headerRead
  dsimp only
  (repeat' split) <;> simp [State.boot_ctrl]

@[simp] theorem State.bootHeader_seal (s : State) (d : Sfdp) (b : List Byte) :
    (s.bootHeader d b).ctrl.rest.1.sealBroken = s.ctrl.rest.1.sealBroken := by
  unfold State.bootHeader
  (repeat' split) <;> simp [State.discover, State.boot_ctrl]

/-- Components that pass their checks are applied, and step 4 is next. -/
theorem State.bootComponents_passed {s : State} {bytes : List (List Byte)} (h : whyComponents s.boot.comps bytes = none) :
    ∃ u, u = s.applyImage s.boot.comps bytes ∧
      s.bootComponents bytes = { u with boot := { u.boot with state := .apply, step := 4 } } :=
  ⟨_, rfl, by rw [State.bootComponents, h]⟩

@[simp] theorem State.bootComponents_seal (s : State) (bytes : List (List Byte)) :
    (s.bootComponents bytes).ctrl.rest.1.sealBroken = s.ctrl.rest.1.sealBroken := by
  cases h : whyComponents s.boot.comps bytes with
  | some r => rw [State.bootComponents, h, State.slotFails_seal]
  | none =>
    obtain ⟨u, hu, hpass⟩ := State.bootComponents_passed h
    rw [hpass, ← s.applyImage_seal s.boot.comps bytes, ← hu]
    rfl

@[simp] theorem State.bootAlign_seal (s : State) : s.bootAlign.ctrl.rest.1.sealBroken = s.ctrl.rest.1.sealBroken := by
  unfold State.bootAlign
  dsimp only
  rw [State.foldl_rest State.wake State.wake_rest, State.startFrames_rest]
  rfl

@[simp] theorem State.bootTrain_seal (s : State) : s.bootTrain.ctrl.rest.1.sealBroken = s.ctrl.rest.1.sealBroken := by
  unfold State.bootTrain
  dsimp only
  refine (State.foldl_keeps (·.ctrl.rest.1.sealBroken) _ (fun s p => ?_) _ _).trans rfl
  split <;> simp

@[simp] theorem State.bootStep_seal (s : State) (inp : BootInput) :
    (s.bootStep inp).ctrl.rest.1.sealBroken = s.ctrl.rest.1.sealBroken := by
  unfold State.bootStep
  (repeat' split) <;> simp [State.bootDone, State.boot_ctrl]

@[simp] theorem State.alignTimeout_seal (s : State) : s.alignTimeout.ctrl.rest.1.sealBroken = s.ctrl.rest.1.sealBroken := by
  unfold State.alignTimeout
  split <;> simp

@[simp] theorem State.bootCtlWrite_seal (s : State) (v : W32) :
    (s.bootCtlWrite v).ctrl.rest.1.sealBroken = s.ctrl.rest.1.sealBroken := by
  unfold State.bootCtlWrite
  (repeat' split) <;> rfl

@[simp] theorem State.regWrite_seal (s : State) (a : Nat) (v : W32) :
    (s.regWrite a v).ctrl.rest.1.sealBroken = s.ctrl.rest.1.sealBroken := by
  unfold State.regWrite
  (repeat' split) <;> simp

/-! ### The register ports -/

theorem State.ymbAt_seal (s : State) (a : Nat) (f : State → State)
    (hf : ∀ t, (f t).ctrl.rest.1.sealBroken = t.ctrl.rest.1.sealBroken) :
    (s.ymbAt a f).ctrl.rest.1.sealBroken = s.ctrl.rest.1.sealBroken := by
  obtain ⟨-, h⟩ | ⟨c, -, h⟩ | ⟨-, -, h⟩ := s.ymbAt_cases a f
  · rw [h]
  · rw [h, State.answer_rest]
  · rw [h, hf]

@[simp] theorem State.ymbWrite_seal (s : State) (a : Nat) (v : W32) :
    (s.ymbWrite a v).ctrl.rest.1.sealBroken = s.ctrl.rest.1.sealBroken :=
  s.ymbAt_seal a _ fun t => t.regWrite_seal a v

theorem State.pickAt_rest (s : State) (f : State → State) (hf : ∀ t, (f t).ctrl.rest = t.ctrl.rest) :
    (s.pickAt f).ctrl.rest = s.ctrl.rest := by
  obtain ⟨-, h⟩ | ⟨-, h⟩ := s.pickAt_cases f
  · rw [h]
  · rw [h, hf]

/-! ### Resets (R305, R351, R352, R379) -/

@[simp] theorem State.afterScrub_seal (s : State) : s.afterScrub.ctrl.rest.1.sealBroken = s.ctrl.rest.1.sealBroken := by
  unfold State.afterScrub
  split <;> rfl

@[simp] theorem State.porReleased_seal (s : State) (inst : BitVec 3) (mfr : BitVec 11) :
    (s.porReleased inst mfr).ctrl.rest.1.sealBroken = s.ctrl.rest.1.sealBroken := by
  unfold State.porReleased
  split <;> rfl

@[simp] theorem State.warmFalls_seal (s : State) : s.warmFalls.ctrl.rest.1.sealBroken = s.ctrl.rest.1.sealBroken := by
  unfold State.warmFalls
  dsimp only
  split <;> rfl

@[simp] theorem State.scanEdge_seal (s : State) (rising : Bool) :
    (s.scanEdge rising).ctrl.rest.1.sealBroken = s.ctrl.rest.1.sealBroken := by
  unfold State.scanEdge
  dsimp only
  split <;> rfl

@[simp] theorem State.zeroized_seal (s : State) : s.zeroized.ctrl.rest.1.sealBroken = s.ctrl.rest.1.sealBroken := by
  unfold State.zeroized
  dsimp only
  (repeat' split) <;> rfl

@[simp] theorem State.scrubbed_seal (s : State) : s.scrubbed.ctrl.rest.1.sealBroken = s.ctrl.rest.1.sealBroken := by
  unfold State.scrubbed
  split <;> simp [State.boot_ctrl]

/-! ### The seal loop (R336) -/

/-- A break sets SEAL_BROKEN, but while yx_por_n holds the block. -/
theorem State.sealBreaks_seal (s : State) : s.sealBreaks.boot.sealBroken = (!s.boot.porLow || s.boot.sealBroken) := by
  unfold State.sealBreaks
  cases h : s.boot.porLow <;> simp [State.boot_ctrl]


/-! ### The commands -/

@[simp] theorem State.receipt_rest (s : State) (p : PortId) (b : Billet) (kind : BitVec 4) (f : State → State)
    (hf : ∀ t, (f t).ctrl.rest = t.ctrl.rest) : (s.receipt p b kind f).ctrl.rest = s.ctrl.rest :=
  State.receipt_keeps (·.rest) s p b kind f hf

@[simp] theorem State.timeIn_rest (s : State) (p : PortId) (b : Billet) (sub : Nat) (f : State → State)
    (hf : ∀ t, (f t).ctrl.rest = t.ctrl.rest) : (s.timeIn p b sub f).ctrl.rest = s.ctrl.rest := by
  unfold State.timeIn
  split
  · exact State.receipt_rest s p b kTime f hf
  · rfl

/-- Every command but a power-on and a break of the seal loop comes to a next state with the same SEAL_BROKEN: its operation leaves
boot's state alone (Laws/Frame), or is one of those above. -/
theorem exec_sealBroken (c : Instr) (s : State) (hp : c ≠ .powerOnReset) (hb : c ≠ .sealBreak) :
    ∃ t, exec c s = .next t ∧ t.boot.sealBroken = s.boot.sealBroken := by
  cases c
  case powerOnReset => exact absurd rfl hp
  case sealBreak => exact absurd rfl hb
  -- reads that act, through the YMB
  case routeTableRead | keyTableRead | flagDataRead | quenchDataRead | mboxDataRead | epochRead | profileRead | nvmDataRead =>
    exact ⟨_, rfl, s.ymbAt_seal _ _ fun t => by simp⟩
  -- accesses of the pick port, and writes of either port
  case pickPortRead addr be rid =>
    exact ⟨_, rfl, congrArg (·.1.sealBroken) (s.pickAt_rest _ fun t => t.pickRead_rest addr be rid)⟩
  case registerWrite w =>
    cases w with
    | ymb a v => exact ⟨_, rfl, s.ymbWrite_seal a.toNat v⟩
    | pick a be rid d => exact ⟨_, rfl, congrArg (·.1.sealBroken) (s.pickAt_rest _ fun t => by simp)⟩
  -- rows that act under a condition of their own: the branch that acts, and the one that changes nothing
  case stagingPairGrant | extest | sramBist =>
    refine ⟨_, rfl, ?_⟩
    dsimp only
    (repeat' split) <;> simp [State.boot_ctrl]
  case ready | readyReply | barrierArrive | barrierRelease | circuitSetup | circuitConfirm | circuitRefuse | circuitRelease |
      circuitForward | billetIngress | trainingWord | laneSignalChange | fdiStateChange | weldInBeat | xlateReply |
      forcedSwapQuietEnd | arrive | arm | epochPulse | sensorSample | islandGate | alignFrameCheck | islandFault |
      warmResetRelease | seqFault | laneOccupancyWake =>
    refine ⟨_, rfl, ?_⟩
    (repeat' split) <;> simp [State.boot_ctrl]
  -- every other row is a composition of operations that have their lemma
  all_goals exact ⟨_, rfl, by simp [State.boot_ctrl]⟩

/-- Settles O9: a break of the loop sets the bit, every other command but a power-on keeps it (`exec_sealBroken`), and with it set a
write of REQUEST to a CLOSED session is refused whole. -/
theorem sealLatch : Obligations.SealLatch := by
  unfold Obligations.SealLatch
  refine ⟨fun s hl => ⟨_, rfl, ?breaks⟩, fun s t c ht hs hp => ?stays, fun s v ho hs hc hr => ?refused⟩
  case breaks => simp [State.sealBreaks_seal, hl]
  case stays =>
    by_cases hb : c = .sealBreak
    case pos =>
      subst hb
      obtain rfl := Host.Outcome.next.inj ht
      simp [State.sealBreaks_seal, hs]
    case neg =>
      obtain ⟨u, hu, hk⟩ := exec_sealBroken c s hp hb
      obtain rfl := Host.Outcome.next.inj (hu.symm.trans ht)
      exact hk.trans hs
  case refused =>
    have hno : (bit v 0 && s.requestRefused || bit v 2 && s.unlockRefused) = true := by
      simp [State.requestRefused, hs, hc, hr]
    refine congrArg Host.Outcome.next ((State.provCtl_reached ho).trans ?_)
    rw [State.provCtlWrite, if_pos hno]
    rfl

end Sys2Proof.Machine
end

section
/-! SUPPORT. What is written once (R392, R393): CTL_POLICY with its LOCK, and CTL_PLATFORM_TAG. First that each operation which writes
Control leaves both registers as they are, in the form in which the lemmas of Laws/Frame rewrite; then what a write of either does,
that every command but a reset's keeps what is locked or written, and what a reset leaves. -/

namespace Sys2Proof.Machine

/-- What a reset alone re-arms in Control: LOCK with the permits (R392), and CTL_PLATFORM_TAG with whether it has been written (R393). -/
def CtlSt.once (c : CtlSt) : Bool × BitVec 4 × Bool × W32 := (c.lock, c.permits, c.tagWritten, c.tag)

@[simp] theorem CtlSt.once_eta (c : CtlSt) : (c.lock, c.permits, c.tagWritten, c.tag) = c.once := rfl

@[simp] theorem CtlSt.once_mk (si : BitVec 3) (sm : BitVec 11) (im : BitVec 4) (l : Bool) (p : BitVec 4) (t : W32) (w : Bool)
    (vc : BitVec 16) (vv : Bool) (va : BitVec 24) (bp cp : W64) (bh ch : W32) (pv : Bool) (pc : BitVec 16) (ib id : Bool)
    (ic inow : BitVec 6) (io : Nat) (is : Bool) (im' : List (BitVec 6 × Nat)) (nv : Bool) (nd : BitVec 16) (rc : BitVec 2) (rd : W32)
    (yw : Option YmbWait) (pd : W64) :
    CtlSt.once ⟨si, sm, im, l, p, t, w, vc, vv, va, bp, cp, bh, ch, pv, pc, ib, id, ic, inow, io, is, im', nv, nd, rc, rd, yw, pd⟩ =
      (l, p, w, t) := rfl

theorem CtlSt.once_profiles (c : CtlSt) (b k : W64) (p : Bool) :
    ({ c with bitProfile := b, clockProfile := k, profValid := p } : CtlSt).once = c.once := rfl

theorem CtlSt.once_pickData (c : CtlSt) (d : W64) : ({ c with pickData := d } : CtlSt).once = c.once := rfl

/-- A choice between two states that keep them keeps them. -/
theorem State.ite_once {c : Prop} [Decidable c] {a b s : State} (ha : a.ctrl.ctl.once = s.ctrl.ctl.once)
    (hb : b.ctrl.ctl.once = s.ctrl.ctl.once) : (if c then a else b).ctrl.ctl.once = s.ctrl.ctl.once := by
  split <;> assumption

/-! ### Answers -/

@[simp] theorem State.answer_once (s : State) (code : BitVec 2) (data : W32) : (s.answer code data).ctrl.ctl.once = s.ctrl.ctl.once := rfl
@[simp] theorem State.okay_once (s : State) : s.okay.ctrl.ctl.once = s.ctrl.ctl.once := rfl
@[simp] theorem State.denied_once (s : State) : s.denied.ctrl.ctl.once = s.ctrl.ctl.once := rfl
@[simp] theorem State.error_once (s : State) : s.error.ctrl.ctl.once = s.ctrl.ctl.once := rfl
@[simp] theorem State.violation_once (s : State) (a : Nat) : (s.violation a).ctrl.ctl.once = s.ctrl.ctl.once := rfl

/-! ### Profiles, ports, islands -/

@[simp] theorem State.reclock_once (s : State) : s.reclock.ctrl.ctl.once = s.ctrl.ctl.once := by
  unfold State.reclock
  dsimp only
  split <;> simp [State.ctl_ctrl]

@[simp] theorem State.switch_once (s : State) : s.switch.ctrl.ctl.once = s.ctrl.ctl.once := by
  simp [State.switch, State.ctl_ctrl]

@[simp] theorem State.portOn_once (s : State) (p : Nat) (v : W32) : (s.portOn p v).ctrl.ctl.once = s.ctrl.ctl.once := by
  unfold State.portOn
  dsimp only
  (repeat' split) <;> simp [State.ctl_ctrl]

@[simp] theorem State.lnkCtl_once (s : State) (p : Nat) (v : W32) : (s.lnkCtl p v).ctrl.ctl.once = s.ctrl.ctl.once := by
  unfold State.lnkCtl
  dsimp only
  (repeat' split) <;> simp

@[simp] theorem State.beginIsland_once (s : State) (i : Island) : (s.beginIsland i).ctrl.ctl.once = s.ctrl.ctl.once := by
  simp [State.beginIsland, State.ctl_ctrl]

@[simp] theorem State.islandWrite_once (s : State) (v : W32) : (s.islandWrite v).ctrl.ctl.once = s.ctrl.ctl.once := by
  unfold State.islandWrite
  dsimp only
  (repeat' split) <;> simp [State.ctl_ctrl]

@[simp] theorem State.startIsland_once (s : State) : s.startIsland.ctrl.ctl.once = s.ctrl.ctl.once := by
  unfold State.startIsland
  dsimp only
  (repeat' split) <;> simp [State.ctl_ctrl]

@[simp] theorem State.faultReset_once (s : State) (i : Island) : (s.faultReset i).ctrl.ctl.once = s.ctrl.ctl.once := by
  unfold State.faultReset
  dsimp only
  (repeat' split) <;> simp [State.ctl_ctrl]

@[simp] theorem State.islandDone_once (s : State) : s.islandDone.ctrl.ctl.once = s.ctrl.ctl.once := by
  unfold State.islandDone
  dsimp only
  split <;> simp [State.ctl_ctrl]

@[simp] theorem State.islandFaults_once (s : State) (i : Island) (unit : Nat) (touched : List Nat) :
    (s.islandFaults i unit touched).ctrl.ctl.once = s.ctrl.ctl.once := by
  unfold State.islandFaults
  dsimp only
  split <;> simp [State.ctl_ctrl]

@[simp] theorem State.alignedNow_once (s : State) (i : Island) : (s.alignedNow i).ctrl.ctl.once = s.ctrl.ctl.once := by
  unfold State.alignedNow
  dsimp only
  refine (State.foldl_keeps (·.ctrl.ctl.once) _ (fun s p => by simp) _ _).trans ?_
  refine (State.foldl_keeps (·.ctrl.ctl.once) _ (fun s p => by simp) _ _).trans ?_
  split <;> simp [State.ctl_ctrl]

@[simp] theorem State.alignCheck_once (s : State) (i : Island) (ok : Bool) : (s.alignCheck i ok).ctrl.ctl.once = s.ctrl.ctl.once := by
  unfold State.alignCheck
  dsimp only
  (repeat' split) <;> simp [State.ctl_ctrl]

/-! ### The sequencers (R339, R341, R342) -/

@[simp] theorem State.resetsGo_once (s : State) : s.resetsGo.ctrl.ctl.once = s.ctrl.ctl.once := by
  unfold State.resetsGo
  dsimp only
  refine (State.foldl_keeps (·.ctrl.ctl.once) _ (fun s p => by simp) _ _).trans ?_
  refine State.foldl_keeps (·.ctrl.ctl.once) _ (fun s c => ?_) _ _
  (repeat' split) <;> simp

@[simp] theorem State.seqFaulted_once (s : State) : s.seqFaulted.ctrl.ctl.once = s.ctrl.ctl.once := by
  unfold State.seqFaulted
  dsimp only
  (repeat' split) <;> simp [State.ctl_ctrl]

@[simp] theorem State.reloaded_once (s : State) (hdr ucode : List Byte) :
    (s.reloaded hdr ucode).ctrl.ctl.once = s.ctrl.ctl.once := by
  unfold State.reloaded
  (repeat' split) <;> simp [State.ctl_ctrl]

@[simp] theorem State.quiesce_once (s : State) : s.quiesce.ctrl.ctl.once = s.ctrl.ctl.once := by
  unfold State.quiesce
  (repeat' split) <;> simp

@[simp] theorem State.holdExpires_once (s : State) : s.holdExpires.ctrl.ctl.once = s.ctrl.ctl.once := by
  unfold State.holdExpires
  (repeat' split) <;> simp

/-! ### Trace (R226, R282, R283) -/

@[simp] theorem State.traceGo_once (s : State) : s.traceGo.ctrl.ctl.once = s.ctrl.ctl.once := by
  unfold State.traceGo
  dsimp only
  (repeat' split) <;> simp [State.ctl_ctrl]

@[simp] theorem State.traceNext_once (s : State) : s.traceNext.ctrl.ctl.once = s.ctrl.ctl.once := by
  unfold State.traceNext
  dsimp only
  (repeat' split) <;> simp

@[simp] theorem State.traceTranslate_once (s : State) (v : W32) : (s.traceTranslate v).ctrl.ctl.once = s.ctrl.ctl.once := by
  simp [State.traceTranslate, State.ctl_ctrl]

@[simp] theorem State.recCtlWrite_once (s : State) (v : W32) : (s.recCtlWrite v).ctrl.ctl.once = s.ctrl.ctl.once := by
  unfold State.recCtlWrite
  dsimp only
  (repeat' split) <;> simp [State.ctl_ctrl]

@[simp] theorem State.teleDestPut_once (s : State) (v : W32) : (s.teleDestPut v).ctrl.ctl.once = s.ctrl.ctl.once := by
  unfold State.teleDestPut
  dsimp only
  split <;> simp [State.ctl_ctrl]

@[simp] theorem State.teleApply_once (s : State) (v : W32) : (s.teleApply v).ctrl.ctl.once = s.ctrl.ctl.once := by
  unfold State.teleApply
  dsimp only
  split <;> simp [State.ctl_ctrl]

@[simp] theorem State.teleCtlWrite_once (s : State) (v : W32) : (s.teleCtlWrite v).ctrl.ctl.once = s.ctrl.ctl.once := by
  unfold State.teleCtlWrite
  (repeat' split) <;> simp [State.ctl_ctrl]

@[simp] theorem State.traceAligned_once (s : State) : s.traceAligned.ctrl.ctl.once = s.ctrl.ctl.once := by
  unfold State.traceAligned
  dsimp only
  (repeat' split) <;> simp

@[simp] theorem State.traceRefused_once (s : State) : s.traceRefused.ctrl.ctl.once = s.ctrl.ctl.once := rfl

@[simp] theorem State.traceXl_once (s : State) (n : Nat) (replay : Bool) (e : Option XEnt) :
    (s.traceXl n replay e).ctrl.ctl.once = s.ctrl.ctl.once := by
  unfold State.traceXl
  (repeat' split) <;> simp [State.ctl_ctrl]

@[simp] theorem State.xlateAnswer_once (s : State) (id : Nat) (ok : Bool) (size : BitVec 2) (paddr : BitVec 40) :
    (s.xlateAnswer id ok size paddr).ctrl.ctl.once = s.ctrl.ctl.once :=
  State.xlateAnswer_keeps (·.ctl.once) (fun s n r e => s.traceXl_once n r e)
    (fun s id c st x e => congrArg CtlSt.once (s.streamXlate_ctl id c st x e)) s id ok size paddr

/-! ### Boot (R332, R334) -/

@[simp] theorem State.applyImage_once (s : State) (cs : List Comp) (bytes : List (List Byte)) :
    (s.applyImage cs bytes).ctrl.ctl.once = s.ctrl.ctl.once := by
  unfold State.applyImage
  dsimp only
  refine (CtlSt.once_profiles _ _ _ _).trans ?_
  rw [State.ctl_ctrl, State.applyPorts_ctrl, State.ctrl_mk]
  rfl

@[simp] theorem State.unapply_once (s : State) : s.unapply.ctrl.ctl.once = s.ctrl.ctl.once := rfl

@[simp] theorem State.slotFails_once (s : State) (reason comp : BitVec 4) :
    (s.slotFails reason comp).ctrl.ctl.once = s.ctrl.ctl.once := by
  unfold State.slotFails
  dsimp only
  split <;> rfl

@[simp] theorem State.headerRead_once (s : State) (b : List Byte) : (s.headerRead b).ctrl.ctl.once = s.ctrl.ctl.once := by
  unfold State.headerRead
  dsimp only
  (repeat' split) <;> simp [State.ctl_ctrl]

@[simp] theorem State.bootHeader_once (s : State) (d : Sfdp) (b : List Byte) :
    (s.bootHeader d b).ctrl.ctl.once = s.ctrl.ctl.once := by
  unfold State.bootHeader
  (repeat' split) <;> simp [State.ctl_ctrl]

@[simp] theorem State.bootComponents_once (s : State) (bytes : List (List Byte)) :
    (s.bootComponents bytes).ctrl.ctl.once = s.ctrl.ctl.once :=
  State.bootComponents_keeps (·.ctl.once) (fun s r c => s.slotFails_once r c) (fun s cs bs => s.applyImage_once cs bs) (fun _ _ => rfl)
    s bytes

@[simp] theorem State.bootStep_once (s : State) (inp : BootInput) : (s.bootStep inp).ctrl.ctl.once = s.ctrl.ctl.once := by
  unfold State.bootStep
  (repeat' split) <;> simp [State.ctl_ctrl]

@[simp] theorem State.alignTimeout_once (s : State) : s.alignTimeout.ctrl.ctl.once = s.ctrl.ctl.once := by
  unfold State.alignTimeout
  split <;> simp

@[simp] theorem State.bootCtlWrite_once (s : State) (v : W32) : (s.bootCtlWrite v).ctrl.ctl.once = s.ctrl.ctl.once := by
  unfold State.bootCtlWrite
  (repeat' split) <;> rfl

@[simp] theorem State.porReleased_once (s : State) (inst : BitVec 3) (mfr : BitVec 11) :
    (s.porReleased inst mfr).ctrl.ctl.once = s.ctrl.ctl.once := by
  unfold State.porReleased
  split <;> rfl

/-! ### Reads of the register ports -/

@[simp] theorem State.routeGet_once (s : State) : s.routeGet.ctrl.ctl.once = s.ctrl.ctl.once := rfl

@[simp] theorem State.keyGet_once (s : State) : s.keyGet.ctrl.ctl.once = s.ctrl.ctl.once := by
  unfold State.keyGet
  split <;> rfl

@[simp] theorem State.flagAnswer_once (s : State) : s.flagAnswer.ctrl.ctl.once = s.ctrl.ctl.once := rfl

@[simp] theorem State.flagGet_once (s : State) : s.flagGet.ctrl.ctl.once = s.ctrl.ctl.once := by
  unfold State.flagGet
  dsimp only
  (repeat' split) <;> simp [State.ctl_ctrl]

@[simp] theorem State.ymbGoes_once (s : State) : s.ymbGoes.ctrl.ctl.once = s.ctrl.ctl.once := by
  unfold State.ymbGoes
  (repeat' split) <;> simp

@[simp] theorem State.quenchGet_once (s : State) : s.quenchGet.ctrl.ctl.once = s.ctrl.ctl.once := by
  unfold State.quenchGet
  dsimp only
  split <;> rfl

@[simp] theorem State.mboxGet_once (s : State) : s.mboxGet.ctrl.ctl.once = s.ctrl.ctl.once := by
  unfold State.mboxGet
  split <;> rfl

@[simp] theorem State.epochGet_once (s : State) : s.epochGet.ctrl.ctl.once = s.ctrl.ctl.once := rfl

@[simp] theorem State.profileGet_once (s : State) (clock : Bool) : (s.profileGet clock).ctrl.ctl.once = s.ctrl.ctl.once := by
  unfold State.profileGet
  split <;> rfl

@[simp] theorem State.nvmDataGet_once (s : State) (devWord : W32) : (s.nvmDataGet devWord).ctrl.ctl.once = s.ctrl.ctl.once := by
  unfold State.nvmDataGet
  (repeat' split) <;> rfl

@[simp] theorem State.pickRead_once (s : State) (addr : BitVec 17) (be : Byte) (rid : BitVec 16) :
    (s.pickRead addr be rid).ctrl.ctl.once = s.ctrl.ctl.once := by
  unfold State.pickRead
  extract_lets a
  split
  · extract_lets u
    have hu : u.ctl = s.ctl := rfl
    exact (CtlSt.once_pickData u.ctl 0).trans (congrArg CtlSt.once hu)
  · exact CtlSt.once_pickData s.ctl _

/-! ### Writes of the YMB (R389) -/

@[simp] theorem State.timeCtlWrite_once (s : State) (v : W32) : (s.timeCtlWrite v).ctrl.ctl.once = s.ctrl.ctl.once := by
  unfold State.timeCtlWrite
  dsimp only
  split <;> rfl

@[simp] theorem State.gateCtlWrite_once (s : State) (v : W32) : (s.gateCtlWrite v).ctrl.ctl.once = s.ctrl.ctl.once := by
  unfold State.gateCtlWrite
  split <;> simp [State.ctl_ctrl]

@[simp] theorem State.thermCtlWrite_once (s : State) (v : W32) : (s.thermCtlWrite v).ctrl.ctl.once = s.ctrl.ctl.once := by
  unfold State.thermCtlWrite
  split <;> simp [State.ctl_ctrl]

@[simp] theorem State.wdog_once (s : State) (v : W32) : (s.wdog v).ctrl.ctl.once = s.ctrl.ctl.once := by
  unfold State.wdog
  dsimp only
  split <;> rfl

@[simp] theorem State.pauseCapWrite_once (s : State) (v : W32) : (s.pauseCapWrite v).ctrl.ctl.once = s.ctrl.ctl.once := by
  unfold State.pauseCapWrite
  dsimp only
  split <;> rfl

@[simp] theorem State.abort_once (s : State) (v : W32) : (s.abort v).ctrl.ctl.once = s.ctrl.ctl.once := by
  unfold State.abort
  dsimp only
  split <;> simp

@[simp] theorem State.diagCtl_once (s : State) (v : W32) : (s.diagCtl v).ctrl.ctl.once = s.ctrl.ctl.once := by
  unfold State.diagCtl
  split <;> rfl

@[simp] theorem State.creditWrite_once (s : State) (p : Nat) (v : W32) : (s.creditWrite p v).ctrl.ctl.once = s.ctrl.ctl.once := by
  unfold State.creditWrite
  dsimp only
  split <;> simp

@[simp] theorem State.portWrite_once (s : State) (p o : Nat) (v : W32) : (s.portWrite p o v).ctrl.ctl.once = s.ctrl.ctl.once := by
  unfold State.portWrite
  (repeat' split) <;> simp

@[simp] theorem State.routeWrite_once (s : State) (v : W32) : (s.routeWrite v).ctrl.ctl.once = s.ctrl.ctl.once := by
  unfold State.routeWrite
  (repeat' split) <;> rfl

@[simp] theorem State.provCtlWrite_once (s : State) (v : W32) : (s.provCtlWrite v).ctrl.ctl.once = s.ctrl.ctl.once := by
  unfold State.provCtlWrite
  dsimp only
  (repeat' split) <;> simp [State.ctl_ctrl]

@[simp] theorem State.nvmAddrWrite_once (s : State) (v : W32) : (s.nvmAddrWrite v).ctrl.ctl.once = s.ctrl.ctl.once := by
  unfold State.nvmAddrWrite
  split <;> rfl

@[simp] theorem State.nvmDataPut_once (s : State) (v : W32) : (s.nvmDataPut v).ctrl.ctl.once = s.ctrl.ctl.once := by
  unfold State.nvmDataPut
  (repeat' split) <;> rfl

@[simp] theorem State.nvmCmdWrite_once (s : State) (v : W32) : (s.nvmCmdWrite v).ctrl.ctl.once = s.ctrl.ctl.once := by
  unfold State.nvmCmdWrite
  dsimp only
  (repeat' split) <;> rfl

theorem State.regWriteLow_once (s : State) {a : Nat} (v : W32) (h : a ≠ 0xC4) :
    (s.regWriteLow a v).ctrl.ctl.once = s.ctrl.ctl.once := by
  unfold State.regWriteLow
  simp only [if_neg h]
  (repeat' with_reducible refine State.ite_once ?_ ?_) <;> simp [State.ctl_ctrl]

@[simp] theorem State.regWriteHigh_once (s : State) (a : Nat) (v : W32) : (s.regWriteHigh a v).ctrl.ctl.once = s.ctrl.ctl.once := by
  unfold State.regWriteHigh
  (repeat' with_reducible refine State.ite_once ?_ ?_) <;> simp [State.ctl_ctrl]

/-- Of the registers of the map, only CTL_POLICY and CTL_PLATFORM_TAG write what is written once. -/
theorem State.regWrite_once (s : State) {a : Nat} (v : W32) (hp : a ≠ 0xC0) (ht : a ≠ 0xC4) :
    (s.regWrite a v).ctrl.ctl.once = s.ctrl.ctl.once := by
  unfold State.regWrite
  simp only [if_neg hp]
  (repeat' split) <;> simp [State.regWriteLow_once, ht]

/-! ### What is written once stays (R392, R393) -/

/-- Since `c`, a LOCK that was set and a tag that was written have stayed: `d` has them with the same permits and value. -/
def CtlSt.keepsOnce (d c : CtlSt) : Prop :=
  (c.lock = true → d.lock = true ∧ d.permits = c.permits) ∧ (c.tagWritten = true → d.tagWritten = true ∧ d.tag = c.tag)

theorem CtlSt.keepsOnce_of_once {d c : CtlSt} (h : d.once = c.once) : d.keepsOnce c := by
  obtain ⟨hl, hp, hw, ht⟩ : d.lock = c.lock ∧ d.permits = c.permits ∧ d.tagWritten = c.tagWritten ∧ d.tag = c.tag := by
    simpa only [CtlSt.once, Prod.mk.injEq] using h
  exact ⟨fun h => ⟨hl.trans h, hp⟩, fun h => ⟨hw.trans h, ht⟩⟩

/-- With LOCK set, every write of CTL_POLICY is a violation. -/
theorem State.policyWrite_locked {s : State} (h : s.ctl.lock = true) (v : W32) : s.policyWrite v = s.violation 0xC0 := by
  simp [State.policyWrite, State.policy, h]

/-- A write of an unlocked CTL_POLICY, but for the session that it may close. -/
theorem State.policy_unlocked {s : State} (h : s.ctl.lock = false) (v : W32) : (s.policy v).ctl =
    { s.ctl with permits := field v 0 4, lock := bit v 31, rspCode := rspOkay, rspData := 0, ymbWait := none } := by
  rw [State.policy, if_neg (by simp [h])]
  dsimp only
  split <;> rfl

/-- With LOCK clear, a write of CTL_POLICY writes the permits and LOCK, and nothing else in Control but the response. -/
theorem State.policyWrite_unlocked {s : State} (h : s.ctl.lock = false) (v : W32) : (s.policyWrite v).ctl =
    { s.ctl with permits := field v 0 4, lock := bit v 31, rspCode := rspOkay, rspData := 0, ymbWait := none } := by
  unfold State.policyWrite
  dsimp only
  split
  · have hc : (s.closeSession 1).ctl = s.ctl := s.closeSession_ctl 1
    rw [State.policy_unlocked (by rw [hc, h]), hc]
  · exact State.policy_unlocked h v

/-- Once CTL_PLATFORM_TAG has been written, every write of it is a violation. -/
theorem State.platformTag_written {s : State} (h : s.ctl.tagWritten = true) (v : W32) : s.platformTag v = s.violation 0xC4 :=
  if_pos h

/-- The first write of CTL_PLATFORM_TAG stores its value. -/
theorem State.platformTag_unwritten {s : State} (h : s.ctl.tagWritten = false) (v : W32) :
    s.platformTag v = ({ s with ctl := { s.ctl with tag := v, tagWritten := true } } : State).okay :=
  if_neg (by simp [h])

theorem State.policyWrite_keepsOnce (s : State) (v : W32) : (s.policyWrite v).ctl.keepsOnce s.ctl := by
  cases h : s.ctl.lock with
  | true => rw [State.policyWrite_locked h]; exact CtlSt.keepsOnce_of_once (s.violation_once 0xC0)
  | false =>
    rw [State.policyWrite_unlocked h]
    exact ⟨fun hl => absurd (h.symm.trans hl) Bool.false_ne_true, fun ht => ⟨ht, rfl⟩⟩

theorem State.platformTag_keepsOnce (s : State) (v : W32) : (s.platformTag v).ctl.keepsOnce s.ctl := by
  cases h : s.ctl.tagWritten with
  | true => rw [State.platformTag_written h]; exact CtlSt.keepsOnce_of_once (s.violation_once 0xC4)
  | false =>
    rw [State.platformTag_unwritten h]
    exact ⟨fun hl => ⟨hl, rfl⟩, fun ht => absurd (h.symm.trans ht) Bool.false_ne_true⟩

theorem State.regWrite_keepsOnce (s : State) (a : Nat) (v : W32) : (s.regWrite a v).ctl.keepsOnce s.ctl := by
  by_cases hp : a = 0xC0
  · subst hp; exact s.policyWrite_keepsOnce v
  by_cases ht : a = 0xC4
  · subst ht; exact s.platformTag_keepsOnce v
  · exact CtlSt.keepsOnce_of_once (s.regWrite_once v hp ht)

/-! ### The register ports -/

theorem State.ymbAt_once (s : State) (a : Nat) (f : State → State) (hf : ∀ t, (f t).ctrl.ctl.once = t.ctrl.ctl.once) :
    (s.ymbAt a f).ctrl.ctl.once = s.ctrl.ctl.once := by
  obtain ⟨-, h⟩ | ⟨c, -, h⟩ | ⟨-, -, h⟩ := s.ymbAt_cases a f
  · rw [h]
  · rw [h, State.answer_once]
  · rw [h, hf]

theorem State.ymbWrite_keepsOnce (s : State) (a : Nat) (v : W32) : (s.ymbWrite a v).ctl.keepsOnce s.ctl := by
  obtain ⟨-, h⟩ | ⟨c, -, h⟩ | ⟨-, -, h⟩ := s.ymbAt_cases a fun s => s.regWrite a v
  · rw [State.ymbWrite, h]; exact CtlSt.keepsOnce_of_once rfl
  · rw [State.ymbWrite, h]; exact CtlSt.keepsOnce_of_once (s.answer_once c 0)
  · rw [State.ymbWrite, h]; exact s.regWrite_keepsOnce a v

theorem State.pickAt_once (s : State) (f : State → State) (hf : ∀ t, (f t).ctrl.ctl.once = t.ctrl.ctl.once) :
    (s.pickAt f).ctrl.ctl.once = s.ctrl.ctl.once := by
  obtain ⟨-, h⟩ | ⟨-, h⟩ := s.pickAt_cases f
  · rw [h]
  · rw [h, hf]

/-! ### The commands -/

@[simp] theorem State.receipt_ctl (s : State) (p : PortId) (b : Billet) (kind : BitVec 4) (f : State → State)
    (hf : ∀ t, (f t).ctrl.ctl = t.ctrl.ctl) : (s.receipt p b kind f).ctrl.ctl = s.ctrl.ctl :=
  State.receipt_keeps (·.ctl) s p b kind f hf

@[simp] theorem State.timeIn_ctl (s : State) (p : PortId) (b : Billet) (sub : Nat) (f : State → State)
    (hf : ∀ t, (f t).ctrl.ctl = t.ctrl.ctl) : (s.timeIn p b sub f).ctrl.ctl = s.ctrl.ctl := by
  unfold State.timeIn
  split
  · exact State.receipt_ctl s p b kTime f hf
  · rfl

/-- Every command but a reset's comes to a next state that keeps what has been written once: it writes the YMB, where the two registers
refuse it, or leaves both registers as they are. -/
theorem exec_keepsOnce (c : Instr) (s : State) (hr : c.resets = false) :
    ∃ t, exec c s = .next t ∧ t.ctl.keepsOnce s.ctl := by
  cases c
  case powerOnReset | warmReset | warmResetRelease | zeroize | zeroizeScrubDone | testScanEnEdge => simp [Instr.resets] at hr
  -- reads that act, through the YMB
  case routeTableRead | keyTableRead | flagDataRead | quenchDataRead | mboxDataRead | epochRead | profileRead | nvmDataRead =>
    exact ⟨_, rfl, CtlSt.keepsOnce_of_once (s.ymbAt_once _ _ fun t => by simp)⟩
  -- writes of the YMB
  case linkEnable p v | linkDisable p v | linkProbe p v | linkRestore p v | creditAllotWrite p v =>
    exact ⟨_, rfl, s.ymbWrite_keepsOnce _ v⟩
  case routeTableWrite v | islandReset v | tngAbort v | diagEnable v | diagClear v | policyWrite v | platformTagWrite v | wdogWrite v |
      recordEnable v | recordDisable v | replayStart v | telemetryEnable v | provRequest v | provClose v | tapUnlock v |
      nvmErase v | nvmProgram v | nvmDataWrite v | bootRetry v => exact ⟨_, rfl, s.ymbWrite_keepsOnce _ v⟩
  case registerWrite w =>
    cases w with
    | ymb a v => exact ⟨_, rfl, s.ymbWrite_keepsOnce a.toNat v⟩
    | pick a be rid d => exact ⟨_, rfl, CtlSt.keepsOnce_of_once (s.pickAt_once _ fun t => by simp)⟩
  case pickPortRead addr be rid => exact ⟨_, rfl, CtlSt.keepsOnce_of_once (s.pickAt_once _ fun t => t.pickRead_once addr be rid)⟩
  -- rows that act under a condition of their own: the branch that acts, and the one that changes nothing
  case stagingPairGrant | extest | sramBist =>
    refine ⟨_, rfl, CtlSt.keepsOnce_of_once ?_⟩
    dsimp only
    (repeat' split) <;> simp [State.ctl_ctrl]
  case ready | readyReply | barrierArrive | barrierRelease | circuitSetup | circuitConfirm | circuitRefuse | circuitRelease |
      circuitForward | billetIngress | trainingWord | laneSignalChange | fdiStateChange | weldInBeat | xlateReply |
      forcedSwapQuietEnd | arrive | arm | epochPulse | sensorSample | islandGate | alignFrameCheck | islandFault |
      seqFault | laneOccupancyWake =>
    refine ⟨_, rfl, CtlSt.keepsOnce_of_once ?_⟩
    (repeat' split) <;> simp [State.ctl_ctrl]
  -- every other row is a composition of operations that have their lemma
  all_goals exact ⟨_, rfl, CtlSt.keepsOnce_of_once (by simp [State.ctl_ctrl])⟩

/-! ### Resets (R351, R352) -/

theorem exec_powerOnReset_once (s : State) : ∃ t, exec .powerOnReset s = .next t ∧ t.ctl.once = CtlSt.reset.once := ⟨_, rfl, rfl⟩

/-- The reset that follows the scrub leaves LOCK, the permits and the tag at power-on. -/
theorem State.afterScrub_once {s : State} (hi : s.inReset = false) (hs : s.boot.scrub = false) :
    s.afterScrub.ctl.once = CtlSt.reset.once := by
  rw [State.afterScrub, if_neg (by simp [hi, hs])]
  rfl

theorem exec_zeroizeScrubDone_once {s : State} (hs : s.boot.scrub = true) (hi : s.inReset = false) :
    ∃ t, exec .zeroizeScrubDone s = .next t ∧ t.ctl.once = CtlSt.reset.once := by
  refine ⟨s.scrubbed, rfl, ?_⟩
  rw [State.scrubbed, if_pos hs]
  exact State.afterScrub_once hi rfl

theorem exec_warmResetRelease_once {s : State} (hw : s.boot.warmLow = true) (hp : s.boot.porLow = false) (hc : s.boot.scan = false)
    (hs : s.boot.scrub = false) : ∃ t, exec .warmResetRelease s = .next t ∧ t.ctl.once = CtlSt.reset.once := by
  refine ⟨_, rfl, ?_⟩
  rw [if_pos (by simp [hw, hp])]
  exact State.afterScrub_once (by simp [State.inReset, State.assertOver, State.advanceTo, hp, hc]) hs

/-! ### The two registers while the YMB is open -/

theorem exec_policyWrite {s : State} {v : W32} (h : s.up) : exec (.policyWrite v) s = .next (s.policyWrite v) :=
  congrArg Host.Outcome.next (State.ymbAt_up (a := 0xC0) h (by decide) (by decide))

theorem exec_platformTagWrite {s : State} {v : W32} (h : s.up) : exec (.platformTagWrite v) s = .next (s.platformTag v) :=
  congrArg Host.Outcome.next (State.ymbAt_up (a := 0xC4) h (by decide) (by decide))

/-- While no access waits, a lock violation is counted, recorded and denied, and nothing else changes. -/
theorem State.violation_of_up {s : State} (h : s.up) (a : Nat) : s.violation a = { s with ctl := { s.ctl with
    viol := satInc s.ctl.viol, violValid := true, violAddr := BitVec.ofNat 24 a, rspCode := rspDenied, rspData := 0 } } := by
  obtain ⟨-, -, hw⟩ := h
  rw [State.violation, State.denied, State.answer, if_neg (by decide), ← hw]

/-- Settles O1: a locked CTL_POLICY refuses every write, no other command touches it (`exec_keepsOnce`), and a reset that is through
leaves it as at power-on. -/
theorem policyLock : Obligations.PolicyLock := by
  unfold Obligations.PolicyLock
  refine ⟨fun s v hu hl => ?write, fun s v hu hl => ?locked, fun s t c ht hl hr => ?stays, fun s => ?power, fun s hs hi => ?zeroize,
    fun s hw hp hc hs => ?warm⟩
  case write =>
    obtain ⟨-, -, hw⟩ := id hu
    exact ⟨_, exec_policyWrite hu, by rw [State.policyWrite_unlocked hl, ← hw]⟩
  case locked => rw [exec_policyWrite hu, State.policyWrite_locked hl, State.violation_of_up hu]; rfl
  case stays =>
    obtain ⟨u, hu, hlock, -⟩ := exec_keepsOnce c s hr
    obtain rfl := Host.Outcome.next.inj (hu.symm.trans ht)
    exact hlock hl
  case power =>
    obtain ⟨t, ht, ho⟩ := exec_powerOnReset_once s
    exact ⟨t, ht, congrArg (·.1) ho⟩
  case zeroize =>
    obtain ⟨t, ht, ho⟩ := exec_zeroizeScrubDone_once hs hi
    exact ⟨t, ht, congrArg (·.1) ho⟩
  case warm =>
    obtain ⟨t, ht, ho⟩ := exec_warmResetRelease_once hw hp hc hs
    exact ⟨t, ht, congrArg (·.1) ho⟩

/-- Settles O2: CTL_PLATFORM_TAG refuses every write but the first, no other command touches it (`exec_keepsOnce`), and a reset that
is through leaves it as at power-on. -/
theorem platformTagOnce : Obligations.PlatformTagOnce := by
  unfold Obligations.PlatformTagOnce
  refine ⟨fun s v hu hw => ?first, fun s v hu hw => ?later, fun s t c ht hw hr => ?stays, fun s => ?power, fun s hs hi => ?zeroize,
    fun s hw hp hc hs => ?warm⟩
  case first =>
    rw [exec_platformTagWrite hu, State.platformTag_unwritten hw]
    exact congrArg Host.Outcome.next (State.okay_of_up (s := { s with ctl := _ }) hu)
  case later => rw [exec_platformTagWrite hu, State.platformTag_written hw, State.violation_of_up hu]; rfl
  case stays =>
    obtain ⟨u, hu, -, htag⟩ := exec_keepsOnce c s hr
    obtain rfl := Host.Outcome.next.inj (hu.symm.trans ht)
    exact htag hw
  case power =>
    obtain ⟨t, ht, ho⟩ := exec_powerOnReset_once s
    exact ⟨t, ht, congrArg (·.2.2.1) ho, congrArg (·.2.2.2) ho⟩
  case zeroize =>
    obtain ⟨t, ht, ho⟩ := exec_zeroizeScrubDone_once hs hi
    exact ⟨t, ht, congrArg (·.2.2.1) ho, congrArg (·.2.2.2) ho⟩
  case warm =>
    obtain ⟨t, ht, ho⟩ := exec_warmResetRelease_once hw hp hc hs
    exact ⟨t, ht, congrArg (·.2.2.1) ho, congrArg (·.2.2.2) ho⟩

end Sys2Proof.Machine
end

section
/-! SUPPORT. The mailbox (R319, R401): what one read of CTL_MBOX_DATA does and what sixteen in a row do, and what becomes of a NOTICE
that waits in an inbox. -/

namespace Sys2Proof.Machine

/-! ### Reads of CTL_MBOX_DATA (R401) -/

theorem exec_mboxDataRead {s : State} (h : s.up) : exec .mboxDataRead s = .next s.mboxGet :=
  congrArg Host.Outcome.next (State.ymbAt_up (a := 0x98) h (by decide) (by decide))

theorem State.mboxGet_empty {s : State} (h : s.quench.mbox = []) : s.mboxGet = s.error := by
  rw [State.mboxGet, h]

/-- A read of an occupied mailbox, with its pointer spelled as R401 does: back to 0 after word 15. -/
theorem State.mboxGet_cons {s : State} {m : Payload} {rest : List Payload} (h : s.quench.mbox = m :: rest) :
    s.mboxGet = ({ s with quench := { s.quench with
      mbox := if s.quench.mboxPtr = 15 then rest else m :: rest
      mboxPtr := if s.quench.mboxPtr = 15 then 0 else s.quench.mboxPtr + 1 } } : State).answer rspOkay
        (field m (32 * s.quench.mboxPtr.toNat) 32) := by
  have hlast : s.quench.mboxPtr.toNat = 15 ↔ s.quench.mboxPtr = 15 := BitVec.toNat_inj (y := 15)
  have hnext : s.quench.mboxPtr + 1 = if s.quench.mboxPtr = 15 then 0 else s.quench.mboxPtr + 1 := by
    split
    case isTrue h15 => rw [h15]; rfl
    case isFalse => rfl
  rw [State.mboxGet, h]
  simp only [hlast]
  rw [← hnext]

/-! ### Sixteen reads in a row -/

/-- A run whose first step comes to `u` goes on from `u`. -/
theorem run_succ_of_step {s u : State} (h : step s = .next u) (k : Nat) : Sys2Proof.core.run (k + 1) s = Sys2Proof.core.run k u := by
  have hc : Sys2Proof.core.step s = .next u := h
  simp only [Host.Core.run, hc]

/-- `n` reads of the mailbox wait, the pointer is at word `j` of the message `m`, and `rest` stands behind it. -/
def State.atWord (s : State) (m : Payload) (rest : List Payload) (j n : Nat) : Prop :=
  s.up ∧ s.quench.mbox = m :: rest ∧ s.quench.mboxPtr.toNat = j ∧ s.pending = List.replicate n .mboxDataRead

section
variable {s : State} {m : Payload} {rest : List Payload} {j n : Nat}

/-- One read of the row: word `j` is answered, and the pointer is at the next word, or after word 15 the message is gone. -/
theorem step_atWord (h : s.atWord m rest j (n + 1)) :
    ∃ u, step s = .next u ∧ u.ctl.rspCode = rspOkay ∧ u.ctl.rspData = field m (32 * j) 32 ∧
      u.quench.mbox = (if j = 15 then rest else m :: rest) ∧ (j < 15 → u.atWord m rest (j + 1) n) := by
  obtain ⟨hu, hm, rfl, hp⟩ := h
  have hlast : s.quench.mboxPtr = 15 ↔ s.quench.mboxPtr.toNat = 15 := (BitVec.toNat_inj (y := 15)).symm
  have hstep : step s = .next ({ s with pending := List.replicate n .mboxDataRead } : State).mboxGet := by
    rw [step, hp, List.replicate_succ]
    exact exec_mboxDataRead hu
  have hget := State.mboxGet_cons (s := { s with pending := List.replicate n .mboxDataRead }) hm
  refine ⟨_, hstep.trans (congrArg Host.Outcome.next hget), rfl, rfl, ?gone, fun hj => ⟨State.up_answer hu _ _, ?kept, ?next, rfl⟩⟩
  case gone => simp only [State.answer, hlast]
  case kept => exact if_neg (by rw [hlast]; omega)
  case next =>
    have hne : s.quench.mboxPtr ≠ 15 := by rw [Ne, hlast]; omega
    have hlt : s.quench.mboxPtr.toNat + 1 < 2 ^ 4 := by omega
    simp only [State.answer, if_neg hne]
    exact (BitVec.toNat_add _ _).trans (Nat.mod_eq_of_lt hlt)

/-- `k` reads of the row, none of them of word 15, move the pointer by `k`. -/
theorem run_atWord {k : Nat} (h : s.atWord m rest j (k + n)) (hj : j + k < 16) :
    ∃ t, Sys2Proof.core.run k s = .next t ∧ State.atWord t m rest (j + k) n := by
  induction k generalizing s j with
  | zero => exact ⟨s, rfl, by simpa using h⟩
  | succ k ih =>
    obtain ⟨u, hu, -, -, -, hw⟩ := step_atWord (n := k + n) (by rwa [Nat.add_right_comm] at h)
    obtain ⟨t, ht, hat⟩ := ih (hw (by omega)) (by omega)
    exact ⟨t, (run_succ_of_step hu k).trans ht, by rwa [Nat.add_right_comm, Nat.add_assoc] at hat⟩

end

/-! ### The mailbox takes or loses a NOTICE (R319) -/

theorem State.mailbox_kept {s : State} {b : Billet} (hc : fieldN b.seq 0 3 = 1) (hl : s.quench.mbox.length < 32) :
    s.mailbox b = ({ s with quench := { s.quench with mbox := s.quench.mbox ++ [b.data] } } : State).tngEvent 0x10 :=
  if_pos (by simp [hc, hl])

theorem State.mailbox_lost {s : State} {b : Billet} (h : fieldN b.seq 0 3 ≠ 1 ∨ 32 ≤ s.quench.mbox.length) :
    s.mailbox b = { s with quench := { s.quench with mboxDrops := satInc s.quench.mboxDrops } } :=
  if_neg (by rcases h with h | h <;> simp [h])

/-! ### A billet leaves the inbox -/

@[simp] theorem PortRx.owe_inbox (r : PortRx) (k : Nat) : (r.owe k).inbox = r.inbox := rfl

@[simp] theorem PortRx.close_inbox (r : PortRx) (e : Ent) : (r.close e).inbox = r.inbox := by
  unfold PortRx.close
  dsimp only
  split <;> rfl

@[simp] theorem PortRx.left_inbox (r : PortRx) (w : Option Nat × Billet) : (r.left w).inbox = r.inbox := by
  unfold PortRx.left
  dsimp only
  (repeat' split) <;> simp

/-- The quiet interval is noted among the routes. -/
theorem State.touchHold_route (s : State) (p : Nat) (vc : BitVec 3) : ∃ r, s.touchHold p vc = { s with route := r } := by
  unfold State.touchHold
  (repeat' split) <;> exact ⟨_, rfl⟩

/-- Billet `b` has left the inbox of port `p`; the quench record with the mailbox, Tongs, time and the other ports are as in `s`. -/
structure State.leavesInbox (t s : State) (p : Nat) (b : Billet) : Prop where
  inbox : (t.port p).rx.inbox = (s.port p).rx.inbox.erase b
  otherPorts : ∀ q, q ≠ p → t.port q = s.port q
  quench : t.quench = s.quench
  tng : t.tng = s.tng
  tab : t.tab = s.tab
  time : t.time = s.time

/-- A change of the port that takes the billet out of its inbox. -/
theorem State.modPort_leavesInbox {s : State} {p : Nat} {b : Billet} {f : Port → Port}
    (hf : (f (s.port p)).rx.inbox = (s.port p).rx.inbox.erase b) : (s.modPort p f).leavesInbox s p b :=
  ⟨by rw [State.modPort_port_same, hf], fun q hq => State.modPort_port_other s p f q hq, rfl, rfl, rfl, rfl⟩

theorem State.leavesInbox.touchHold {t s : State} {p : Nat} {b : Billet} (h : t.leavesInbox s p b) (vc : BitVec 3) :
    (t.touchHold p vc).leavesInbox s p b := by
  obtain ⟨r, hr⟩ := t.touchHold_route p vc
  rw [hr]
  exact ⟨h.inbox, h.otherPorts, h.quench, h.tng, h.tab, h.time⟩

theorem State.undeliver_leavesInbox (s : State) (p : Nat) (b : Billet) : (s.undeliver p b).leavesInbox s p b := by
  unfold State.undeliver
  split
  case isTrue => exact (State.modPort_leavesInbox (by simp [PortRx.taken])).touchHold b.vc
  case isFalse hb => exact ⟨(List.erase_of_not_mem (by simpa using hb)).symm, fun _ _ => rfl, rfl, rfl, rfl, rfl⟩

/-- A MGMT billet reaches no heat. -/
theorem State.reached_mgmt (s : State) {b : Billet} (h : b.kind = kMgmt) : s.reached b = none := by
  simp [State.reached, isCircuitSub, h, kMgmt, kReady, kData, kMask, kBarrier, kCounts, kCommit, kHold, kResume, kBeacon, kCircuit]

theorem State.perturbReached_mgmt (s : State) {b : Billet} (h : b.kind = kMgmt) : s.perturbReached b = s := by
  rw [State.perturbReached, State.reached_mgmt s h]

/-- The mark of a degraded port concerns no heat for a MGMT billet, and leaves the inbox. -/
theorem State.leavesInbox.cameBy {t s : State} {p : PortId} {b : Billet} (h : t.leavesInbox s p.val b) (hk : b.kind = kMgmt) :
    (t.cameBy p b).leavesInbox s p.val b := by
  unfold State.cameBy
  simp only [State.perturbReached_mgmt _ hk, ite_self]
  split
  case isTrue =>
    refine ⟨?_, fun q hq => (State.modPort_port_other t p.val _ q hq).trans (h.otherPorts q hq), h.quench, h.tng, h.tab, h.time⟩
    rw [State.modPort_port_same]
    exact h.inbox
  case isFalse => exact h

/-- A NOTICE of the system key is no slag: it leaves the inbox and goes to the mailbox. -/
theorem exec_mgmtNotice_notice (s : State) (p : PortId) {b : Billet} (hk : b.kind = kMgmt) (h0 : b.key = 0) :
    ∃ t : State, t.leavesInbox s p.val b ∧ exec (.mgmtNotice p b) s = .next (t.mailbox b) := by
  refine ⟨_, (s.undeliver_leavesInbox p.val b).cameBy hk, congrArg Host.Outcome.next ?_⟩
  simp [State.receipt, hk, h0]

theorem exec_mgmtNotice_otherKind (s : State) (p : PortId) {b : Billet} (hk : b.kind ≠ kMgmt) : exec (.mgmtNotice p b) s = .next s :=
  congrArg Host.Outcome.next (if_pos hk)

/-- Settles O6: sixteen reads are sixteen steps that each move the pointer by one (`run_atWord`), and a NOTICE that leaves the inbox
is kept or counted by the mailbox, which changes nothing else. -/
theorem mailbox : Obligations.Mailbox := by
  unfold Obligations.Mailbox
  refine ⟨fun s m rest hu hm => ?read, fun s hu hm => ?empty, fun s b hl hc => ?behind, fun s m rest k hu hm hp hk => ?sixteen,
    fun s p b hk h0 hc hl => ?kept, fun s p b hk h0 h => ?lost, fun s p b hk => exec_mgmtNotice_otherKind s p hk⟩
  case read => rw [exec_mboxDataRead hu, State.mboxGet_cons hm]
  case empty => rw [exec_mboxDataRead hu, State.mboxGet_empty hm]; rfl
  case behind => rw [State.mailbox_kept hc hl]; exact ⟨rfl, rfl⟩
  case sixteen =>
    have h0 : State.atWord { s with pending := List.replicate 16 .mboxDataRead } m rest 0 (k + (15 - k + 1)) :=
      ⟨hu, hm, congrArg BitVec.toNat hp, by rw [show k + (15 - k + 1) = 16 by omega]⟩
    obtain ⟨t, ht, hat⟩ := run_atWord h0 (by omega)
    obtain ⟨u, hstep, hcode, hdata, hmbox, -⟩ := step_atWord hat
    rw [Nat.zero_add] at hdata hmbox
    exact ⟨t, u, ht, hstep, hcode, hdata, hmbox⟩
  case kept =>
    obtain ⟨t, ht, he⟩ := exec_mgmtNotice_notice s p hk h0
    rw [State.mailbox_kept hc (by rw [ht.quench]; exact hl)] at he
    refine ⟨_, he, ?_, ?_, ht.inbox, ht.time, ht.tab, ht.otherPorts⟩
    · simp only [State.tngEvent, ht.quench]
    · simp [State.tngEvent, bit]
  case lost =>
    obtain ⟨t, ht, he⟩ := exec_mgmtNotice_notice s p hk h0
    rw [State.mailbox_lost (by rw [ht.quench]; exact h)] at he
    exact ⟨_, he, by simp only [ht.quench], ht.tng, ht.time, ht.tab⟩

end Sys2Proof.Machine
end
